-- ==== Sys2Proof/Word.lean ====
section
/-! DEFINITION. The word types of the TVD86 and the plain data that its commands carry. -/

namespace Sys2Proof

/-- One register or instruction word (R10, R110). -/
abbrev W32 := BitVec 32

/-- A stamp: an unsigned 64-bit count of TCLK/64 sub-ticks (R14). -/
abbrev Stamp := BitVec 64

/-- One byte of a memory. -/
abbrev Byte := BitVec 8

/-- A host port: HPA or HPB (R392). -/
inductive Port where
  | hpa
  | hpb
  deriving DecidableEq, Repr

/-- The index of a host port: 0 for HPA, 1 for HPB (R40, R41). -/
def Port.idx : Port → Nat
  | .hpa => 0
  | .hpb => 1

/-- A command of a host port without operands: its port, and whether it arrives as it is listed (R393). -/
structure PortCommand where
  port : Port
  pairOk : Bool
  deriving DecidableEq, Repr

/-- Who writes a register: a host port, a program of a core (applied at step 3, R29), or the
live set of an activated skein (R408). -/
inductive Writer where
  | host (p : Port)
  | core (n : Nat)
  | liveSet
  deriving DecidableEq, Repr

/-- Where a host transaction goes: a register, window or local memory at a host address, or DRAM
by its offset. The spec gives the DRAM aperture no host address, so DRAM is named by offset. (DEDUCED 44 of
notes/assumptions) -/
inductive HostAddr where
  | bus (a : W32)
  | dram (off : Nat)
  deriving DecidableEq, Repr

/-- The fields of a format R word of a Dexiz instruction, without its OP and FN (R110). -/
structure RFmt where
  rd : BitVec 5
  ra : BitVec 5
  rb : BitVec 5
  sh : BitVec 5
  deriving DecidableEq, Repr

/-- The fields of a format I word, without its OP (R110). -/
structure IFmt where
  rd : BitVec 5
  ra : BitVec 5
  imm : BitVec 16
  deriving DecidableEq, Repr

/-- The fields of a format A word, without its OP and AF (R110). -/
structure AFmt where
  rd : BitVec 5
  ra : BitVec 5
  rb : BitVec 5
  sh : BitVec 5
  ad : BitVec 2
  deriving DecidableEq, Repr

/-- The fields of a format B word, without its OP; `z` is the field 20:16, which is 0 (R110). -/
structure BFmt where
  cc : BitVec 4
  l : BitVec 1
  z : BitVec 5
  off : BitVec 16
  deriving DecidableEq, Repr

/-- The field of a format J word, without its OP (R110). -/
structure JFmt where
  off : BitVec 26
  deriving DecidableEq, Repr

/-- The fields of a format D word, without its OP and DF (R110). -/
structure DFmt where
  rd : BitVec 5
  ra : BitVec 5
  rb : BitVec 5
  imm : BitVec 7
  deriving DecidableEq, Repr

/-- An input identifier: class in bits 23:16, index in bits 15:0 (R41). -/
abbrev InputId := BitVec 24

/-- What a tracking channel measures at a measurement instant: the values of R318 that come from
the antenna signals. -/
structure ChanMeas where
  tc : Nat
  codePh : W32
  codeCnt : W32
  carrPh : Stamp
  dopp : W32
  cn0 : BitVec 16
  lock : BitVec 16
  trk : Byte
  deriving DecidableEq, Repr

/-- A navigation unit a channel has decoded, with the fields of R319. -/
structure NavUnit where
  stamp : Stamp
  tc : Nat
  sig : Byte
  nbits : BitVec 16
  result : Byte
  kind : Byte
  data : List Byte
  deriving DecidableEq, Repr

/-- A CAN frame as seen on the bus (R366). -/
structure CanFrame where
  fdf : Bool
  brs : Bool
  esi : Bool
  rtr : Bool
  ide : Bool
  id : BitVec 29
  data : List Byte
  deriving DecidableEq, Repr

/-- How one attempt to send a CAN frame ended (R372, R373). -/
inductive TxOutcome where
  | sent
  | lost
  | error
  deriving DecidableEq, Repr

/-- The part a CAN controller has in the frame in which it meets a bus error (R376). (PRESUMED 131 of
notes/assumptions) -/
inductive CanRole where
  | receiver
  | transmitter
  deriving DecidableEq, Repr

/-- The state of a tracking channel, with the codes of GNB_TCSTAT.STATE. -/
inductive TcState where
  | idle
  | acq
  | pullIn
  | track
  | reacq
  deriving DecidableEq, Repr

/-- What the filter of a trip sees up to a command: the trip, the raw edge at its pin, and the levels it has sampled
there, oldest first (R255). -/
structure TripTrain where
  trip : Nat
  edge : Stamp
  levels : List Bool
  deriving DecidableEq, Repr

/-- The shunt voltages of a slice and, in a pair, of the other one, in µV (R265, R266). -/
structure Shunts where
  own : Int
  mate : Int
  deriving DecidableEq, Repr

/-- The drain sense of a slice in mV before its attenuator trim (R286). -/
structure DrainSense where
  slice : Nat
  drain : Int
  deriving DecidableEq, Repr

/-- The drain sense of a slice with the rail sense and HBb_VS of its bank, in mV before the attenuator trims (R286). -/
structure DrainRails where
  slice : Nat
  drain : Int
  rail : Int
  supply : Int
  deriving DecidableEq, Repr

/-- The source of a bank's high-side and the rail behind it, in mV, the rail before its attenuator trim (R286). -/
structure HighSide where
  bank : Nat
  source : Int
  rail : Int
  deriving DecidableEq, Repr

/-- The state that a tracking channel turns to, and the Doppler in Hz at which its signal stands (R313). -/
structure LockChange where
  state : TcState
  dopp : Int
  deriving DecidableEq, Repr

/-- What the current converter of a slice meets at a conversion: the shunt voltage of the slice and, in a pair, of the
other one, in µV (R265, R266). -/
structure ShuntSample where
  stamp : Stamp
  own : Int
  mate : Int
  deriving DecidableEq, Repr

/-- What the coil-voltage converter of a bank meets at a conversion: the rail sense, HBb_VS, and the drain sense of the
slice whose turn it is, in mV before the attenuator trims (R281, R284). -/
structure CoilSample where
  stamp : Stamp
  rail : Int
  supply : Int
  drain : Int
  deriving DecidableEq, Repr

/-- A Chaip copy in the boot flash as the boot port reads it in 1S-1S-1S, and as the link that the header names would
read it in 8D-8D-8D (R416). -/
structure FlashCopy where
  slow : List Byte
  fast : List Byte
  deriving DecidableEq, Repr

/-- An accepted edge of IMU_DRDY: its stamp, and whether it rises (R389). -/
structure DrdyEdge where
  at_ : Stamp
  rising : Bool
  deriving DecidableEq, Repr

/-- The class of an Ethernet frame at its check (R378, R380): the frame with its FCS verdict. -/
structure EthFrame where
  fcsOk : Bool
  bytes : List Byte
  deriving DecidableEq, Repr

end Sys2Proof
end

