-- ==== Sys2Proof/Syntax.lean ====
section
/-! DEFINITION. The commands of the TVD86: one constructor for each row of the table of operations
and events. An operand `c` is a core, `p` a host port; stamps, measured values and received bytes
are what the outside of the device supplies. -/

namespace Sys2Proof

/-- The commands the device takes: operations of its hosts, instructions of its cores, and the
events of its engines, clocks and pins. Those without operands stand last. (DESIGN CHOICE 6 of notes/assumptions) -/
inductive Instr where
  /-- The REFCLK monitor finishes its cast-on check of REFCLK within 6 ms (R64). -/
  | refclkCheckDone (ok : Bool)
  /-- LPDDR4X initialisation and training complete, or fail with FAIL 0x3 (R64). -/
  | dramTrainingDone (ok : Bool)
  /-- The boot port finishes reading the Chaip image, falling back to copy 1 where copy 0 is bad or refused (R416). -/
  | chaipImageRead (copy0 copy1 : FlashCopy)
  /-- A write of SYS_MODE_CTL.RECAST in the cast-on failure state restarts cast-on from step 2 (R66). -/
  | recast (p : Port)
  /-- A write of SYS_MODE_CTL.PARK ends the linger at the next boundary (R67). -/
  | park (p : Port)
  /-- The debounced release of PRESENCE ends a hold; a hold of 2 s to 10 s opens a grant (R409). -/
  | presenceRelease (hold : Nat)
  /-- A dominant level on a selected CAN RX pin passes the wake filter and wakes the device (R69). -/
  | canWake (k : Nat)
  /-- A low HPA_CS_N or HPB_CS_N sampled by AONCLK wakes the device (R463). -/
  | hostCsWake (p : Port)
  /-- A write of SYS_RTC_SEC sets the seconds and clears SUB (R75). -/
  | rtcSet (p : Port) (v : W32)
  /-- Every 256 AONCLK cycles the seal loop is pulsed and checked; two failures set OPEN and latch SEAL_BROKEN (R410). -/
  | sealCheck (pass : Bool)
  /-- A guarded write of SYS_AON_SEAL.CLR clears SEAL_BROKEN or is refused with CLR_REJ (R412). -/
  | sealClear (p : Port)
  /-- A write of SYS_DISC_GPS_HI makes the four staged anchor and GPS words take effect together (R54). -/
  | discRelationWrite (p : Port) (v : W32)
  /-- A read of SYS_DT_LO latches the whole 64-bit DT for the reading port and returns the low word (R52). -/
  | dtLatchRead (p : Port)
  /-- The background calibrator measures a delay line and rewrites its tap table between two of its edges (R59). -/
  | dlTapRewrite (line : Nat) (taps : List Byte)
  /-- The first calibration pass over all delay lines completes and sets SYS_CLKSTAT.DL_CAL_DONE (R59). -/
  | dlCalDone (worst : Byte)
  /-- An opened bank becomes ready 40 µs after its boundary; edges waiting for it are issued with a wake-slip (R74). -/
  | bankReady (b : Nat)
  /-- A completed input sample is admitted or refused by its maximum age, and the outcome is logged (R27). -/
  | sampleAdmission (id : InputId) (src : Stamp)
  /-- A core's budget counter reaches DXC_BUDGET before RWAIT; the core stops and its row outputs are discarded (R82). -/
  | budgetOverrun (c : Nat)
  /-- No operation (R114). -/
  | nop (c : Nat) (f : RFmt)
  /-- Adds two registers modulo 2^32 and writes ZNCV (R114). -/
  | add (c : Nat) (f : RFmt)
  /-- Subtracts two registers modulo 2^32 and writes ZNCV (R114). -/
  | sub (c : Nat) (f : RFmt)
  /-- Adds two registers with saturation (R114). -/
  | adds (c : Nat) (f : RFmt)
  /-- Subtracts two registers with saturation (R114). -/
  | subs (c : Nat) (f : RFmt)
  /-- Bitwise AND of two registers (R114). -/
  | and (c : Nat) (f : RFmt)
  /-- Bitwise OR of two registers (R114). -/
  | or (c : Nat) (f : RFmt)
  /-- Bitwise XOR of two registers (R114). -/
  | xor (c : Nat) (f : RFmt)
  /-- AND of a register with the complement of another (R114). -/
  | andn (c : Nat) (f : RFmt)
  /-- Shifts left by a register count (R114). -/
  | sll (c : Nat) (f : RFmt)
  /-- Shifts right logically by a register count (R114). -/
  | srl (c : Nat) (f : RFmt)
  /-- Shifts right arithmetically by a register count (R114). -/
  | sra (c : Nat) (f : RFmt)
  /-- Shifts right arithmetically with rounding by a register count (R114). -/
  | srar (c : Nat) (f : RFmt)
  /-- Shifts left by the SH field (R114). -/
  | slli (c : Nat) (f : RFmt)
  /-- Shifts right logically by the SH field (R114). -/
  | srli (c : Nat) (f : RFmt)
  /-- Shifts right arithmetically by the SH field (R114). -/
  | srai (c : Nat) (f : RFmt)
  /-- Shifts right arithmetically with rounding by the SH field (R114). -/
  | srari (c : Nat) (f : RFmt)
  /-- Writes the low 32 bits of a product (R114). -/
  | mul (c : Nat) (f : RFmt)
  /-- Writes the high 32 bits of a signed product (R114). -/
  | mulh (c : Nat) (f : RFmt)
  /-- Fixed-point multiply with shift, rounding and saturation (R114). -/
  | mulq (c : Nat) (f : RFmt)
  /-- Signed division truncated towards zero, with DIVZ and SAT cases (R114). -/
  | div (c : Nat) (f : RFmt)
  /-- Unsigned division, with a DIVZ case (R114). -/
  | divu (c : Nat) (f : RFmt)
  /-- Signed remainder, with the sign of the dividend (R114). -/
  | rem (c : Nat) (f : RFmt)
  /-- Fixed-point division with shift, rounding and saturation (R114). -/
  | divq (c : Nat) (f : RFmt)
  /-- Signed minimum of two registers (R114). -/
  | min (c : Nat) (f : RFmt)
  /-- Signed maximum of two registers (R114). -/
  | max (c : Nat) (f : RFmt)
  /-- Unsigned minimum of two registers (R114). -/
  | minu (c : Nat) (f : RFmt)
  /-- Unsigned maximum of two registers (R114). -/
  | maxu (c : Nat) (f : RFmt)
  /-- Saturated absolute value (R114). -/
  | abs (c : Nat) (f : RFmt)
  /-- Saturated negation (R114). -/
  | negs (c : Nat) (f : RFmt)
  /-- Counts the leading zero bits (R114). -/
  | clz (c : Nat) (f : RFmt)
  /-- Sets 1 if a < b, signed (R114). -/
  | slt (c : Nat) (f : RFmt)
  /-- Sets 1 if a < b, unsigned (R114). -/
  | sltu (c : Nat) (f : RFmt)
  /-- Sets FLAGS from a − b (R114). -/
  | cmp (c : Nat) (f : RFmt)
  /-- Reads FLAGS into a register (R114). -/
  | flgr (c : Nat) (f : RFmt)
  /-- Writes FLAGS from a register (R114). -/
  | flgw (c : Nat) (f : RFmt)
  /-- Reads STICKY into a register (R114). -/
  | stkr (c : Nat) (f : RFmt)
  /-- Clears the STICKY bits selected by a register (R114). -/
  | stkc (c : Nat) (f : RFmt)
  /-- Adds a sign-extended immediate (R115). -/
  | addi (c : Nat) (f : IFmt)
  /-- Sets FLAGS from a minus an immediate (R115). -/
  | cmpi (c : Nat) (f : IFmt)
  /-- AND with a zero-extended immediate (R115). -/
  | andi (c : Nat) (f : IFmt)
  /-- OR with a zero-extended immediate (R115). -/
  | ori (c : Nat) (f : IFmt)
  /-- XOR with a zero-extended immediate (R115). -/
  | xori (c : Nat) (f : IFmt)
  /-- Loads an immediate into the upper half of a register (R115). -/
  | lui (c : Nat) (f : IFmt)
  /-- Clears an accumulator (R116). -/
  | aclr (c : Nat) (f : AFmt)
  /-- Moves two registers into an accumulator (R116). -/
  | amov (c : Nat) (f : AFmt)
  /-- Loads a shifted, rounded register into an accumulator (R116). -/
  | ald (c : Nat) (f : AFmt)
  /-- Adds a product to an accumulator with saturation (R116). -/
  | mac (c : Nat) (f : AFmt)
  /-- Subtracts a product from an accumulator with saturation (R116). -/
  | msu (c : Nat) (f : AFmt)
  /-- Adds one accumulator to another with saturation (R116). -/
  | aadd (c : Nat) (f : AFmt)
  /-- Extracts a shifted, rounded, saturated value from an accumulator (R116). -/
  | aext (c : Nat) (f : AFmt)
  /-- Reads the low word of an accumulator (R116). -/
  | alo (c : Nat) (f : AFmt)
  /-- Reads the high word of an accumulator (R116). -/
  | ahi (c : Nat) (f : AFmt)
  /-- Loads a word from data memory, from the snapshot, or from a ring window in place (R117). -/
  | lw (c : Nat) (f : IFmt)
  /-- Loads a sign-extended halfword from data memory (R118). -/
  | lh (c : Nat) (f : IFmt)
  /-- Loads a zero-extended halfword from data memory (R118). -/
  | lhu (c : Nat) (f : IFmt)
  /-- Loads a sign-extended byte from data memory (R118). -/
  | lb (c : Nat) (f : IFmt)
  /-- Loads a zero-extended byte from data memory (R118). -/
  | lbu (c : Nat) (f : IFmt)
  /-- Stores a word to data memory, or posts a register write output for the next boundary (R117). -/
  | sw (c : Nat) (f : IFmt)
  /-- Stores a halfword to data memory (R118). -/
  | sh (c : Nat) (f : IFmt)
  /-- Stores a byte to data memory (R118). -/
  | sb (c : Nat) (f : IFmt)
  /-- Branches on a condition code, optionally linking s31 (R119). -/
  | bc (c : Nat) (f : BFmt)
  /-- Jumps by a 26-bit offset (R119). -/
  | j (c : Nat) (f : JFmt)
  /-- Jumps and links s31 (R119). -/
  | jal (c : Nat) (f : JFmt)
  /-- Jumps to a register address and links (R119). -/
  | jalr (c : Nat) (f : IFmt)
  /-- Ends the current task; after the row task the core idles until the next boundary (R79). -/
  | rwait (c : Nat) (f : DFmt)
  /-- Raises a program event source at the next boundary (R123). -/
  | evr (c : Nat) (f : DFmt)
  /-- Requests a speculative edge for an endpoint, entered at the next boundary (R124). -/
  | ereq (c : Nat) (f : DFmt)
  /-- Posts a node query whose reply lands two boundaries later (R126). -/
  | nqry (c : Nat) (f : DFmt)
  /-- Posts a fabric or prescription probe of up to 32 points (R127). -/
  | fprb (c : Nat) (f : DFmt)
  /-- Posts a transfer from data memory to DRAM (R128). -/
  | xferOutbound (c : Nat) (f : DFmt)
  /-- Posts a transfer from DRAM to data memory (R128). -/
  | xferInbound (c : Nat) (f : DFmt)
  /-- A DRAM transfer finishes during its row; an inbound one is copied at the next boundary or logged late (R88). -/
  | xferComplete (c i : Nat)
  /-- Posts a semaphore take whose reply lands two boundaries later (R129). -/
  | semt (c : Nat) (f : DFmt)
  /-- Releases a semaphore at the next step 3 (R129). -/
  | semr (c : Nat) (f : DFmt)
  /-- Sends a 64-byte message to another core for the next boundary (R130). -/
  | msg (c : Nat) (f : DFmt)
  /-- Reads the number of snapshot samples of an input (R131). -/
  | smpn (c : Nat) (f : DFmt)
  /-- Copies one snapshot sample record into data memory (R131). -/
  | smp (c : Nat) (f : DFmt)
  /-- A host write of DXC_MBI_CTL.POST posts the port's copy of DXC_MBI to a core, or is refused with REJ (R89). -/
  | mbiPost (p : Port) (c : Nat)
  /-- A host write of 1 to DXC_MBO_CTL.VALID releases the outbound mailbox (R90). -/
  | mboRelease (p : Port) (c : Nat)
  /-- A write of DXC_CTL.BENCH enters or leaves bench mode, ignored outside TRANSIT or replay (R93). -/
  | benchSet (p : Port) (c : Nat) (v : Bool)
  /-- A write of DXC_CTL.HALT halts or resumes a core in bench mode (R94). -/
  | halt (p : Port) (c : Nat) (v : Bool)
  /-- A write of DXC_CTL.STEP executes one instruction of a halted core (R94). -/
  | step (p : Port) (c : Nat)
  /-- A write of DXC_DBG_DATA sets the selected register of a halted core, and is ignored otherwise (R95). -/
  | dbgDataWrite (p : Port) (c : Nat) (v : W32)
  /-- A write of DXC_RPL_CTL.GO binds off and either holds in STARTING for a replay or returns to live operation (R101). -/
  | replayGo (p : Port) (arm : Bool) (final : Bool)
  /-- A write of DXC_RPL_CTL.LOADED in STARTING runs cast-on steps 6 to 8 and starts the replay (R101). -/
  | replayLoaded (p : Port) (final : Bool)
  /-- Node command that discards every speculative edge of a node or its subtree at F (R154). -/
  | frog (c : Nat) (f : DFmt)
  /-- Node command that discards the speculative edge of a node with the latest target (R154). -/
  | tink (c : Nat) (f : DFmt)
  /-- Node command that delivers a new ANGLE source value to a frame (R154). -/
  | setAngle (c : Nat) (f : DFmt)
  /-- Node command that delivers a baseline vector, solved into relative yaw or discarded (R143). -/
  | setBaseline (c : Nat) (f : DFmt)
  /-- Node command that replaces the hitch model state with a measured yaw (R144). -/
  | setHitch (c : Nat) (f : DFmt)
  /-- Node command that sets or releases the external state of an endpoint (R153). -/
  | extset (c : Nat) (f : DFmt)
  /-- Node command that clears LEARN_N and both learned leads (R154). -/
  | learnReset (c : Nat) (f : DFmt)
  /-- Node command that makes the node enter its fail state (R156). -/
  | fail (c : Nat) (f : DFmt)
  /-- Node command that leaves the fail state and clears EXCLUDED and MISS (R156). -/
  | recover (c : Nat) (f : DFmt)
  /-- Node command that matches a Kwaros acknowledgement, learns the lead and sets ACTUAL (R164). -/
  | remoteAck (c : Nat) (f : DFmt)
  /-- A write of PLE_POSE_CTL.APPLY takes the writer's staged pose as one set at step 3 (R168). -/
  | poseApply (p : Port)
  /-- A node's evaluation ends and its unit write matches candidates against the queue by CONFIRM, EXTEND, TINK or FROG (R199). -/
  | nodeEvaluationEnd (node : Nat) (landed : Stamp)
  /-- DT reaches an entry's ISSUE cycle; the edge is committed and issued to its endpoint, or held while a unit write is pending (R194). -/
  | edgeIssue (e : Nat)
  /-- DT reaches a committed entry's TARGET and the entry becomes LANDED (R194). -/
  | edgeTarget (e : Nat)
  /-- Slice feedback missing after TARGET + FB_WAIT resolves the actual instant from the configured lead with NOFB (R210). -/
  | fbWaitExpiry (e : Nat)
  /-- A remote edge whose target passes by LEAD_MAX without acknowledgement increments MISS and resolves with NOFB (R164). -/
  | remoteAckTimeout (e : Nat)
  /-- A GO with MODE REPLACE queues a tile replacement (R231). -/
  | swapReplace (p : Port)
  /-- A GO with MODE MERGE queues a merge of exclusions into a coverage tile (R231). -/
  | swapMerge (p : Port)
  /-- A GO with MODE REMOVE queues the removal of a tile (R231). -/
  | swapRemove (p : Port)
  /-- A write of FAB_COPY_CTL.GO requests a consistent copy of a tile, or sets REJ while one is outstanding (R233). -/
  | copyGo (p : Port)
  /-- Any write of PLE_QPEAK clears the peak count (R429). -/
  | qpeakClear (p : Port)
  /-- A carrier reaches its period start; at the reload cycle shadows are copied and trip holds are rechecked (R240). -/
  | periodStart (g : Nat)
  /-- The carrier value reaches a window edge and the channel output changes, subject to gate, dead time and filter (R242). -/
  | compareMatch (ch : Nat) (at_ : Stamp)
  /-- A write of ETU_PER reaches the shadow, or is ignored with PER_REJ when below 1,024 (R246). -/
  | periodWrite (p : Port) (g : Nat) (v : W32)
  /-- A write of ETU_LOCK holds or releases the shadows of carrier groups (R245). -/
  | lockWrite (p : Port) (v : W32)
  /-- A trip's filtered level becomes active and cuts its mapped channel groups and banks (R256). -/
  | tripActive (t : TripTrain)
  /-- A trip's filtered level returns to inactive (R255). -/
  | tripRelease (t : TripTrain)
  /-- A write of ETU_TRIPCLR clears a trip latch, or is refused while the level is still active (R258). -/
  | tripClear (p : Port) (mask : BitVec 16)
  /-- A waiting slice request is granted by its bank and its phase starts (R278). -/
  | bankGrant (sl : Nat)
  /-- A request waits DEFER_MAX without a grant and is refused (R279). -/
  | deferExpiry (sl : Nat)
  /-- A phase's time limit T elapses and the phase exits (R268). -/
  | phaseTimeExpiry (sl : Nat) (v : Shunts)
  /-- The current first reaches I_TGT in a PEAK phase and the phase exits (R268). -/
  | peakReached (sl : Nat) (v : Shunts)
  /-- The coil current crosses I_TGT or I_TGT − I_HYST and the chop switch turns off or on (R268). -/
  | chopThreshold (sl : Nat) (v : Shunts)
  /-- The dip detector confirms an opening dip and reports a slice event (R282). -/
  | dipConfirmed (sl : Nat) (samples : List ShuntSample)
  /-- A kink window opens KW_START after an OFF edge (R281). -/
  | kinkWindowOpen (sl : Nat)
  /-- The kink detector reports the closing kink of the armature as a slice event (R283). -/
  | kinkDetected (sl : Nat) (samples : List CoilSample)
  /-- A kink window closes without a kink and sets NOKINK (R283). -/
  | kinkWindowClose (sl : Nat)
  /-- A decaying slice current falls below I_OFF and the off-timer starts (R274). -/
  | currentBelowIoff (sl : Nat) (v : Shunts)
  /-- The current rises to I_OFF or above in OFFMIN and the off-timer stops (R274). -/
  | currentAboveIoff (sl : Nat) (v : Shunts)
  /-- The off-timer reaches T_OFFMIN; the OFF completes and the on-time counter clears (R274). -/
  | offminExpiry (sl : Nat)
  /-- The on-time counter reaches MAXON; the slice turns off and locks (R276). -/
  | maxonReached (sl : Nat)
  /-- A slice current at OC for 200 ns turns its gates off and enters FAULT (R286). -/
  | overCurrent (sl : Nat) (own : Int)
  /-- A drain above DRN_HI for 2 µs with the low-side on enters FAULT (R286). -/
  | drainShortSupply (d : DrainSense)
  /-- A drain below DRN_LO for 10 µs with the low-side off turns the bank off and holds its slices (R286). -/
  | drainShortGround (d : DrainRails)
  /-- A bank high-side whose rail sags more than 4 V for 5 µs turns the bank off and holds its slices (R286). -/
  | highSideFault (h : HighSide)
  /-- A write of DSL_SCLR takes a slice out of FAULT (R287). -/
  | sliceClear (p : Port) (sl : Nat)
  /-- A write of DSL_BCLR releases a bank fault, or is refused while GDUV persists (R287). -/
  | bankClear (p : Port) (b : Nat)
  /-- A loop unit reaches its sample instant and computes its control law, group step and following error (R297). -/
  | loopSample (n : Nat)
  /-- A loop sample's output becomes valid 4 µs after its sample instant (R290). -/
  | loopOutput (n : Nat)
  /-- A write of CLE_MODE with OFF sets the unit to OFF at its next sample (R301). -/
  | loopModeOff (p : Port) (n : Nat)
  /-- A write of CLE_MODE with AUTO enters AUTO, with a bumpless transfer from MANUAL (R301). -/
  | loopModeAuto (p : Port) (n : Nat)
  /-- A write of CLE_MODE with MANUAL enters MANUAL on privileged units (R301). -/
  | loopModeManual (p : Port) (n : Nat)
  /-- A write of CLE_LCLR takes a unit from FAULT to OFF at its next sample (R301). -/
  | loopClear (p : Port) (n : Nat)
  /-- The GNB latches every tracking channel at a measurement instant and applies pending channel writes (R315). -/
  | measurementInstant (meas : List ChanMeas)
  /-- A write of a channel's configuration is applied at the next measurement instant, or refused (R313). -/
  | tccfgWrite (p : Port) (k : Nat) (v : W32)
  /-- A tracking channel acquires, or loses and re-acquires, its signal (R313). -/
  | channelLockChange (k : Nat) (c : LockChange)
  /-- A navigation unit completes decoding and is added to the next epoch record (R319). -/
  | navUnitComplete (u : NavUnit)
  /-- A write of GNB_SOL_CTL.APPLY delivers a time solution that drives the discipline state machine (R323). -/
  | solutionApply (p : Port)
  /-- A write of GNB_SOL_CTL.HOLD enters HOLDOVER from LOCKED (R325). -/
  | hold (p : Port)
  /-- A write of GNB_SOL_CTL.ACCEPT accepts the return after a jump (R325). -/
  | accept (p : Port)
  /-- 500 ms before a PPS pulse its stamp is fixed and the time-mark is written (R330). -/
  | timeMark (o : Nat)
  /-- A PPS output goes active at its pulse stamp (R328). -/
  | ppsPulse (o : Nat)
  /-- A PPS pulse returns inactive after WIDTH µs (R328). -/
  | ppsPulseEnd (o : Nat)
  /-- A frame not complete within FPER of its first datagram is discarded as incomplete (R338). -/
  | frameTimeout (i : Nat)
  /-- A track command DELETE frees a track at the next output's track step (R356). -/
  | trackDelete (p : Port)
  /-- A track command INJECT places a confirmed injected track at the next output (R356). -/
  | trackInject (p : Port)
  /-- A CAN frame received without error is stamped and written into the receive ring (R367). -/
  | canFrameReceive (k : Nat) (sof adm : Stamp) (fr : CanFrame)
  /-- A write of CAN_TXREQ requests a transmit buffer, or is ignored while it is busy (R371). -/
  | canTxRequest (p : Port) (k : Nat) (mask : W32)
  /-- A write of CAN_TXABORT aborts a transmit buffer with an outcome set by when it lands (R373). -/
  | canTxAbort (p : Port) (k : Nat) (mask : W32)
  /-- At a start of frame the controller sends the pending frame that wins internal arbitration (R372). -/
  | canStartOfFrame (k : Nat) (sof : Stamp)
  /-- A transmit request ends and writes its TX record into the ring (R374). -/
  | canTxEnd (k : Nat) (out : TxOutcome)
  /-- A bus error updates TEC and REC, and a state change writes a STATUS record (R376). -/
  | canError (k : Nat) (role : CanRole) (flag : Bool)
  /-- A write of CAN_CTL.RECOVER starts bus-off recovery (R377). -/
  | canRecover (p : Port) (k : Nat)
  /-- Recovery ends after 128 occurrences of 11 recessive bits (R377). -/
  | canRecoveryDone (k : Nat)
  /-- A write of CAN_RXRD releases ring entries, or is ignored with RDREJ (R370). -/
  | canRxrdWrite (p : Port) (k : Nat) (v : W32)
  /-- A commit's CAN settings act at the first bus idle at or after the named boundary (R364). -/
  | canSettingsChange (k : Nat)
  /-- At each multiple of PERIOD a SYNC frame is queued on its port (R166). -/
  | kwarosSync (port : Nat)
  /-- Once a SYNC's stamp is known its FOLLOW_UP is sent (R166). -/
  | kwarosFollowUp (port : Nat)
  /-- A received Ethernet frame is stamped and classified to drop, PTP, fusion or the program ring (R380). -/
  | ethFrameReceive (e : Nat) (ingress adm : Stamp) (fr : EthFrame)
  /-- A write of ETH_TXREQ requests a transmit slot (R381). -/
  | ethTxRequest (p : Port) (e : Nat) (mask : BitVec 16)
  /-- A transmit slot's frame is sent or refused, and its TX record is written (R381). -/
  | ethTxEnd (e : Nat) (egress : Stamp)
  /-- A change of link state writes a LINK record (R381). -/
  | ethLinkChange (e : Nat) (up : Bool) (speed : BitVec 2)
  /-- A write of ETH_RXRD releases program-ring entries (R381). -/
  | ethRxrdWrite (p : Port) (e : Nat) (v : W32)
  /-- The grandmaster sends Sync at each LOGSYNC interval and then its Follow_Up (R383). -/
  | ptpSync (e : Nat) (egress : Stamp)
  /-- The MAC answers a Pdelay_Req with a Pdelay_Resp and its Follow_Up within 1 ms (R384). -/
  | pdelayResponse (e : Nat) (egress : Stamp)
  /-- ETH_MDIO_CMD with GO and OP 0x0 starts a Clause 22 write (R378). -/
  | mdioC22Write (p : Port) (e : Nat) (phy dev : BitVec 5) (data : BitVec 16)
  /-- ETH_MDIO_CMD with GO and OP 0x1 starts a Clause 22 read (R378). -/
  | mdioC22Read (p : Port) (e : Nat) (phy dev : BitVec 5)
  /-- ETH_MDIO_CMD with GO and OP 0x2 starts a Clause 45 address cycle (R378). -/
  | mdioC45Address (p : Port) (e : Nat) (phy dev : BitVec 5) (data : BitVec 16)
  /-- ETH_MDIO_CMD with GO and OP 0x3 starts a Clause 45 read (R378). -/
  | mdioC45Read (p : Port) (e : Nat) (phy dev : BitVec 5)
  /-- A management cycle ends, BUSY clears and read data appear (R378). -/
  | mdioCycleDone (e : Nat) (data : BitVec 16)
  /-- An accepted pulse-input edge becomes a stamped sample with its period and count (R385). -/
  | pulseEdge (i : Nat) (at_ : Stamp) (level : Bool)
  /-- A decoded quadrature edge changes the position count, or sets QERR (R386). -/
  | quadEdge (i : Nat) (at_ : Stamp) (a b : Bool)
  /-- An ADC channel samples at its grid instant and delivers a corrected conversion (R388). -/
  | adcConversion (ch : Nat) (raw : BitVec 12)
  /-- An accepted IMU_DRDY edge starts an SPI burst, or counts an overlap (R389). -/
  | imuDrdy (edge : DrdyEdge)
  /-- The IMU burst finishes and its 16 bytes form a sample (R389). -/
  | imuBurstEnd (at_ : Stamp) (bytes : List Byte)
  /-- Host READ command returns words from an address until chip-select rises (R393). -/
  | read (p : Port) (pairOk : Bool) (a : HostAddr) (n : Nat)
  /-- Host WRITE command writes words from an address; each lands when its last byte arrives (R393). -/
  | write (p : Port) (pairOk : Bool) (a : HostAddr) (ws : List W32) (partialWord : Bool)
  /-- Host command returning HP_STAT bits 15:0 (R393). -/
  | rdsr (p : Port) (pairOk : Bool)
  /-- Host command returning SYS_ID (R393). -/
  | rdid (p : Port) (pairOk : Bool)
  /-- Host command that moves the port to 8D-8D-8D (R392). -/
  | enter8d (c : PortCommand)
  /-- Host command that returns the port to 1S-1S-1S (R392). -/
  | exit8d (p : Port) (pairOk : Bool)
  /-- A write of a register field without behaviour of its own takes effect by its access code (R11). -/
  | registerWrite (p : Port) (a : W32) (v : W32)
  /-- A host TAKE on SEM_CTL gives a free semaphore to the writing port (R399). -/
  | semTake (p : Port) (n : Nat)
  /-- A host REL frees a semaphore that the writer owns (R399). -/
  | semRel (p : Port) (n : Nat)
  /-- A host FORCE frees a semaphore whatever its owner (R399). -/
  | semForce (p : Port) (n : Nat)
  /-- A write of SKN_CTL.OP COMMIT requests activation of STAGING at the named row, or is refused at landing (R403). -/
  | commit (p : Port)
  /-- A write of SKN_CTL.OP ROLLBACK requests reactivation of PREVIOUS at the named row (R403). -/
  | rollback (p : Port)
  /-- A write of GSB_CTL.PROG checks SEM1, grant, seal, wear and header, then programs the gauge store (R415). -/
  | gaugeProgram (p : Port)
  /-- Gauge-store programming ends, BUSY clears and RESULT is set (R415). -/
  | gaugeProgramDone (ok : Bool)
  /-- A write of GSB_CTL.SESS_OPEN opens a boot write session by consuming a grant (R420). -/
  | sessionOpen (p : Port)
  /-- A write of GSB_CTL.SESS_CLOSE closes the boot write session (R420). -/
  | sessionClose (p : Port)
  /-- A write of GSB_BCMD.GO issues a flash command, or is refused without WT and a session (R420). -/
  | bootCommand (p : Port)
  /-- A pass-through flash command finishes and BUSY clears (R420). -/
  | bootCommandDone (data : List Byte)
  /-- A write of HP_HB records the port's landing stamp in HP_HBLAST (R421). -/
  | heartbeat (p : Port) (v : W32)
  /-- A write of HP_SAFE.CLR ends SAFE at the next boundary, or is refused (R423). -/
  | safeClear (p : Port)
  /-- A write of EVT_RAISE raises program events PE0–PE31 at the next step 3 (R427). -/
  | eventRaiseHost (p : Port) (mask : W32)
  /-- A host write of 1 to an EVT_PEND bit clears it unless a raise lands in the same cycle (R426). -/
  | eventPendClear (p : Port) (q : Port) (w : Nat) (mask : W32)
  /-- A CAN controller that has started integration, after DOZE or bus-off, sees 11 recessive bits and begins to receive and transmit (R364). -/
  | canIntegrationEnd (k : Nat)
  /-- Each die's temperature sensor updates SYS_TEMP once every 1 ms (R454). -/
  | temperatureUpdate (drive logic : BitVec 16)
  /-- The main supplies ramp after PWREN rises or at first power-up, ahead of the release of RESET_N (R437). -/
  | powerUp
  /-- Release of RESET_N starts cast-on at step 2; outputs are held as R65 states (R64). -/
  | resetRelease
  /-- RESET_N driven low puts the logic die in reset at once, with outputs as R65 states and DT, skein slots and engine state lost (R438). -/
  | resetAssert
  /-- TCLK, FCLK and DCLK lock, and DT starts at 0 at TCLK lock (R49). -/
  | pllLock
  /-- The gauge store is read and checked; tap tables and SYS_TCLK_TRIM are seeded, or defaults are used with GAUGE_BAD set (R414). -/
  | gaugeCheckDone
  /-- Program images, the initial skein, CLE tables and FGE weights are placed, and the accepted skein becomes ACTIVE (R418). -/
  | imagePlaceDone
  /-- REFCLK is declared lost; every edge channel goes low, slice gates go off, rows stop and DT becomes invalid (R48). -/
  | clockLoss
  /-- At each row boundary stamp the device performs the four ordered steps of the boundary (R23). -/
  | rowBoundary
  /-- The linger of SYS_MODE.LINGER × 100 ms after bind-off-done has elapsed (R67). -/
  | lingerElapsed
  /-- The debounced assertion of PRESENCE, taken at the 656th high sample, wakes the device or starts a presence hold (R463). -/
  | presenceAssert
  /-- A hold that reaches 10 s sets STUCK (R409). -/
  | presenceStuck
  /-- An open presence grant closes 60 s after the release that opened it (R409). -/
  | grantExpiry
  /-- A PI0 level of the selected polarity held for 2 AONCLK samples wakes the device (R463). -/
  | pi0Wake
  /-- SYS_RTC_SEC reaching SYS_RTC_ALARM wakes the device (R69). -/
  | rtcAlarm
  /-- The RTC advances SEC when SUB wraps at 32,768 AONCLK cycles (R75). -/
  | rtcSecond
  /-- After a wake from DOZE the engines of the resume mode become ungated after a variable latency (R61). -/
  | enginesUngated
  /-- A write to the AON mirror reaches the AON domain at the third AONCLK edge after landing, and BUSY clears (R75). -/
  | aonMirrorArrival
  /-- A failure of VDD_AON resets the AON domain, and COLD and SEAL_BROKEN are set when it returns (R439). -/
  | aonSupplyFail
  /-- A new SYS_TCLK_TRIM takes effect at the first DT multiple of 1 µs after the write (R56). -/
  | trimTakesEffect
  /-- A SLOW machine whose dwell since the first slow pose reaches DWELL becomes STOPPED (R206). -/
  | dwellExpiry
  /-- At B + P − 1 µs unfinished evaluations are abandoned, nodes are carried and LATE_PLE is logged (R192). -/
  | passDeadline
  /-- The trailing write of a row completes and its cells become visible from the next boundary (R213). -/
  | trailingWriteEnd
  /-- A trailing write not ended by the next boundary minus 1 µs sets TRAIL_LATE and is completed late (R237). -/
  | trailDeadline
  /-- The tile copy finishes during its row, and its result is reported at the next boundary (R233). -/
  | copyDone
  /-- The write-back of every dirty tile-cache line at bind-off completes (R236). -/
  | tileWritebackDone
  /-- VGD or VDD_DRV below threshold for 5 µs holds every bank under GDUV (R440). -/
  | gduvDetect
  /-- VGD and VDD_DRV return above their release thresholds (R440). -/
  | gduvClear
  /-- An epoch record is admitted 200 µs after its measurement instant (R316). -/
  | epochAdmission
  /-- No solution is accepted for LOSS ms, and the discipline changes state (R325). -/
  | solutionLoss
  /-- The holdover time reaches HOLD_LIM and EXPIRED is set (R325). -/
  | holdoverExpiry
  /-- At stamp S the stepped anchor and GPS time take effect (R326). -/
  | relationStep
  /-- A feature-frame datagram arrives for a fusion source and is assembled into its frame (R338). -/
  | fusionDatagram
  /-- The fusion head, ego-motion and track update of an output finish (R346). -/
  | fusionOutputDone
  /-- An output not ended by its visibility boundary minus 1 µs is abandoned (R347). -/
  | fusionDeadline
  /-- IMU_SYNC goes high at each sync period instant and low after WIDTH (R390). -/
  | imuSyncPulse
  /-- The skein checker ends within T_CHK with an outcome code and settles the presence grant (R404). -/
  | checkerEnd
  /-- A boot write session closes 600 s after it opened (R420). -/
  | sessionTimeout
  /-- TCLK, FCLK or DCLK fails to lock within the 200 µs limit of cast-on step 3, and cast-on stops with SYS_BOOTSTAT.FAIL 0x2 (R66). -/
  | pllLockFailed
  /-- After a wake latched during a bind-off towards ASLEEP, PWREN has been low for at least 10 ms and the device raises it again to start cast-on (R68). -/
  | pwrenDropElapsed
  /-- IMU_SYNC returns low WIDTH µs after its sync instant (R390). -/
  | imuSyncPulseEnd
  /-- The 32.768 kHz crystal stops; AON_XTAL_OK clears and the AON domain no longer asserts PWREN (R437). -/
  | aonclkLoss
  /-- The 32.768 kHz crystal runs again; AON_XTAL_OK sets and the AON domain may assert PWREN (R437). -/
  | aonclkReturn
  deriving DecidableEq, Repr

end Sys2Proof
end

