-- ==== Sys2Proof/Decode.lean ====
section
/-! DEFINITION. The words of the Dexiz instructions (R110 to R113), and the words of the table of
operations and events, which gives no row any bits. -/

namespace Sys2Proof

/-- The table gives no row of this block a word. (DEDUCED 2 of notes/assumptions) -/
def decodeTableWord (_nbits _w : Nat) : Option Instr := none

/-- Bits `lo` to `lo + n − 1` of an instruction word. -/
def field (w lo n : Nat) : Nat := w / 2 ^ lo % 2 ^ n

/-- The format R fields of a word (R110). -/
def fieldsR (w : Nat) : RFmt :=
  ⟨BitVec.ofNat 5 (field w 21 5), BitVec.ofNat 5 (field w 16 5), BitVec.ofNat 5 (field w 11 5),
    BitVec.ofNat 5 (field w 6 5)⟩

/-- The format I fields of a word (R110). -/
def fieldsI (w : Nat) : IFmt :=
  ⟨BitVec.ofNat 5 (field w 21 5), BitVec.ofNat 5 (field w 16 5), BitVec.ofNat 16 (field w 0 16)⟩

/-- The format A fields of a word (R110). -/
def fieldsA (w : Nat) : AFmt :=
  ⟨BitVec.ofNat 5 (field w 21 5), BitVec.ofNat 5 (field w 16 5), BitVec.ofNat 5 (field w 11 5),
    BitVec.ofNat 5 (field w 6 5), BitVec.ofNat 2 (field w 4 2)⟩

/-- The format B fields of a word (R110). -/
def fieldsB (w : Nat) : BFmt :=
  ⟨BitVec.ofNat 4 (field w 22 4), BitVec.ofNat 1 (field w 21 1), BitVec.ofNat 5 (field w 16 5),
    BitVec.ofNat 16 (field w 0 16)⟩

/-- The format J field of a word (R110). -/
def fieldsJ (w : Nat) : JFmt := ⟨BitVec.ofNat 26 (field w 0 26)⟩

/-- The format D fields of a word (R110). -/
def fieldsD (w : Nat) : DFmt :=
  ⟨BitVec.ofNat 5 (field w 21 5), BitVec.ofNat 5 (field w 16 5), BitVec.ofNat 5 (field w 11 5),
    BitVec.ofNat 7 (field w 4 7)⟩

/-- A format R word (R110). -/
def wordR (fn : Nat) (f : RFmt) : Nat :=
  f.rd.toNat * 2 ^ 21 + f.ra.toNat * 2 ^ 16 + f.rb.toNat * 2 ^ 11 + f.sh.toNat * 2 ^ 6 + fn

/-- A format I word (R110). -/
def wordI (op : Nat) (f : IFmt) : Nat :=
  op * 2 ^ 26 + f.rd.toNat * 2 ^ 21 + f.ra.toNat * 2 ^ 16 + f.imm.toNat

/-- A format A word (R110). -/
def wordA (af : Nat) (f : AFmt) : Nat :=
  0x08 * 2 ^ 26 + f.rd.toNat * 2 ^ 21 + f.ra.toNat * 2 ^ 16 + f.rb.toNat * 2 ^ 11 +
    f.sh.toNat * 2 ^ 6 + f.ad.toNat * 2 ^ 4 + af

/-- A format B word (R110). -/
def wordB (f : BFmt) : Nat :=
  0x30 * 2 ^ 26 + f.cc.toNat * 2 ^ 22 + f.l.toNat * 2 ^ 21 + f.z.toNat * 2 ^ 16 + f.off.toNat

/-- A format J word (R110). -/
def wordJ (op : Nat) (f : JFmt) : Nat := op * 2 ^ 26 + f.off.toNat

/-- A format D word (R110). -/
def wordD (df : Nat) (f : DFmt) : Nat :=
  0x3F * 2 ^ 26 + f.rd.toNat * 2 ^ 21 + f.ra.toNat * 2 ^ 16 + f.rb.toNat * 2 ^ 11 +
    f.imm.toNat * 2 ^ 4 + df

/-- The register group, by FN (R114). -/
def decodeR (c w : Nat) : Option Instr :=
  match field w 0 6 with
  | 0 => some (.nop c (fieldsR w))
  | 1 => some (.add c (fieldsR w))
  | 2 => some (.sub c (fieldsR w))
  | 3 => some (.adds c (fieldsR w))
  | 4 => some (.subs c (fieldsR w))
  | 5 => some (.and c (fieldsR w))
  | 6 => some (.or c (fieldsR w))
  | 7 => some (.xor c (fieldsR w))
  | 8 => some (.andn c (fieldsR w))
  | 9 => some (.sll c (fieldsR w))
  | 10 => some (.srl c (fieldsR w))
  | 11 => some (.sra c (fieldsR w))
  | 12 => some (.srar c (fieldsR w))
  | 13 => some (.slli c (fieldsR w))
  | 14 => some (.srli c (fieldsR w))
  | 15 => some (.srai c (fieldsR w))
  | 16 => some (.srari c (fieldsR w))
  | 17 => some (.mul c (fieldsR w))
  | 18 => some (.mulh c (fieldsR w))
  | 19 => some (.mulq c (fieldsR w))
  | 20 => some (.div c (fieldsR w))
  | 21 => some (.divu c (fieldsR w))
  | 22 => some (.rem c (fieldsR w))
  | 23 => some (.divq c (fieldsR w))
  | 24 => some (.min c (fieldsR w))
  | 25 => some (.max c (fieldsR w))
  | 26 => some (.minu c (fieldsR w))
  | 27 => some (.maxu c (fieldsR w))
  | 28 => some (.abs c (fieldsR w))
  | 29 => some (.negs c (fieldsR w))
  | 30 => some (.clz c (fieldsR w))
  | 31 => some (.slt c (fieldsR w))
  | 32 => some (.sltu c (fieldsR w))
  | 33 => some (.cmp c (fieldsR w))
  | 40 => some (.flgr c (fieldsR w))
  | 41 => some (.flgw c (fieldsR w))
  | 42 => some (.stkr c (fieldsR w))
  | 43 => some (.stkc c (fieldsR w))
  | _ => none

/-- The accumulator group, by AF (R116). -/
def decodeA (c w : Nat) : Option Instr :=
  match field w 0 4 with
  | 0 => some (.aclr c (fieldsA w))
  | 1 => some (.amov c (fieldsA w))
  | 2 => some (.ald c (fieldsA w))
  | 3 => some (.mac c (fieldsA w))
  | 4 => some (.msu c (fieldsA w))
  | 5 => some (.aadd c (fieldsA w))
  | 6 => some (.aext c (fieldsA w))
  | 7 => some (.alo c (fieldsA w))
  | 8 => some (.ahi c (fieldsA w))
  | _ => none

/-- The device group, by DF, but for NCMD and XFER, whose row the operand block names (R122). -/
def decodeD (c w : Nat) : Option Instr :=
  match field w 0 4 with
  | 0 => some (.rwait c (fieldsD w))
  | 1 => some (.evr c (fieldsD w))
  | 2 => some (.ereq c (fieldsD w))
  | 4 => some (.nqry c (fieldsD w))
  | 5 => some (.fprb c (fieldsD w))
  | 7 => some (.semt c (fieldsD w))
  | 8 => some (.semr c (fieldsD w))
  | 9 => some (.msg c (fieldsD w))
  | 10 => some (.smpn c (fieldsD w))
  | 11 => some (.smp c (fieldsD w))
  | _ => none

/-- The instruction of core `c` that a word spells, by OP (R113); none where no entry lists its codes,
and for NCMD and XFER. -/
def dexDecode (c : Nat) (w : W32) : Option Instr :=
  let n := w.toNat
  match field n 26 6 with
  | 0 => decodeR c n
  | 8 => decodeA c n
  | 48 => some (.bc c (fieldsB n))
  | 63 => decodeD c n
  | 1 => some (.addi c (fieldsI n))
  | 2 => some (.cmpi c (fieldsI n))
  | 3 => some (.andi c (fieldsI n))
  | 4 => some (.ori c (fieldsI n))
  | 5 => some (.xori c (fieldsI n))
  | 6 => some (.lui c (fieldsI n))
  | 16 => some (.lw c (fieldsI n))
  | 17 => some (.lh c (fieldsI n))
  | 18 => some (.lhu c (fieldsI n))
  | 19 => some (.lb c (fieldsI n))
  | 20 => some (.lbu c (fieldsI n))
  | 24 => some (.sw c (fieldsI n))
  | 25 => some (.sh c (fieldsI n))
  | 26 => some (.sb c (fieldsI n))
  | 34 => some (.jalr c (fieldsI n))
  | 32 => some (.j c (fieldsJ n))
  | 33 => some (.jal c (fieldsJ n))
  | _ => none

/-- The word of a Dexiz instruction whose word names it alone (R110 to R113): every instruction but
the node commands and the transfers, which share the words of NCMD and XFER. -/
def dexEncode : Instr → Option W32
  | .nop _ f => some (BitVec.ofNat 32 (wordR 0 f))
  | .add _ f => some (BitVec.ofNat 32 (wordR 1 f))
  | .sub _ f => some (BitVec.ofNat 32 (wordR 2 f))
  | .adds _ f => some (BitVec.ofNat 32 (wordR 3 f))
  | .subs _ f => some (BitVec.ofNat 32 (wordR 4 f))
  | .and _ f => some (BitVec.ofNat 32 (wordR 5 f))
  | .or _ f => some (BitVec.ofNat 32 (wordR 6 f))
  | .xor _ f => some (BitVec.ofNat 32 (wordR 7 f))
  | .andn _ f => some (BitVec.ofNat 32 (wordR 8 f))
  | .sll _ f => some (BitVec.ofNat 32 (wordR 9 f))
  | .srl _ f => some (BitVec.ofNat 32 (wordR 10 f))
  | .sra _ f => some (BitVec.ofNat 32 (wordR 11 f))
  | .srar _ f => some (BitVec.ofNat 32 (wordR 12 f))
  | .slli _ f => some (BitVec.ofNat 32 (wordR 13 f))
  | .srli _ f => some (BitVec.ofNat 32 (wordR 14 f))
  | .srai _ f => some (BitVec.ofNat 32 (wordR 15 f))
  | .srari _ f => some (BitVec.ofNat 32 (wordR 16 f))
  | .mul _ f => some (BitVec.ofNat 32 (wordR 17 f))
  | .mulh _ f => some (BitVec.ofNat 32 (wordR 18 f))
  | .mulq _ f => some (BitVec.ofNat 32 (wordR 19 f))
  | .div _ f => some (BitVec.ofNat 32 (wordR 20 f))
  | .divu _ f => some (BitVec.ofNat 32 (wordR 21 f))
  | .rem _ f => some (BitVec.ofNat 32 (wordR 22 f))
  | .divq _ f => some (BitVec.ofNat 32 (wordR 23 f))
  | .min _ f => some (BitVec.ofNat 32 (wordR 24 f))
  | .max _ f => some (BitVec.ofNat 32 (wordR 25 f))
  | .minu _ f => some (BitVec.ofNat 32 (wordR 26 f))
  | .maxu _ f => some (BitVec.ofNat 32 (wordR 27 f))
  | .abs _ f => some (BitVec.ofNat 32 (wordR 28 f))
  | .negs _ f => some (BitVec.ofNat 32 (wordR 29 f))
  | .clz _ f => some (BitVec.ofNat 32 (wordR 30 f))
  | .slt _ f => some (BitVec.ofNat 32 (wordR 31 f))
  | .sltu _ f => some (BitVec.ofNat 32 (wordR 32 f))
  | .cmp _ f => some (BitVec.ofNat 32 (wordR 33 f))
  | .flgr _ f => some (BitVec.ofNat 32 (wordR 40 f))
  | .flgw _ f => some (BitVec.ofNat 32 (wordR 41 f))
  | .stkr _ f => some (BitVec.ofNat 32 (wordR 42 f))
  | .stkc _ f => some (BitVec.ofNat 32 (wordR 43 f))
  | .addi _ f => some (BitVec.ofNat 32 (wordI 1 f))
  | .cmpi _ f => some (BitVec.ofNat 32 (wordI 2 f))
  | .andi _ f => some (BitVec.ofNat 32 (wordI 3 f))
  | .ori _ f => some (BitVec.ofNat 32 (wordI 4 f))
  | .xori _ f => some (BitVec.ofNat 32 (wordI 5 f))
  | .lui _ f => some (BitVec.ofNat 32 (wordI 6 f))
  | .lw _ f => some (BitVec.ofNat 32 (wordI 16 f))
  | .lh _ f => some (BitVec.ofNat 32 (wordI 17 f))
  | .lhu _ f => some (BitVec.ofNat 32 (wordI 18 f))
  | .lb _ f => some (BitVec.ofNat 32 (wordI 19 f))
  | .lbu _ f => some (BitVec.ofNat 32 (wordI 20 f))
  | .sw _ f => some (BitVec.ofNat 32 (wordI 24 f))
  | .sh _ f => some (BitVec.ofNat 32 (wordI 25 f))
  | .sb _ f => some (BitVec.ofNat 32 (wordI 26 f))
  | .jalr _ f => some (BitVec.ofNat 32 (wordI 34 f))
  | .aclr _ f => some (BitVec.ofNat 32 (wordA 0 f))
  | .amov _ f => some (BitVec.ofNat 32 (wordA 1 f))
  | .ald _ f => some (BitVec.ofNat 32 (wordA 2 f))
  | .mac _ f => some (BitVec.ofNat 32 (wordA 3 f))
  | .msu _ f => some (BitVec.ofNat 32 (wordA 4 f))
  | .aadd _ f => some (BitVec.ofNat 32 (wordA 5 f))
  | .aext _ f => some (BitVec.ofNat 32 (wordA 6 f))
  | .alo _ f => some (BitVec.ofNat 32 (wordA 7 f))
  | .ahi _ f => some (BitVec.ofNat 32 (wordA 8 f))
  | .j _ f => some (BitVec.ofNat 32 (wordJ 32 f))
  | .jal _ f => some (BitVec.ofNat 32 (wordJ 33 f))
  | .rwait _ f => some (BitVec.ofNat 32 (wordD 0 f))
  | .evr _ f => some (BitVec.ofNat 32 (wordD 1 f))
  | .ereq _ f => some (BitVec.ofNat 32 (wordD 2 f))
  | .nqry _ f => some (BitVec.ofNat 32 (wordD 4 f))
  | .fprb _ f => some (BitVec.ofNat 32 (wordD 5 f))
  | .semt _ f => some (BitVec.ofNat 32 (wordD 7 f))
  | .semr _ f => some (BitVec.ofNat 32 (wordD 8 f))
  | .msg _ f => some (BitVec.ofNat 32 (wordD 9 f))
  | .smpn _ f => some (BitVec.ofNat 32 (wordD 10 f))
  | .smp _ f => some (BitVec.ofNat 32 (wordD 11 f))
  | .bc _ f => some (BitVec.ofNat 32 (wordB f))
  | _ => none

/-- The core that runs an instruction whose word names it alone. -/
def dexCore : Instr → Option Nat
  | .nop c _ => some c
  | .add c _ => some c
  | .sub c _ => some c
  | .adds c _ => some c
  | .subs c _ => some c
  | .and c _ => some c
  | .or c _ => some c
  | .xor c _ => some c
  | .andn c _ => some c
  | .sll c _ => some c
  | .srl c _ => some c
  | .sra c _ => some c
  | .srar c _ => some c
  | .slli c _ => some c
  | .srli c _ => some c
  | .srai c _ => some c
  | .srari c _ => some c
  | .mul c _ => some c
  | .mulh c _ => some c
  | .mulq c _ => some c
  | .div c _ => some c
  | .divu c _ => some c
  | .rem c _ => some c
  | .divq c _ => some c
  | .min c _ => some c
  | .max c _ => some c
  | .minu c _ => some c
  | .maxu c _ => some c
  | .abs c _ => some c
  | .negs c _ => some c
  | .clz c _ => some c
  | .slt c _ => some c
  | .sltu c _ => some c
  | .cmp c _ => some c
  | .flgr c _ => some c
  | .flgw c _ => some c
  | .stkr c _ => some c
  | .stkc c _ => some c
  | .addi c _ => some c
  | .cmpi c _ => some c
  | .andi c _ => some c
  | .ori c _ => some c
  | .xori c _ => some c
  | .lui c _ => some c
  | .lw c _ => some c
  | .lh c _ => some c
  | .lhu c _ => some c
  | .lb c _ => some c
  | .lbu c _ => some c
  | .sw c _ => some c
  | .sh c _ => some c
  | .sb c _ => some c
  | .jalr c _ => some c
  | .aclr c _ => some c
  | .amov c _ => some c
  | .ald c _ => some c
  | .mac c _ => some c
  | .msu c _ => some c
  | .aadd c _ => some c
  | .aext c _ => some c
  | .alo c _ => some c
  | .ahi c _ => some c
  | .j c _ => some c
  | .jal c _ => some c
  | .rwait c _ => some c
  | .evr c _ => some c
  | .ereq c _ => some c
  | .nqry c _ => some c
  | .fprb c _ => some c
  | .semt c _ => some c
  | .semr c _ => some c
  | .msg c _ => some c
  | .smpn c _ => some c
  | .smp c _ => some c
  | .bc c _ => some c
  | _ => none

end Sys2Proof
end

