-- ==== Sys2Proof/Config.lean ====
section
/-! DEFINITION. What one device or board fixes, and the values the spec leaves open. Each opaque
constant is a free value: it has no body, so nothing can be proved of what it returns. The first
argument is the counter of draws that the state holds, so that every draw is fresh. -/

namespace Sys2Proof

/-- Whether a reply or a transfer is ready by boundary n+2 (R85, R88): not fixed by the spec. (DESIGN CHOICE 61, 128
of notes/assumptions) -/
opaque Config.inTime : Nat → Bool

/-- The stall cycles of a pass (R191): not fixed by the spec. (DESIGN CHOICE 85, 128 of notes/assumptions) -/
opaque Config.stallCycles : Nat → W32

/-- Whether the prefetch of a pass has brought a tile-cache line in before a probe needs it (R191): not fixed by the
spec. The arguments are a draw and the line. (DESIGN CHOICE 85 of notes/assumptions) -/
opaque Config.prefetched : Nat → Nat → Bool

/-- The built-in default calibration used when the gauge store fails its check (R66). (DESIGN CHOICE 22 of
notes/assumptions) -/
opaque Config.defaultGauge : Nat → Byte

/-- The tap of a delay line for a sub-tick, as seeded from the line's tap step (R59). (DESIGN CHOICE 23 of
notes/assumptions) -/
opaque Config.seedTap : Nat → Nat → Byte

/-- What the gauge store holds after a programming that failed (R415): not stated. The arguments are the draw
and the byte's offset. (DEDUCED 20; DESIGN CHOICE 21 of notes/assumptions) -/
opaque Config.brokenGauge : Nat → Nat → Byte

/-- The heading change, in 2^-48 turn, of a machine whose pose has speed 0 while PLE_PRED.VMIN is 0, for a
yaw rate and an arc length: the curvature ω / v0 has no stated value there (R170). (DESIGN CHOICE 84 of
notes/assumptions) -/
opaque Config.headingAtRest : Int → Int → Int

/-- The turn factor of a node while the machine stands and PLE_PRED.VMIN is 0: a quotient by 0 (R186). (DESIGN
CHOICE 84 of notes/assumptions) -/
opaque Config.turnAtRest : Nat → BitVec 16

/-- A byte of a tile or a directory as the device meets it in a layer that an outbound transfer has overwritten: every
later result is undefined until a commit redefines the layer (R234). The arguments are the instant and the DRAM
offset. (DEDUCED 43 of notes/assumptions) -/
opaque Config.spoiled : Nat → Nat → Byte

/-- What an overwriting of bytes of a skein slot changes in the skein that the slot holds, as words written at skein
addresses: the spec gives a slot's place in DRAM, and no layout of its bytes (R128, R400). Each entry gives NB_WIN.PAGE,
SKN_PPAGE.CORE and SKN_PPAGE.PAGE, the address and the word. (DEDUCED 32 of notes/assumptions) -/
opaque Config.slotWrites : Nat → List (Nat × Nat × Nat × Nat × Nat)

/-- A value that the spec does not state for a corner of a computation, one per draw. (DESIGN CHOICE 10, 67 of
notes/assumptions) -/
opaque Config.freeWord : Nat → W32

end Sys2Proof
end

