-- ==== Sys2Proof/Machine/Tab.lean ====
section
/-! DEFINITION. Sparse tables: lists of key and value pairs with strictly rising keys, in which no
entry equals what an unlisted key reads as. Registers, memories, nodes, queue entries, channels and
slices are held in them, so that equal contents are equal data. -/

namespace Sys2Proof.Machine

/-- A sparse table from natural numbers. -/
abbrev Tab (α : Type) := List (Nat × α)

/-- The value at a key; an unlisted key reads as `d`. -/
def Tab.get {α : Type} (d : α) : Tab α → Nat → α
  | [], _ => d
  | (k, v) :: t, x => if x = k then v else Tab.get d t x

/-- The table without key `x`. -/
def Tab.without {α : Type} (x : Nat) (t : Tab α) : Tab α := t.filter (fun p => decide (p.1 ≠ x))

/-- Sets the value at a key; an entry equal to `d` is not listed. The key is taken out of what follows it,
so that the new value is what the key reads as in any table, canonical or not. -/
def Tab.put {α : Type} [DecidableEq α] (d : α) : Tab α → Nat → α → Tab α
  | [], x, v => if v = d then [] else [(x, v)]
  | (k, w) :: t, x, v =>
    if x < k then
      (if v = d then Tab.without x ((k, w) :: t) else (x, v) :: Tab.without x ((k, w) :: t))
    else if x = k then (if v = d then Tab.without x t else (x, v) :: Tab.without x t)
    else (k, w) :: Tab.put d t x v

/-- The canonical form: keys strictly rising and above `lo`, and no entry equal to `d`. -/
def Tab.wfFrom {α : Type} [DecidableEq α] (d : α) : Nat → Tab α → Bool
  | _, [] => true
  | lo, (k, v) :: t => decide (lo ≤ k) && decide (v ≠ d) && Tab.wfFrom d (k + 1) t

/-- The canonical form of a table whose unlisted keys read as `d`. -/
def Tab.wf {α : Type} [DecidableEq α] (d : α) (t : Tab α) : Bool := Tab.wfFrom d 0 t

/-- The keys in a half-open range, with their values. -/
def Tab.range {α : Type} (t : Tab α) (lo hi : Nat) : Tab α :=
  t.filter (fun p => decide (lo ≤ p.1) && decide (p.1 < hi))

/-- The table without the keys of a half-open range. -/
def Tab.clearRange {α : Type} (t : Tab α) (lo hi : Nat) : Tab α :=
  t.filter (fun p => !(decide (lo ≤ p.1) && decide (p.1 < hi)))

/-- The keys whose values satisfy `q`, in rising order. -/
def Tab.keysWhere {α : Type} (q : α → Bool) (t : Tab α) : List Nat :=
  (t.filter (fun p => q p.2)).map Prod.fst

end Sys2Proof.Machine
end

