-- ==== Sys2Proof/Machine/Fields.lean ====
section
/-! DEFINITION. Register fields: their descriptors and how a field is read from and written to a
table of field values. Fields are keyed by the bit address of their lowest bit. -/

namespace Sys2Proof.Machine

/-- The access codes of R11. -/
inductive Acc where
  | srw
  | lrw
  | lro
  | lw1c
  | lwo
  deriving DecidableEq, Repr

/-- A register field, or an array of them with up to two indices. Strides are in bits. -/
structure Fld where
  base : Nat
  n1 : Nat
  s1 : Nat
  n2 : Nat
  s2 : Nat
  width : Nat
  acc : Acc
  g1 : Bool
  reset : Nat
  snap : Bool
  deriving DecidableEq, Repr

/-- The key of element (i, j) of a field. -/
def Fld.key (f : Fld) (i j : Nat) : Nat := f.base + i * f.s1 + j * f.s2

/-- The bit address of DSP_CFG[0].LIMIT, whose reset value depends on the index (R357). -/
def dspLimitBase : Nat := 0x05000800 * 8 + 20

/-- The bit address of DSP_CFG[0].TGTONLY (R357). -/
def dspTgtBase : Nat := 0x05000800 * 8 + 18

/-- The reset value of element (i, j). -/
def Fld.resetAt (f : Fld) (i : Nat) : Nat :=
  if f.base = dspLimitBase then (if i < 4 then 200 else 0)
  else if f.base = dspTgtBase then (if i = 4 then 1 else 0)
  else f.reset

/-- Reads element (i, j) of a field from a table of field values. -/
def Fld.get (f : Fld) (t : Tab W32) (i j : Nat) : W32 :=
  Tab.get (BitVec.ofNat 32 (f.resetAt i)) t (f.key i j)

/-- Writes element (i, j) of a field, kept to the field's width. -/
def Fld.put (f : Fld) (t : Tab W32) (i j : Nat) (v : Nat) : Tab W32 :=
  Tab.put (BitVec.ofNat 32 (f.resetAt i)) t (f.key i j) (BitVec.ofNat 32 (v % 2 ^ f.width))

/-- The element whose lowest bit is bit address `k`, if the field has one there. -/
def Fld.elemAt (f : Fld) (k : Nat) : Option (Nat × Nat) :=
  if k < f.base then none
  else
    let r := k - f.base
    let i := if f.s1 = 0 then 0 else r / f.s1
    let r1 := r - i * f.s1
    let j := if f.s2 = 0 then 0 else r1 / f.s2
    if r1 = j * f.s2 ∧ i < f.n1 ∧ j < f.n2 then some (i, j) else none

/-- The bit positions at which elements of the field can start within a word. -/
def Fld.positions (f : Fld) : List Nat :=
  if (f.s1 ≠ 0 ∧ f.s1 < 32) ∨ (f.s2 ≠ 0 ∧ f.s2 < 32) then List.range 32 else [f.base % 32]

/-- The elements of a field that lie in the word at a host address. -/
def Fld.inWord (f : Fld) (a : Nat) : List (Nat × Nat × Nat) :=
  f.positions.filterMap (fun p => (f.elemAt (a / 4 * 32 + p)).map (fun e => (p, e.1, e.2)))

end Sys2Proof.Machine
end

