-- ==== Sys2Proof/Machine/Regs.lean ====
section
/-! DEFINITION. The register fields of the TVD86, one descriptor for each row of the register
tables of the chapters: where the field lies, its array strides, width, access code, whether it is
guarded (G1), its reset value and whether it is snapshot-visible. -/

namespace Sys2Proof.Machine

/-- SYS_ID.PART, bits 31:16 of `0x00000000` (00). -/
def Reg.SYS_ID_PART : Fld := ⟨16, 1, 0, 1, 0, 16, .lro, false, 3462, false⟩
/-- SYS_ID.SCALE, bits 15:12 of `0x00000000` (00). -/
def Reg.SYS_ID_SCALE : Fld := ⟨12, 1, 0, 1, 0, 4, .lro, false, 0, false⟩
/-- SYS_ID.SUFFIX, bits 11:8 of `0x00000000` (00). -/
def Reg.SYS_ID_SUFFIX : Fld := ⟨8, 1, 0, 1, 0, 4, .lro, false, 0, false⟩
/-- SYS_ID.STEP, bits 7:0 of `0x00000000` (00). -/
def Reg.SYS_ID_STEP : Fld := ⟨0, 1, 0, 1, 0, 8, .lro, false, 0, false⟩
/-- SYS_FUSE.DRAM_LOG2, bits 23:20 of `0x00000004` (00). -/
def Reg.SYS_FUSE_DRAM_LOG2 : Fld := ⟨52, 1, 0, 1, 0, 4, .lro, false, 0, false⟩
/-- SYS_FUSE.CG_N, bits 19:14 of `0x00000004` (00). -/
def Reg.SYS_FUSE_CG_N : Fld := ⟨46, 1, 0, 1, 0, 6, .lro, false, 0, false⟩
/-- SYS_FUSE.GNSS_PORTS, bits 13:10 of `0x00000004` (00). -/
def Reg.SYS_FUSE_GNSS_PORTS : Fld := ⟨42, 1, 0, 1, 0, 4, .lro, false, 0, false⟩
/-- SYS_FUSE.DX_N, bits 9:6 of `0x00000004` (00). -/
def Reg.SYS_FUSE_DX_N : Fld := ⟨38, 1, 0, 1, 0, 4, .lro, false, 0, false⟩
/-- SYS_FUSE.HB_N, bits 5:2 of `0x00000004` (00). -/
def Reg.SYS_FUSE_HB_N : Fld := ⟨34, 1, 0, 1, 0, 4, .lro, false, 0, false⟩
/-- SYS_FUSE.FGE_EN, bits 1:1 of `0x00000004` (00). -/
def Reg.SYS_FUSE_FGE_EN : Fld := ⟨33, 1, 0, 1, 0, 1, .lro, false, 0, false⟩
/-- SYS_FUSE.GNB_EN, bits 0:0 of `0x00000004` (00). -/
def Reg.SYS_FUSE_GNB_EN : Fld := ⟨32, 1, 0, 1, 0, 1, .lro, false, 0, false⟩
/-- SYS_MODE.LINGER, bits 22:15 of `0x00000010` (R67). -/
def Reg.SYS_MODE_LINGER : Fld := ⟨143, 1, 0, 1, 0, 8, .srw, false, 0, false⟩
/-- SYS_MODE.ROW_K, bits 14:8 of `0x00000010` (R44). -/
def Reg.SYS_MODE_ROW_K : Fld := ⟨136, 1, 0, 1, 0, 7, .srw, false, 4, false⟩
/-- SYS_MODE.RESUME, bits 7:4 of `0x00000010` (02). -/
def Reg.SYS_MODE_RESUME : Fld := ⟨132, 1, 0, 1, 0, 4, .srw, false, 0, false⟩
/-- SYS_MODE.WORK, bits 3:0 of `0x00000010` (02). -/
def Reg.SYS_MODE_WORK : Fld := ⟨128, 1, 0, 1, 0, 4, .srw, false, 0, false⟩
/-- SYS_MODE_CTL.PARK, bits 1:1 of `0x00000014` (R67). -/
def Reg.SYS_MODE_CTL_PARK : Fld := ⟨161, 1, 0, 1, 0, 1, .lwo, false, 0, false⟩
/-- SYS_MODE_CTL.RECAST, bits 0:0 of `0x00000014` (R66). -/
def Reg.SYS_MODE_CTL_RECAST : Fld := ⟨160, 1, 0, 1, 0, 1, .lwo, false, 0, false⟩
/-- SYS_PWRSTAT.BANK_READY, bits 23:16 of `0x00000018` (02). -/
def Reg.SYS_PWRSTAT_BANK_READY : Fld := ⟨208, 1, 0, 1, 0, 8, .lro, false, 0, false⟩
/-- SYS_PWRSTAT.LINGER, bits 6:6 of `0x00000018` (R67). -/
def Reg.SYS_PWRSTAT_LINGER : Fld := ⟨198, 1, 0, 1, 0, 1, .lro, false, 0, false⟩
/-- SYS_PWRSTAT.CAST_DONE, bits 5:5 of `0x00000018` (02). -/
def Reg.SYS_PWRSTAT_CAST_DONE : Fld := ⟨197, 1, 0, 1, 0, 1, .lro, false, 0, false⟩
/-- SYS_PWRSTAT.BINDOFF, bits 4:4 of `0x00000018` (02). -/
def Reg.SYS_PWRSTAT_BINDOFF : Fld := ⟨196, 1, 0, 1, 0, 1, .lro, false, 0, false⟩
/-- SYS_PWRSTAT.CUR, bits 3:0 of `0x00000018` (02). -/
def Reg.SYS_PWRSTAT_CUR : Fld := ⟨192, 1, 0, 1, 0, 4, .lro, false, 15, false⟩
/-- SYS_CLKSTAT.AON_XTAL_OK, bits 5:5 of `0x0000001C` (02). -/
def Reg.SYS_CLKSTAT_AON_XTAL_OK : Fld := ⟨229, 1, 0, 1, 0, 1, .lro, false, 0, false⟩
/-- SYS_CLKSTAT.DL_CAL_DONE, bits 4:4 of `0x0000001C` (02). -/
def Reg.SYS_CLKSTAT_DL_CAL_DONE : Fld := ⟨228, 1, 0, 1, 0, 1, .lro, false, 0, false⟩
/-- SYS_CLKSTAT.DCLK_LOCK, bits 3:3 of `0x0000001C` (02). -/
def Reg.SYS_CLKSTAT_DCLK_LOCK : Fld := ⟨227, 1, 0, 1, 0, 1, .lro, false, 0, false⟩
/-- SYS_CLKSTAT.FCLK_LOCK, bits 2:2 of `0x0000001C` (02). -/
def Reg.SYS_CLKSTAT_FCLK_LOCK : Fld := ⟨226, 1, 0, 1, 0, 1, .lro, false, 0, false⟩
/-- SYS_CLKSTAT.TCLK_LOCK, bits 1:1 of `0x0000001C` (02). -/
def Reg.SYS_CLKSTAT_TCLK_LOCK : Fld := ⟨225, 1, 0, 1, 0, 1, .lro, false, 0, false⟩
/-- SYS_CLKSTAT.REF_OK, bits 0:0 of `0x0000001C` (R48). -/
def Reg.SYS_CLKSTAT_REF_OK : Fld := ⟨224, 1, 0, 1, 0, 1, .lro, false, 0, false⟩
/-- SYS_DT_LO.DT, bits 31:0 of `0x00000020` (02). -/
def Reg.SYS_DT_LO_DT : Fld := ⟨256, 1, 0, 1, 0, 32, .lro, false, 0, false⟩
/-- SYS_DT_HI.DT, bits 31:0 of `0x00000024` (02). -/
def Reg.SYS_DT_HI_DT : Fld := ⟨288, 1, 0, 1, 0, 32, .lro, false, 0, false⟩
/-- SYS_TCLK_TRIM.TRIM, bits 23:0 of `0x00000030` (R56). -/
def Reg.SYS_TCLK_TRIM_TRIM : Fld := ⟨384, 1, 0, 1, 0, 24, .lrw, false, 0, false⟩
/-- SYS_DISC_ANCHOR_LO.ANCHOR, bits 31:0 of `0x00000038` (02). -/
def Reg.SYS_DISC_ANCHOR_LO_ANCHOR : Fld := ⟨448, 1, 0, 1, 0, 32, .lrw, false, 0, false⟩
/-- SYS_DISC_ANCHOR_HI.ANCHOR, bits 31:0 of `0x0000003C` (02). -/
def Reg.SYS_DISC_ANCHOR_HI_ANCHOR : Fld := ⟨480, 1, 0, 1, 0, 32, .lrw, false, 0, false⟩
/-- SYS_DISC_GPS_LO.GPS, bits 31:0 of `0x00000040` (02). -/
def Reg.SYS_DISC_GPS_LO_GPS : Fld := ⟨512, 1, 0, 1, 0, 32, .lrw, false, 0, false⟩
/-- SYS_DISC_GPS_HI.GPS, bits 31:0 of `0x00000044` (02). -/
def Reg.SYS_DISC_GPS_HI_GPS : Fld := ⟨544, 1, 0, 1, 0, 32, .lrw, false, 0, false⟩
/-- SYS_DISC_STAT.SRC, bits 2:2 of `0x00000048` (02). -/
def Reg.SYS_DISC_STAT_SRC : Fld := ⟨578, 1, 0, 1, 0, 1, .srw, false, 1, false⟩
/-- SYS_DISC_STAT.STATE, bits 1:0 of `0x00000048` (02). -/
def Reg.SYS_DISC_STAT_STATE : Fld := ⟨576, 1, 0, 1, 0, 2, .lrw, false, 0, false⟩
/-- SYS_GATECFG.IDLE_ROWS, bits 31:16 of `0x00000050` (02). -/
def Reg.SYS_GATECFG_IDLE_ROWS : Fld := ⟨656, 1, 0, 1, 0, 16, .srw, false, 1000, false⟩
/-- SYS_GATECFG.BANK_HOLD, bits 7:0 of `0x00000050` (02). -/
def Reg.SYS_GATECFG_BANK_HOLD : Fld := ⟨640, 1, 0, 1, 0, 8, .srw, false, 0, false⟩
/-- SYS_BOOTSTAT.GAUGE_BAD, bits 8:8 of `0x00000060` (02). -/
def Reg.SYS_BOOTSTAT_GAUGE_BAD : Fld := ⟨776, 1, 0, 1, 0, 1, .lro, false, 0, false⟩
/-- SYS_BOOTSTAT.COPY, bits 7:4 of `0x00000060` (02). -/
def Reg.SYS_BOOTSTAT_COPY : Fld := ⟨772, 1, 0, 1, 0, 4, .lro, false, 0, false⟩
/-- SYS_BOOTSTAT.FAIL, bits 3:0 of `0x00000060` (02). -/
def Reg.SYS_BOOTSTAT_FAIL : Fld := ⟨768, 1, 0, 1, 0, 4, .lro, false, 0, false⟩
/-- SYS_AON_WAKEEN.BUSY, bits 31:31 of `0x00000100` (02). -/
def Reg.SYS_AON_WAKEEN_BUSY : Fld := ⟨2079, 1, 0, 1, 0, 1, .lro, false, 0, false⟩
/-- SYS_AON_WAKEEN.PI0_POL, bits 12:12 of `0x00000100` (02). -/
def Reg.SYS_AON_WAKEEN_PI0_POL : Fld := ⟨2060, 1, 0, 1, 0, 1, .lrw, false, 0, false⟩
/-- SYS_AON_WAKEEN.CAN_SEL, bits 11:8 of `0x00000100` (02). -/
def Reg.SYS_AON_WAKEEN_CAN_SEL : Fld := ⟨2056, 1, 0, 1, 0, 4, .lrw, false, 0, false⟩
/-- SYS_AON_WAKEEN.RTC, bits 4:4 of `0x00000100` (02). -/
def Reg.SYS_AON_WAKEEN_RTC : Fld := ⟨2052, 1, 0, 1, 0, 1, .lrw, false, 0, false⟩
/-- SYS_AON_WAKEEN.HOSTCS, bits 3:3 of `0x00000100` (02). -/
def Reg.SYS_AON_WAKEEN_HOSTCS : Fld := ⟨2051, 1, 0, 1, 0, 1, .lrw, false, 1, false⟩
/-- SYS_AON_WAKEEN.PI0, bits 2:2 of `0x00000100` (02). -/
def Reg.SYS_AON_WAKEEN_PI0 : Fld := ⟨2050, 1, 0, 1, 0, 1, .lrw, false, 0, false⟩
/-- SYS_AON_WAKEEN.CAN, bits 1:1 of `0x00000100` (02). -/
def Reg.SYS_AON_WAKEEN_CAN : Fld := ⟨2049, 1, 0, 1, 0, 1, .lrw, false, 0, false⟩
/-- SYS_AON_WAKEEN.PRESENCE, bits 0:0 of `0x00000100` (02). -/
def Reg.SYS_AON_WAKEEN_PRESENCE : Fld := ⟨2048, 1, 0, 1, 0, 1, .lrw, false, 1, false⟩
/-- SYS_AON_WAKESRC.COLD, bits 5:5 of `0x00000104` (02). -/
def Reg.SYS_AON_WAKESRC_COLD : Fld := ⟨2085, 1, 0, 1, 0, 1, .lw1c, false, 1, false⟩
/-- SYS_AON_WAKESRC.SRC, bits 4:0 of `0x00000104` (R68). -/
def Reg.SYS_AON_WAKESRC_SRC : Fld := ⟨2080, 1, 0, 1, 0, 5, .lw1c, false, 0, false⟩
/-- SYS_RTC_SEC.SEC, bits 31:0 of `0x00000108` (02). -/
def Reg.SYS_RTC_SEC_SEC : Fld := ⟨2112, 1, 0, 1, 0, 32, .lrw, false, 0, false⟩
/-- SYS_RTC_SUB.SUB, bits 14:0 of `0x0000010C` (02). -/
def Reg.SYS_RTC_SUB_SUB : Fld := ⟨2144, 1, 0, 1, 0, 15, .lro, false, 0, false⟩
/-- SYS_RTC_ALARM.ALARM, bits 31:0 of `0x00000110` (02). -/
def Reg.SYS_RTC_ALARM_ALARM : Fld := ⟨2176, 1, 0, 1, 0, 32, .lrw, false, 4294967295, false⟩
/-- DXC_CTL.STEP, bits 2:2 of `0x00100000` onwards (03). -/
def Reg.DXC_CTL_STEP : Fld := ⟨8388610, 8, 524288, 1, 0, 1, .lwo, false, 0, false⟩
/-- DXC_CTL.HALT, bits 1:1 of `0x00100000` onwards (03). -/
def Reg.DXC_CTL_HALT : Fld := ⟨8388609, 8, 524288, 1, 0, 1, .lrw, false, 0, false⟩
/-- DXC_CTL.BENCH, bits 0:0 of `0x00100000` onwards (R93). -/
def Reg.DXC_CTL_BENCH : Fld := ⟨8388608, 8, 524288, 1, 0, 1, .lrw, false, 0, false⟩
/-- DXC_CFG.EN, bits 0:0 of `0x00100004` onwards (03). -/
def Reg.DXC_CFG_EN : Fld := ⟨8388640, 8, 524288, 1, 0, 1, .srw, false, 0, false⟩
/-- DXC_BUDGET.BUDGET, bits 31:0 of `0x00100008` onwards (R81). -/
def Reg.DXC_BUDGET_BUDGET : Fld := ⟨8388672, 8, 524288, 1, 0, 32, .srw, false, 597600, false⟩
/-- DXC_ENTRY.ENTRY, bits 15:0 of `0x0010000C` onwards (03). -/
def Reg.DXC_ENTRY_ENTRY : Fld := ⟨8388704, 8, 524288, 1, 0, 16, .srw, false, 0, false⟩
/-- DXC_ETASK.EN, bits 31:31 of `0x00100010` onwards (03). -/
def Reg.DXC_ETASK_EN : Fld := ⟨8388767, 8, 524288, 8, 32, 1, .srw, false, 0, false⟩
/-- DXC_ETASK.EV, bits 30:24 of `0x00100010` onwards (03). -/
def Reg.DXC_ETASK_EV : Fld := ⟨8388760, 8, 524288, 8, 32, 7, .srw, false, 0, false⟩
/-- DXC_ETASK.ENTRY, bits 15:0 of `0x00100010` onwards (03). -/
def Reg.DXC_ETASK_ENTRY : Fld := ⟨8388736, 8, 524288, 8, 32, 16, .srw, false, 0, false⟩
/-- DXC_MBAREA.AREA, bits 17:6 of `0x00100030` onwards (03). -/
def Reg.DXC_MBAREA_AREA : Fld := ⟨8388998, 8, 524288, 1, 0, 12, .srw, false, 1024, false⟩
/-- DXC_STAT.FAULT, bits 31:24 of `0x00100040` onwards (03). -/
def Reg.DXC_STAT_FAULT : Fld := ⟨8389144, 8, 524288, 1, 0, 8, .lro, false, 0, true⟩
/-- DXC_STAT.HALTED, bits 7:7 of `0x00100040` onwards (03). -/
def Reg.DXC_STAT_HALTED : Fld := ⟨8389127, 8, 524288, 1, 0, 1, .lro, false, 0, true⟩
/-- DXC_STAT.RELOAD, bits 6:6 of `0x00100040` onwards (03). -/
def Reg.DXC_STAT_RELOAD : Fld := ⟨8389126, 8, 524288, 1, 0, 1, .lro, false, 0, true⟩
/-- DXC_STAT.MBO_DROP, bits 5:5 of `0x00100040` onwards (03). -/
def Reg.DXC_STAT_MBO_DROP : Fld := ⟨8389125, 8, 524288, 1, 0, 1, .lw1c, false, 0, true⟩
/-- DXC_STAT.OUTOVF, bits 4:4 of `0x00100040` onwards (03). -/
def Reg.DXC_STAT_OUTOVF : Fld := ⟨8389124, 8, 524288, 1, 0, 1, .lw1c, false, 0, true⟩
/-- DXC_STAT.LATE_SEEN, bits 3:3 of `0x00100040` onwards (03). -/
def Reg.DXC_STAT_LATE_SEEN : Fld := ⟨8389123, 8, 524288, 1, 0, 1, .lw1c, false, 0, true⟩
/-- DXC_USED.USED, bits 31:0 of `0x00100044` onwards (R82). -/
def Reg.DXC_USED_USED : Fld := ⟨8389152, 8, 524288, 1, 0, 32, .lro, false, 0, true⟩
/-- DXC_LATECNT.CNT, bits 15:0 of `0x00100048` onwards (03). -/
def Reg.DXC_LATECNT_CNT : Fld := ⟨8389184, 8, 524288, 1, 0, 16, .lro, false, 0, true⟩
/-- DXC_ROWSTAMP_LO.STAMP, bits 31:0 of `0x00100050` onwards (03). -/
def Reg.DXC_ROWSTAMP_LO_STAMP : Fld := ⟨8389248, 8, 524288, 1, 0, 32, .lro, false, 0, true⟩
/-- DXC_ROWSTAMP_HI.STAMP, bits 31:0 of `0x00100054` onwards (03). -/
def Reg.DXC_ROWSTAMP_HI_STAMP : Fld := ⟨8389280, 8, 524288, 1, 0, 32, .lro, false, 0, true⟩
/-- DXC_ROWNUM.ROW, bits 31:0 of `0x00100058` onwards (03). -/
def Reg.DXC_ROWNUM_ROW : Fld := ⟨8389312, 8, 524288, 1, 0, 32, .lro, false, 0, true⟩
/-- DXC_XFER_STAT.ST, bits 31:0 of `0x0010005C` onwards (03). -/
def Reg.DXC_XFER_STAT_ST : Fld := ⟨8389344, 8, 524288, 1, 0, 32, .lro, false, 0, true⟩
/-- DXC_MBI.WORD, bits 31:0 of `0x00100080` onwards (03). -/
def Reg.DXC_MBI_WORD : Fld := ⟨8389632, 8, 524288, 16, 32, 32, .lrw, false, 0, false⟩
/-- DXC_MBI_CTL.QUEUED, bits 7:4 of `0x001000C0` onwards (03). -/
def Reg.DXC_MBI_CTL_QUEUED : Fld := ⟨8390148, 8, 524288, 1, 0, 4, .lro, false, 0, false⟩
/-- DXC_MBI_CTL.REJ, bits 1:1 of `0x001000C0` onwards (03). -/
def Reg.DXC_MBI_CTL_REJ : Fld := ⟨8390145, 8, 524288, 1, 0, 1, .lw1c, false, 0, false⟩
/-- DXC_MBI_CTL.POST, bits 0:0 of `0x001000C0` onwards (03). -/
def Reg.DXC_MBI_CTL_POST : Fld := ⟨8390144, 8, 524288, 1, 0, 1, .lwo, false, 0, false⟩
/-- DXC_MBO.WORD, bits 31:0 of `0x00100100` onwards (R90). -/
def Reg.DXC_MBO_WORD : Fld := ⟨8390656, 8, 524288, 16, 32, 32, .lro, false, 0, false⟩
/-- DXC_MBO_CTL.SEQ, bits 15:8 of `0x00100140` onwards (03). -/
def Reg.DXC_MBO_CTL_SEQ : Fld := ⟨8391176, 8, 524288, 1, 0, 8, .lro, false, 0, false⟩
/-- DXC_MBO_CTL.VALID, bits 0:0 of `0x00100140` onwards (R90). -/
def Reg.DXC_MBO_CTL_VALID : Fld := ⟨8391168, 8, 524288, 1, 0, 1, .lw1c, false, 0, false⟩
/-- DXC_BRK.EN, bits 31:31 of `0x00100180` onwards (03). -/
def Reg.DXC_BRK_EN : Fld := ⟨8391711, 8, 524288, 4, 32, 1, .lrw, false, 0, false⟩
/-- DXC_BRK.ADDR, bits 15:0 of `0x00100180` onwards (03). -/
def Reg.DXC_BRK_ADDR : Fld := ⟨8391680, 8, 524288, 4, 32, 16, .lrw, false, 0, false⟩
/-- DXC_DBG_SEL.SEL, bits 5:0 of `0x001001C0` onwards (03). -/
def Reg.DXC_DBG_SEL_SEL : Fld := ⟨8392192, 8, 524288, 1, 0, 6, .lrw, false, 0, false⟩
/-- DXC_DBG_DATA.DATA, bits 31:0 of `0x001001C4` onwards (R95). -/
def Reg.DXC_DBG_DATA_DATA : Fld := ⟨8392224, 8, 524288, 1, 0, 32, .lrw, false, 0, false⟩
/-- DXC_RING_BASE.BASE, bits 31:0 of `0x00180000` onwards (03). -/
def Reg.DXC_RING_BASE_BASE : Fld := ⟨12582912, 3, 256, 1, 0, 32, .srw, false, 0, false⟩
/-- DXC_RING_CFG.LOG2N, bits 12:8 of `0x00180004` onwards (03). -/
def Reg.DXC_RING_CFG_LOG2N : Fld := ⟨12582952, 3, 256, 1, 0, 5, .srw, false, 16, false⟩
/-- DXC_RING_CFG.EN, bits 0:0 of `0x00180004` onwards (03). -/
def Reg.DXC_RING_CFG_EN : Fld := ⟨12582944, 3, 256, 1, 0, 1, .srw, false, 0, false⟩
/-- DXC_RING_WR.WR, bits 31:0 of `0x00180008` onwards (03). -/
def Reg.DXC_RING_WR_WR : Fld := ⟨12582976, 3, 256, 1, 0, 32, .lrw, false, 0, false⟩
/-- DXC_RING_RD.RD, bits 31:0 of `0x0018000C` onwards (R97). -/
def Reg.DXC_RING_RD_RD : Fld := ⟨12583008, 3, 256, 1, 0, 32, .lrw, false, 0, false⟩
/-- DXC_RING_STAT.OVF, bits 0:0 of `0x00180010` onwards (03). -/
def Reg.DXC_RING_STAT_OVF : Fld := ⟨12583040, 3, 256, 1, 0, 1, .lw1c, false, 0, false⟩
/-- DXC_RPL_CTL.FINAL, bits 2:2 of `0x00180060` (03). -/
def Reg.DXC_RPL_CTL_FINAL : Fld := ⟨12583682, 1, 0, 1, 0, 1, .lrw, false, 0, false⟩
/-- DXC_RPL_CTL.ARM, bits 1:1 of `0x00180060` (03). -/
def Reg.DXC_RPL_CTL_ARM : Fld := ⟨12583681, 1, 0, 1, 0, 1, .lrw, false, 0, false⟩
/-- DXC_RPL_CTL.LOADED, bits 3:3 of `0x00180060` (R64). -/
def Reg.DXC_RPL_CTL_LOADED : Fld := ⟨12583683, 1, 0, 1, 0, 1, .lwo, false, 0, false⟩
/-- DXC_RPL_CTL.GO, bits 0:0 of `0x00180060` (R101). -/
def Reg.DXC_RPL_CTL_GO : Fld := ⟨12583680, 1, 0, 1, 0, 1, .lwo, false, 0, false⟩
/-- DXC_RPL_STAT.STATE, bits 2:0 of `0x00180064` (03). -/
def Reg.DXC_RPL_STAT_STATE : Fld := ⟨12583712, 1, 0, 1, 0, 3, .lro, false, 0, false⟩
/-- DXC_RPL_FED.FED, bits 31:0 of `0x00180068` (03). -/
def Reg.DXC_RPL_FED_FED : Fld := ⟨12583744, 1, 0, 1, 0, 32, .lrw, false, 0, false⟩
/-- DXC_RPL_T0_LO.T0, bits 31:0 of `0x00180070` (03). -/
def Reg.DXC_RPL_T0_LO_T0 : Fld := ⟨12583808, 1, 0, 1, 0, 32, .lrw, false, 0, false⟩
/-- DXC_RPL_T0_HI.T0, bits 31:0 of `0x00180074` (03). -/
def Reg.DXC_RPL_T0_HI_T0 : Fld := ⟨12583840, 1, 0, 1, 0, 32, .lrw, false, 0, false⟩
/-- DXC_ROW0_LO.STAMP, bits 31:0 of `0x00180078` (03). -/
def Reg.DXC_ROW0_LO_STAMP : Fld := ⟨12583872, 1, 0, 1, 0, 32, .lro, false, 0, false⟩
/-- DXC_ROW0_HI.STAMP, bits 31:0 of `0x0018007C` (03). -/
def Reg.DXC_ROW0_HI_STAMP : Fld := ⟨12583904, 1, 0, 1, 0, 32, .lro, false, 0, false⟩
/-- NB_CFG.COUNT, bits 16:0 of `0x02000800` (05). -/
def Reg.NB_CFG_COUNT : Fld := ⟨268451840, 1, 0, 1, 0, 17, .srw, false, 0, false⟩
/-- NB_WIN.VIEW, bits 8:8 of `0x02000804` (05). -/
def Reg.NB_WIN_VIEW : Fld := ⟨268451880, 1, 0, 1, 0, 1, .lrw, false, 0, false⟩
/-- NB_WIN.PAGE, bits 2:0 of `0x02000804` (05). -/
def Reg.NB_WIN_PAGE : Fld := ⟨268451872, 1, 0, 1, 0, 3, .lrw, false, 0, false⟩
/-- NB_STAT.DEFINED, bits 16:0 of `0x02000808` (05). -/
def Reg.NB_STAT_DEFINED : Fld := ⟨268451904, 1, 0, 1, 0, 17, .lro, false, 0, false⟩
/-- KW_CFG.SA, bits 7:0 of `0x02000810` (05). -/
def Reg.KW_CFG_SA : Fld := ⟨268451968, 1, 0, 1, 0, 8, .srw, false, 128, false⟩
/-- KW_UDP.PORT, bits 15:0 of `0x02000814` (05). -/
def Reg.KW_UDP_PORT : Fld := ⟨268452000, 1, 0, 1, 0, 16, .srw, false, 50871, false⟩
/-- KW_SYNC.PERIOD, bits 15:0 of `0x02000820` onwards (05). -/
def Reg.KW_SYNC_PERIOD : Fld := ⟨268452096, 6, 32, 1, 0, 16, .srw, false, 0, false⟩
/-- PLE_CFG.UNK_EXCL, bits 16:16 of `0x02000000` (R177). -/
def Reg.PLE_CFG_UNK_EXCL : Fld := ⟨268435472, 1, 0, 1, 0, 1, .srw, false, 0, false⟩
/-- PLE_CFG.MAXAGE, bits 15:8 of `0x02000000` (06). -/
def Reg.PLE_CFG_MAXAGE : Fld := ⟨268435464, 1, 0, 1, 0, 8, .srw, false, 20, false⟩
/-- PLE_CFG.EN, bits 0:0 of `0x02000000` (R44). -/
def Reg.PLE_CFG_EN : Fld := ⟨268435456, 1, 0, 1, 0, 1, .srw, false, 0, false⟩
/-- PLE_PRED.AMAX, bits 31:16 of `0x02000004` (06). -/
def Reg.PLE_PRED_AMAX : Fld := ⟨268435504, 1, 0, 1, 0, 16, .srw, false, 1280, false⟩
/-- PLE_PRED.VMIN, bits 15:0 of `0x02000004` (06). -/
def Reg.PLE_PRED_VMIN : Fld := ⟨268435488, 1, 0, 1, 0, 16, .srw, false, 6554, false⟩
/-- PLE_TURN.KMAX, bits 31:16 of `0x02000008` (06). -/
def Reg.PLE_TURN_KMAX : Fld := ⟨268435536, 1, 0, 1, 0, 16, .srw, false, 8192, false⟩
/-- PLE_TURN.KMIN, bits 15:0 of `0x02000008` (06). -/
def Reg.PLE_TURN_KMIN : Fld := ⟨268435520, 1, 0, 1, 0, 16, .srw, false, 0, false⟩
/-- PLE_TGT.PAD, bits 15:0 of `0x0200000C` (06). -/
def Reg.PLE_TGT_PAD : Fld := ⟨268435552, 1, 0, 1, 0, 16, .srw, false, 20, false⟩
/-- PLE_RX.DEADBAND, bits 15:0 of `0x02000010` (06). -/
def Reg.PLE_RX_DEADBAND : Fld := ⟨268435584, 1, 0, 1, 0, 16, .srw, false, 0, false⟩
/-- PLE_MINRUN.MINRUN, bits 15:0 of `0x02000020` onwards (R181). -/
def Reg.PLE_MINRUN_MINRUN : Fld := ⟨268435712, 5, 32, 1, 0, 16, .srw, false, 0, false⟩
/-- PLE_POSE_T_LO.T, bits 31:0 of `0x02000100` (06). -/
def Reg.PLE_POSE_T_LO_T : Fld := ⟨268437504, 1, 0, 1, 0, 32, .lrw, false, 0, true⟩
/-- PLE_POSE_T_HI.T, bits 31:0 of `0x02000104` (06). -/
def Reg.PLE_POSE_T_HI_T : Fld := ⟨268437536, 1, 0, 1, 0, 32, .lrw, false, 0, true⟩
/-- PLE_POSE_E.E, bits 31:0 of `0x02000108` (06). -/
def Reg.PLE_POSE_E_E : Fld := ⟨268437568, 1, 0, 1, 0, 32, .lrw, false, 0, true⟩
/-- PLE_POSE_N.N, bits 31:0 of `0x0200010C` (06). -/
def Reg.PLE_POSE_N_N : Fld := ⟨268437600, 1, 0, 1, 0, 32, .lrw, false, 0, true⟩
/-- PLE_POSE_HDG.HDG, bits 31:0 of `0x02000110` (06). -/
def Reg.PLE_POSE_HDG_HDG : Fld := ⟨268437632, 1, 0, 1, 0, 32, .lrw, false, 0, true⟩
/-- PLE_POSE_SPD.SPD, bits 31:0 of `0x02000114` (06). -/
def Reg.PLE_POSE_SPD_SPD : Fld := ⟨268437664, 1, 0, 1, 0, 32, .lrw, false, 0, true⟩
/-- PLE_POSE_ACC.ACC, bits 31:0 of `0x02000118` (06). -/
def Reg.PLE_POSE_ACC_ACC : Fld := ⟨268437696, 1, 0, 1, 0, 32, .lrw, false, 0, true⟩
/-- PLE_POSE_YR.YR, bits 31:0 of `0x0200011C` (06). -/
def Reg.PLE_POSE_YR_YR : Fld := ⟨268437728, 1, 0, 1, 0, 32, .lrw, false, 0, true⟩
/-- PLE_POSE_CTL.STALE, bits 3:3 of `0x02000120` (06). -/
def Reg.PLE_POSE_CTL_STALE : Fld := ⟨268437763, 1, 0, 1, 0, 1, .lro, false, 0, true⟩
/-- PLE_POSE_CTL.VALID, bits 2:2 of `0x02000120` (06). -/
def Reg.PLE_POSE_CTL_VALID : Fld := ⟨268437762, 1, 0, 1, 0, 1, .lro, false, 0, true⟩
/-- PLE_POSE_CTL.REJ, bits 1:1 of `0x02000120` (R169). -/
def Reg.PLE_POSE_CTL_REJ : Fld := ⟨268437761, 1, 0, 1, 0, 1, .lw1c, false, 0, true⟩
/-- PLE_POSE_CTL.APPLY, bits 0:0 of `0x02000120` (R168). -/
def Reg.PLE_POSE_CTL_APPLY : Fld := ⟨268437760, 1, 0, 1, 0, 1, .lwo, false, 0, true⟩
/-- PLE_STAT.CARRY, bits 5:5 of `0x02000200` (06). -/
def Reg.PLE_STAT_CARRY : Fld := ⟨268439557, 1, 0, 1, 0, 1, .lro, false, 0, true⟩
/-- PLE_STAT.EDGE_CAP, bits 4:4 of `0x02000200` (R184). -/
def Reg.PLE_STAT_EDGE_CAP : Fld := ⟨268439556, 1, 0, 1, 0, 1, .lw1c, false, 0, true⟩
/-- PLE_STAT.TGT_OVF, bits 3:3 of `0x02000200` (06). -/
def Reg.PLE_STAT_TGT_OVF : Fld := ⟨268439555, 1, 0, 1, 0, 1, .lw1c, false, 0, true⟩
/-- PLE_STAT.TRUNC, bits 2:2 of `0x02000200` (R175). -/
def Reg.PLE_STAT_TRUNC : Fld := ⟨268439554, 1, 0, 1, 0, 1, .lw1c, false, 0, true⟩
/-- PLE_STAT.LATE, bits 1:1 of `0x02000200` (06). -/
def Reg.PLE_STAT_LATE : Fld := ⟨268439553, 1, 0, 1, 0, 1, .lw1c, false, 0, true⟩
/-- PLE_STAT.BUSY, bits 0:0 of `0x02000200` (06). -/
def Reg.PLE_STAT_BUSY : Fld := ⟨268439552, 1, 0, 1, 0, 1, .lro, false, 0, true⟩
/-- PLE_WAVES.CEIL, bits 31:16 of `0x02000204` (06). -/
def Reg.PLE_WAVES_CEIL : Fld := ⟨268439600, 1, 0, 1, 0, 16, .lro, false, 2250, true⟩
/-- PLE_WAVES.LAST, bits 15:0 of `0x02000204` (06). -/
def Reg.PLE_WAVES_LAST : Fld := ⟨268439584, 1, 0, 1, 0, 16, .lro, false, 0, true⟩
/-- PLE_STALL.CYC, bits 31:0 of `0x02000208` (06). -/
def Reg.PLE_STALL_CYC : Fld := ⟨268439616, 1, 0, 1, 0, 32, .lro, false, 0, true⟩
/-- PLE_NEXT.VALID, bits 31:31 of `0x0200020C` (06). -/
def Reg.PLE_NEXT_VALID : Fld := ⟨268439679, 1, 0, 1, 0, 1, .lro, false, 0, true⟩
/-- PLE_NEXT.NODE, bits 16:0 of `0x0200020C` (06). -/
def Reg.PLE_NEXT_NODE : Fld := ⟨268439648, 1, 0, 1, 0, 17, .lro, false, 0, true⟩
/-- PLE_LATECNT.CNT, bits 15:0 of `0x02000210` (06). -/
def Reg.PLE_LATECNT_CNT : Fld := ⟨268439680, 1, 0, 1, 0, 16, .lro, false, 0, true⟩
/-- PLE_EVALS.CNT, bits 17:0 of `0x02000214` (06). -/
def Reg.PLE_EVALS_CNT : Fld := ⟨268439712, 1, 0, 1, 0, 18, .lro, false, 0, true⟩
/-- PLE_QCFG.RESERVE, bits 15:0 of `0x02000300` (R216). -/
def Reg.PLE_QCFG_RESERVE : Fld := ⟨268441600, 1, 0, 1, 0, 16, .srw, false, 1024, false⟩
/-- PLE_STOP.TURN_CUT, bits 28:28 of `0x02000304` (R208). -/
def Reg.PLE_STOP_TURN_CUT : Fld := ⟨268441660, 1, 0, 1, 0, 1, .srw, false, 1, false⟩
/-- PLE_STOP.PRED_CUT, bits 27:27 of `0x02000304` (R208). -/
def Reg.PLE_STOP_PRED_CUT : Fld := ⟨268441659, 1, 0, 1, 0, 1, .srw, false, 1, false⟩
/-- PLE_STOP.REV, bits 26:25 of `0x02000304` (07). -/
def Reg.PLE_STOP_REV : Fld := ⟨268441657, 1, 0, 1, 0, 2, .srw, false, 0, false⟩
/-- PLE_STOP.STOP_CUT, bits 24:24 of `0x02000304` (07). -/
def Reg.PLE_STOP_STOP_CUT : Fld := ⟨268441656, 1, 0, 1, 0, 1, .srw, false, 1, false⟩
/-- PLE_STOP.DWELL, bits 23:16 of `0x02000304` (07). -/
def Reg.PLE_STOP_DWELL : Fld := ⟨268441648, 1, 0, 1, 0, 8, .srw, false, 50, false⟩
/-- PLE_STOP.STOP_V, bits 15:0 of `0x02000304` (07). -/
def Reg.PLE_STOP_STOP_V : Fld := ⟨268441632, 1, 0, 1, 0, 16, .srw, false, 13107, false⟩
/-- PLE_MOTION.STOPS, bits 17:2 of `0x02000308` (07). -/
def Reg.PLE_MOTION_STOPS : Fld := ⟨268441666, 1, 0, 1, 0, 16, .lro, false, 0, true⟩
/-- PLE_MOTION.STATE, bits 1:0 of `0x02000308` (07). -/
def Reg.PLE_MOTION_STATE : Fld := ⟨268441664, 1, 0, 1, 0, 2, .lro, false, 2, true⟩
/-- PLE_TAIL.OFF_TAIL, bits 31:16 of `0x02000320` onwards (07). -/
def Reg.PLE_TAIL_OFF_TAIL : Fld := ⟨268441872, 5, 32, 1, 0, 16, .srw, false, 0, false⟩
/-- PLE_TAIL.ON_TAIL, bits 15:0 of `0x02000320` onwards (07). -/
def Reg.PLE_TAIL_ON_TAIL : Fld := ⟨268441856, 5, 32, 1, 0, 16, .srw, false, 0, false⟩
/-- PLE_TRAIL.EN, bits 16:16 of `0x02000340` (07). -/
def Reg.PLE_TRAIL_EN : Fld := ⟨268442128, 1, 0, 1, 0, 1, .srw, false, 1, false⟩
/-- PLE_TRAIL.FB_WAIT, bits 15:0 of `0x02000340` (07). -/
def Reg.PLE_TRAIL_FB_WAIT : Fld := ⟨268442112, 1, 0, 1, 0, 16, .srw, false, 200, false⟩
/-- PLE_QUSED.SPEC, bits 31:16 of `0x02000380` (07). -/
def Reg.PLE_QUSED_SPEC : Fld := ⟨268442640, 1, 0, 1, 0, 16, .lro, false, 0, true⟩
/-- PLE_QUSED.USED, bits 15:0 of `0x02000380` (07). -/
def Reg.PLE_QUSED_USED : Fld := ⟨268442624, 1, 0, 1, 0, 16, .lro, false, 0, true⟩
/-- PLE_QPEAK.PEAK, bits 15:0 of `0x02000384` (07). -/
def Reg.PLE_QPEAK_PEAK : Fld := ⟨268442656, 1, 0, 1, 0, 16, .lro, false, 0, true⟩
/-- PLE_QEVT.PREF, bits 4:4 of `0x02000388` (07). -/
def Reg.PLE_QEVT_PREF : Fld := ⟨268442692, 1, 0, 1, 0, 1, .lw1c, false, 0, true⟩
/-- PLE_QEVT.SLIP, bits 3:3 of `0x02000388` (R198). -/
def Reg.PLE_QEVT_SLIP : Fld := ⟨268442691, 1, 0, 1, 0, 1, .lw1c, false, 0, true⟩
/-- PLE_QEVT.LATE, bits 2:2 of `0x02000388` (R202). -/
def Reg.PLE_QEVT_LATE : Fld := ⟨268442690, 1, 0, 1, 0, 1, .lw1c, false, 0, true⟩
/-- PLE_QEVT.RESV, bits 1:1 of `0x02000388` (R217). -/
def Reg.PLE_QEVT_RESV : Fld := ⟨268442689, 1, 0, 1, 0, 1, .lw1c, false, 0, true⟩
/-- PLE_QEVT.FULL, bits 0:0 of `0x02000388` (R216). -/
def Reg.PLE_QEVT_FULL : Fld := ⟨268442688, 1, 0, 1, 0, 1, .lw1c, false, 0, true⟩
/-- PLE_UNDO.FROGS, bits 31:16 of `0x0200038C` (07). -/
def Reg.PLE_UNDO_FROGS : Fld := ⟨268442736, 1, 0, 1, 0, 16, .lro, false, 0, true⟩
/-- PLE_UNDO.TINKS, bits 15:0 of `0x0200038C` (07). -/
def Reg.PLE_UNDO_TINKS : Fld := ⟨268442720, 1, 0, 1, 0, 16, .lro, false, 0, true⟩
/-- PLE_LATEISS.CNT, bits 31:0 of `0x02000390` (07). -/
def Reg.PLE_LATEISS_CNT : Fld := ⟨268442752, 1, 0, 1, 0, 32, .lro, false, 0, true⟩
/-- PLE_STILLON.T, bits 31:0 of `0x02000394` (R215). -/
def Reg.PLE_STILLON_T : Fld := ⟨268442784, 1, 0, 1, 0, 32, .lro, false, 0, true⟩
/-- FAB_CFG.AUTO, bits 3:0 of `0x02000400` (R228). -/
def Reg.FAB_CFG_AUTO : Fld := ⟨268443648, 1, 0, 1, 0, 4, .srw, false, 0, false⟩
/-- FAB_ORG_LAT.LAT, bits 31:0 of `0x02000404` (08). -/
def Reg.FAB_ORG_LAT_LAT : Fld := ⟨268443680, 1, 0, 1, 0, 32, .srw, false, 0, false⟩
/-- FAB_ORG_LON.LON, bits 31:0 of `0x02000408` (08). -/
def Reg.FAB_ORG_LON_LON : Fld := ⟨268443712, 1, 0, 1, 0, 32, .srw, false, 0, false⟩
/-- FAB_ORG_HGT.HGT, bits 31:0 of `0x0200040C` (08). -/
def Reg.FAB_ORG_HGT_HGT : Fld := ⟨268443744, 1, 0, 1, 0, 32, .srw, false, 0, false⟩
/-- FAB_POOL_BASE.BASE, bits 27:0 of `0x02000410` (08). -/
def Reg.FAB_POOL_BASE_BASE : Fld := ⟨268443776, 1, 0, 1, 0, 28, .srw, false, 0, false⟩
/-- FAB_POOL_N.N, bits 19:0 of `0x02000414` (08). -/
def Reg.FAB_POOL_N_N : Fld := ⟨268443808, 1, 0, 1, 0, 20, .srw, false, 0, false⟩
/-- FAB_POOL_NEXT.NEXT, bits 19:0 of `0x02000418` (R228). -/
def Reg.FAB_POOL_NEXT_NEXT : Fld := ⟨268443840, 1, 0, 1, 0, 20, .lro, false, 0, true⟩
/-- FAB_PROD_SCALE.SCALE, bits 31:0 of `0x02000420` onwards (R226). -/
def Reg.FAB_PROD_SCALE_SCALE : Fld := ⟨268443904, 4, 32, 1, 0, 32, .srw, false, 1000000, false⟩
/-- FAB_PROD_UNIT.UNIT, bits 7:0 of `0x02000430` onwards (08). -/
def Reg.FAB_PROD_UNIT_UNIT : Fld := ⟨268444032, 4, 32, 1, 0, 8, .srw, false, 0, false⟩
/-- FAB_LCFG.EN, bits 31:31 of `0x02000440` onwards (08). -/
def Reg.FAB_LCFG_EN : Fld := ⟨268444191, 12, 128, 1, 0, 1, .srw, false, 0, false⟩
/-- FAB_LCFG.CELL, bits 27:24 of `0x02000440` onwards (08). -/
def Reg.FAB_LCFG_CELL : Fld := ⟨268444184, 12, 128, 1, 0, 4, .srw, false, 7, false⟩
/-- FAB_LCFG.PRODUCT, bits 17:16 of `0x02000440` onwards (R219). -/
def Reg.FAB_LCFG_PRODUCT : Fld := ⟨268444176, 12, 128, 1, 0, 2, .srw, false, 0, false⟩
/-- FAB_LCFG.COLS_M1, bits 15:8 of `0x02000440` onwards (08). -/
def Reg.FAB_LCFG_COLS_M1 : Fld := ⟨268444168, 12, 128, 1, 0, 8, .srw, false, 0, false⟩
/-- FAB_LCFG.ROWS_M1, bits 7:0 of `0x02000440` onwards (08). -/
def Reg.FAB_LCFG_ROWS_M1 : Fld := ⟨268444160, 12, 128, 1, 0, 8, .srw, false, 0, false⟩
/-- FAB_LORG.TX0, bits 31:16 of `0x02000444` onwards (08). -/
def Reg.FAB_LORG_TX0 : Fld := ⟨268444208, 12, 128, 1, 0, 16, .srw, false, 0, false⟩
/-- FAB_LORG.TY0, bits 15:0 of `0x02000444` onwards (08). -/
def Reg.FAB_LORG_TY0 : Fld := ⟨268444192, 12, 128, 1, 0, 16, .srw, false, 0, false⟩
/-- FAB_LDIR.LDIR, bits 27:0 of `0x02000448` onwards (08). -/
def Reg.FAB_LDIR_LDIR : Fld := ⟨268444224, 12, 128, 1, 0, 28, .srw, false, 0, false⟩
/-- FAB_SWAP_A.MODE, bits 25:24 of `0x02000500` (08). -/
def Reg.FAB_SWAP_A_MODE : Fld := ⟨268445720, 1, 0, 1, 0, 2, .lrw, false, 0, false⟩
/-- FAB_SWAP_A.ROW, bits 23:16 of `0x02000500` (08). -/
def Reg.FAB_SWAP_A_ROW : Fld := ⟨268445712, 1, 0, 1, 0, 8, .lrw, false, 0, false⟩
/-- FAB_SWAP_A.COL, bits 15:8 of `0x02000500` (08). -/
def Reg.FAB_SWAP_A_COL : Fld := ⟨268445704, 1, 0, 1, 0, 8, .lrw, false, 0, false⟩
/-- FAB_SWAP_A.LAYER, bits 3:0 of `0x02000500` (08). -/
def Reg.FAB_SWAP_A_LAYER : Fld := ⟨268445696, 1, 0, 1, 0, 4, .lrw, false, 0, false⟩
/-- FAB_SWAP_B.ENTRY, bits 31:0 of `0x02000504` (R222). -/
def Reg.FAB_SWAP_B_ENTRY : Fld := ⟨268445728, 1, 0, 1, 0, 32, .lrw, false, 0, false⟩
/-- FAB_SWAP_CTL.REJ, bits 1:1 of `0x02000508` (R230). -/
def Reg.FAB_SWAP_CTL_REJ : Fld := ⟨268445761, 1, 0, 1, 0, 1, .lw1c, false, 0, false⟩
/-- FAB_SWAP_CTL.GO, bits 0:0 of `0x02000508` (08). -/
def Reg.FAB_SWAP_CTL_GO : Fld := ⟨268445760, 1, 0, 1, 0, 1, .lwo, false, 0, false⟩
/-- FAB_SWAP_STAT.APPLIED, bits 7:0 of `0x0200050C` (08). -/
def Reg.FAB_SWAP_STAT_APPLIED : Fld := ⟨268445792, 1, 0, 1, 0, 8, .lro, false, 0, true⟩
/-- FAB_COPY_A.ROW, bits 23:16 of `0x02000510` (08). -/
def Reg.FAB_COPY_A_ROW : Fld := ⟨268445840, 1, 0, 1, 0, 8, .lrw, false, 0, false⟩
/-- FAB_COPY_A.COL, bits 15:8 of `0x02000510` (08). -/
def Reg.FAB_COPY_A_COL : Fld := ⟨268445832, 1, 0, 1, 0, 8, .lrw, false, 0, false⟩
/-- FAB_COPY_A.LAYER, bits 3:0 of `0x02000510` (08). -/
def Reg.FAB_COPY_A_LAYER : Fld := ⟨268445824, 1, 0, 1, 0, 4, .lrw, false, 0, false⟩
/-- FAB_COPY_B.DEST, bits 27:0 of `0x02000514` (08). -/
def Reg.FAB_COPY_B_DEST : Fld := ⟨268445856, 1, 0, 1, 0, 28, .lrw, false, 0, false⟩
/-- FAB_COPY_CTL.REJ, bits 1:1 of `0x02000518` (08). -/
def Reg.FAB_COPY_CTL_REJ : Fld := ⟨268445889, 1, 0, 1, 0, 1, .lw1c, false, 0, false⟩
/-- FAB_COPY_CTL.GO, bits 0:0 of `0x02000518` (R233). -/
def Reg.FAB_COPY_CTL_GO : Fld := ⟨268445888, 1, 0, 1, 0, 1, .lwo, false, 0, false⟩
/-- FAB_COPY_STAT.SEQ, bits 15:8 of `0x0200051C` (08). -/
def Reg.FAB_COPY_STAT_SEQ : Fld := ⟨268445928, 1, 0, 1, 0, 8, .lro, false, 0, false⟩
/-- FAB_COPY_STAT.RESULT, bits 1:0 of `0x0200051C` (R224). -/
def Reg.FAB_COPY_STAT_RESULT : Fld := ⟨268445920, 1, 0, 1, 0, 2, .lro, false, 0, false⟩
/-- FAB_STAT.DIR_FAULT, bits 3:3 of `0x02000520` (R224). -/
def Reg.FAB_STAT_DIR_FAULT : Fld := ⟨268445955, 1, 0, 1, 0, 1, .lw1c, false, 0, true⟩
/-- FAB_STAT.TRAIL_LATE, bits 2:2 of `0x02000520` (R237). -/
def Reg.FAB_STAT_TRAIL_LATE : Fld := ⟨268445954, 1, 0, 1, 0, 1, .lw1c, false, 0, true⟩
/-- FAB_STAT.TRAIL_DROP, bits 1:1 of `0x02000520` (R213). -/
def Reg.FAB_STAT_TRAIL_DROP : Fld := ⟨268445953, 1, 0, 1, 0, 1, .lw1c, false, 0, true⟩
/-- FAB_STAT.POOL_EMPTY, bits 0:0 of `0x02000520` (R229). -/
def Reg.FAB_STAT_POOL_EMPTY : Fld := ⟨268445952, 1, 0, 1, 0, 1, .lw1c, false, 0, true⟩
/-- FAB_CMISS.CNT, bits 31:0 of `0x02000524` (08). -/
def Reg.FAB_CMISS_CNT : Fld := ⟨268445984, 1, 0, 1, 0, 32, .lro, false, 0, true⟩
/-- ETU_LOCK.LOCK, bits 31:0 of `0x03000010` (R245). -/
def Reg.ETU_LOCK_LOCK : Fld := ⟨402653312, 1, 0, 1, 0, 32, .lrw, false, 0, false⟩
/-- ETU_TRIPSTAT.LATCHED, bits 31:16 of `0x03000020` (R258). -/
def Reg.ETU_TRIPSTAT_LATCHED : Fld := ⟨402653456, 1, 0, 1, 0, 16, .lro, false, 0, true⟩
/-- ETU_TRIPSTAT.ACTIVE, bits 15:0 of `0x03000020` (09). -/
def Reg.ETU_TRIPSTAT_ACTIVE : Fld := ⟨402653440, 1, 0, 1, 0, 16, .lro, false, 0, true⟩
/-- ETU_TRIPHIT.TRIP_CLR_REJ, bits 31:31 of `0x03000024` (R258). -/
def Reg.ETU_TRIPHIT_TRIP_CLR_REJ : Fld := ⟨402653503, 1, 0, 1, 0, 1, .lw1c, false, 0, true⟩
/-- ETU_TRIPHIT.HIT, bits 15:0 of `0x03000024` (09). -/
def Reg.ETU_TRIPHIT_HIT : Fld := ⟨402653472, 1, 0, 1, 0, 16, .lw1c, false, 0, true⟩
/-- ETU_TRIPCLR.CLR, bits 15:0 of `0x03000028` (R258). -/
def Reg.ETU_TRIPCLR_CLR : Fld := ⟨402653504, 1, 0, 1, 0, 16, .lwo, false, 0, false⟩
/-- ETU_GCUT.CUT, bits 31:0 of `0x0300002C` (09). -/
def Reg.ETU_GCUT_CUT : Fld := ⟨402653536, 1, 0, 1, 0, 32, .lro, false, 0, true⟩
/-- ETU_DLSTAT.PASSES, bits 31:16 of `0x03000040` (09). -/
def Reg.ETU_DLSTAT_PASSES : Fld := ⟨402653712, 1, 0, 1, 0, 16, .lro, false, 0, true⟩
/-- ETU_DLSTAT.DONE, bits 8:8 of `0x03000040` (09). -/
def Reg.ETU_DLSTAT_DONE : Fld := ⟨402653704, 1, 0, 1, 0, 1, .lro, false, 0, true⟩
/-- ETU_DLSTAT.WORST, bits 7:0 of `0x03000040` (09). -/
def Reg.ETU_DLSTAT_WORST : Fld := ⟨402653696, 1, 0, 1, 0, 8, .lro, false, 0, true⟩
/-- ETU_TRIPCFG.EN, bits 31:31 of `0x03000100` onwards (09). -/
def Reg.ETU_TRIPCFG_EN : Fld := ⟨402655263, 16, 64, 1, 0, 1, .srw, true, 0, false⟩
/-- ETU_TRIPCFG.MODE, bits 16:16 of `0x03000100` onwards (R257). -/
def Reg.ETU_TRIPCFG_MODE : Fld := ⟨402655248, 16, 64, 1, 0, 1, .srw, true, 0, false⟩
/-- ETU_TRIPCFG.POL, bits 15:15 of `0x03000100` onwards (09). -/
def Reg.ETU_TRIPCFG_POL : Fld := ⟨402655247, 16, 64, 1, 0, 1, .srw, true, 0, false⟩
/-- ETU_TRIPCFG.PRE, bits 10:8 of `0x03000100` onwards (09). -/
def Reg.ETU_TRIPCFG_PRE : Fld := ⟨402655240, 16, 64, 1, 0, 3, .srw, false, 0, false⟩
/-- ETU_TRIPCFG.FLT, bits 7:0 of `0x03000100` onwards (09). -/
def Reg.ETU_TRIPCFG_FLT : Fld := ⟨402655232, 16, 64, 1, 0, 8, .srw, false, 4, false⟩
/-- ETU_TRIPMAP.MAP, bits 31:0 of `0x03000104` onwards (09). -/
def Reg.ETU_TRIPMAP_MAP : Fld := ⟨402655264, 16, 64, 1, 0, 32, .srw, true, 0, false⟩
/-- ETU_GCFG.EN, bits 0:0 of `0x03001000` onwards (R241). -/
def Reg.ETU_GCFG_EN : Fld := ⟨402685952, 32, 128, 1, 0, 1, .srw, false, 0, false⟩
/-- ETU_GPHASE.PHASE, bits 31:0 of `0x03001004` onwards (09). -/
def Reg.ETU_GPHASE_PHASE : Fld := ⟨402685984, 32, 128, 1, 0, 32, .srw, false, 0, false⟩
/-- ETU_PER.PER, bits 31:0 of `0x03001008` onwards (09). -/
def Reg.ETU_PER_PER : Fld := ⟨402686016, 32, 128, 1, 0, 32, .lrw, false, 256000, false⟩
/-- ETU_GSTAT.PCOUNT, bits 31:16 of `0x0300100C` onwards (09). -/
def Reg.ETU_GSTAT_PCOUNT : Fld := ⟨402686064, 32, 128, 1, 0, 16, .lro, false, 0, true⟩
/-- ETU_GSTAT.RUN, bits 3:3 of `0x0300100C` onwards (09). -/
def Reg.ETU_GSTAT_RUN : Fld := ⟨402686051, 32, 128, 1, 0, 1, .lro, false, 0, true⟩
/-- ETU_GSTAT.PER_REJ, bits 2:2 of `0x0300100C` onwards (R246). -/
def Reg.ETU_GSTAT_PER_REJ : Fld := ⟨402686050, 32, 128, 1, 0, 1, .lw1c, false, 0, true⟩
/-- ETU_GSTAT.CUT, bits 1:1 of `0x0300100C` onwards (09). -/
def Reg.ETU_GSTAT_CUT : Fld := ⟨402686049, 32, 128, 1, 0, 1, .lro, false, 0, true⟩
/-- ETU_GSTAT.PEND, bits 0:0 of `0x0300100C` onwards (09). -/
def Reg.ETU_GSTAT_PEND : Fld := ⟨402686048, 32, 128, 1, 0, 1, .lro, false, 0, true⟩
/-- ETU_CA.CA, bits 31:0 of `0x03004000` onwards (09). -/
def Reg.ETU_CA_CA : Fld := ⟨402784256, 512, 256, 1, 0, 32, .lrw, false, 0, false⟩
/-- ETU_CB.CB, bits 31:0 of `0x03004004` onwards (09). -/
def Reg.ETU_CB_CB : Fld := ⟨402784288, 512, 256, 1, 0, 32, .lrw, false, 0, false⟩
/-- ETU_CHCFG.RGAIN, bits 31:16 of `0x03004008` onwards (R248). -/
def Reg.ETU_CHCFG_RGAIN : Fld := ⟨402784336, 512, 256, 1, 0, 16, .srw, false, 0, false⟩
/-- ETU_CHCFG.LU, bits 11:6 of `0x03004008` onwards (09). -/
def Reg.ETU_CHCFG_LU : Fld := ⟨402784326, 512, 256, 1, 0, 6, .srw, false, 0, false⟩
/-- ETU_CHCFG.FREE, bits 5:5 of `0x03004008` onwards (R247). -/
def Reg.ETU_CHCFG_FREE : Fld := ⟨402784325, 512, 256, 1, 0, 1, .srw, false, 0, false⟩
/-- ETU_CHCFG.PAIR, bits 4:4 of `0x03004008` onwards (R251). -/
def Reg.ETU_CHCFG_PAIR : Fld := ⟨402784324, 512, 256, 1, 0, 1, .srw, false, 0, false⟩
/-- ETU_CHCFG.DSRC, bits 3:2 of `0x03004008` onwards (09). -/
def Reg.ETU_CHCFG_DSRC : Fld := ⟨402784322, 512, 256, 1, 0, 2, .srw, false, 0, false⟩
/-- ETU_CHCFG.GMODE, bits 1:0 of `0x03004008` onwards (09). -/
def Reg.ETU_CHCFG_GMODE : Fld := ⟨402784320, 512, 256, 1, 0, 2, .srw, false, 1, false⟩
/-- ETU_CHDT.DT_R, bits 31:16 of `0x0300400C` onwards (09). -/
def Reg.ETU_CHDT_DT_R : Fld := ⟨402784368, 512, 256, 1, 0, 16, .srw, false, 0, false⟩
/-- ETU_CHDT.DT_F, bits 15:0 of `0x0300400C` onwards (09). -/
def Reg.ETU_CHDT_DT_F : Fld := ⟨402784352, 512, 256, 1, 0, 16, .srw, false, 0, false⟩
/-- ETU_CHMP.MINP, bits 23:0 of `0x03004010` onwards (09). -/
def Reg.ETU_CHMP_MINP : Fld := ⟨402784384, 512, 256, 1, 0, 24, .srw, false, 0, false⟩
/-- ETU_CHSTAT.RATE, bits 31:16 of `0x03004014` onwards (R249). -/
def Reg.ETU_CHSTAT_RATE : Fld := ⟨402784432, 512, 256, 1, 0, 16, .lro, false, 0, true⟩
/-- ETU_CHSTAT.DEFER, bits 3:3 of `0x03004014` onwards (R253). -/
def Reg.ETU_CHSTAT_DEFER : Fld := ⟨402784419, 512, 256, 1, 0, 1, .lw1c, false, 0, true⟩
/-- ETU_CHSTAT.SUPP, bits 2:2 of `0x03004014` onwards (R253). -/
def Reg.ETU_CHSTAT_SUPP : Fld := ⟨402784418, 512, 256, 1, 0, 1, .lw1c, false, 0, true⟩
/-- ETU_CHSTAT.OUT, bits 1:1 of `0x03004014` onwards (09). -/
def Reg.ETU_CHSTAT_OUT : Fld := ⟨402784417, 512, 256, 1, 0, 1, .lro, false, 0, true⟩
/-- ETU_CHSTAT.GATE, bits 0:0 of `0x03004014` onwards (09). -/
def Reg.ETU_CHSTAT_GATE : Fld := ⟨402784416, 512, 256, 1, 0, 1, .lro, false, 0, true⟩
/-- DSL_TRIPMAP.BANKS, bits 7:0 of `0x03100040` onwards (R288). -/
def Reg.DSL_TRIPMAP_BANKS : Fld := ⟨411042304, 16, 32, 1, 0, 8, .srw, true, 0, false⟩
/-- DSL_BCFG.HSUSE, bits 21:16 of `0x03100100` onwards (R264). -/
def Reg.DSL_BCFG_HSUSE : Fld := ⟨411043856, 8, 256, 1, 0, 6, .srw, true, 0, false⟩
/-- DSL_BCFG.PAIR, bits 10:8 of `0x03100100` onwards (R265). -/
def Reg.DSL_BCFG_PAIR : Fld := ⟨411043848, 8, 256, 1, 0, 3, .srw, true, 0, false⟩
/-- DSL_BCFG.PRI_FIT, bits 1:1 of `0x03100100` onwards (10). -/
def Reg.DSL_BCFG_PRI_FIT : Fld := ⟨411043841, 8, 256, 1, 0, 1, .srw, true, 0, false⟩
/-- DSL_BCFG.BOOST_FIT, bits 0:0 of `0x03100100` onwards (10). -/
def Reg.DSL_BCFG_BOOST_FIT : Fld := ⟨411043840, 8, 256, 1, 0, 1, .srw, true, 0, false⟩
/-- DSL_BLIM.DRN_HI, bits 15:8 of `0x03100104` onwards (10). -/
def Reg.DSL_BLIM_DRN_HI : Fld := ⟨411043880, 8, 256, 1, 0, 8, .srw, false, 24, false⟩
/-- DSL_BLIM.DRN_LO, bits 7:0 of `0x03100104` onwards (10). -/
def Reg.DSL_BLIM_DRN_LO : Fld := ⟨411043872, 8, 256, 1, 0, 8, .srw, false, 4, false⟩
/-- DSL_BSTAT.HELD, bits 21:21 of `0x03100108` onwards (10). -/
def Reg.DSL_BSTAT_HELD : Fld := ⟨411043925, 8, 256, 1, 0, 1, .lro, false, 0, true⟩
/-- DSL_BSTAT.PRI_ON, bits 20:20 of `0x03100108` onwards (10). -/
def Reg.DSL_BSTAT_PRI_ON : Fld := ⟨411043924, 8, 256, 1, 0, 1, .lro, false, 0, true⟩
/-- DSL_BSTAT.BOOST_ON, bits 19:19 of `0x03100108` onwards (10). -/
def Reg.DSL_BSTAT_BOOST_ON : Fld := ⟨411043923, 8, 256, 1, 0, 1, .lro, false, 0, true⟩
/-- DSL_BSTAT.KWIN, bits 18:16 of `0x03100108` onwards (10). -/
def Reg.DSL_BSTAT_KWIN : Fld := ⟨411043920, 8, 256, 1, 0, 3, .lro, false, 0, true⟩
/-- DSL_BSTAT.WAITING, bits 14:12 of `0x03100108` onwards (10). -/
def Reg.DSL_BSTAT_WAITING : Fld := ⟨411043916, 8, 256, 1, 0, 3, .lro, false, 0, true⟩
/-- DSL_BSTAT.SLOW_OWN, bits 6:4 of `0x03100108` onwards (10). -/
def Reg.DSL_BSTAT_SLOW_OWN : Fld := ⟨411043908, 8, 256, 1, 0, 3, .lro, false, 7, true⟩
/-- DSL_BSTAT.BOOST_OWN, bits 2:0 of `0x03100108` onwards (10). -/
def Reg.DSL_BSTAT_BOOST_OWN : Fld := ⟨411043904, 8, 256, 1, 0, 3, .lro, false, 7, true⟩
/-- DSL_BFLT.CLR_REJ, bits 4:4 of `0x0310010C` onwards (R287). -/
def Reg.DSL_BFLT_CLR_REJ : Fld := ⟨411043940, 8, 256, 1, 0, 1, .lw1c, false, 0, true⟩
/-- DSL_BFLT.TRIP_CUT, bits 3:3 of `0x0310010C` onwards (10). -/
def Reg.DSL_BFLT_TRIP_CUT : Fld := ⟨411043939, 8, 256, 1, 0, 1, .lw1c, false, 0, true⟩
/-- DSL_BFLT.GDUV, bits 2:2 of `0x0310010C` onwards (10). -/
def Reg.DSL_BFLT_GDUV : Fld := ⟨411043938, 8, 256, 1, 0, 1, .lw1c, false, 0, true⟩
/-- DSL_BFLT.DRN_GND, bits 1:1 of `0x0310010C` onwards (10). -/
def Reg.DSL_BFLT_DRN_GND : Fld := ⟨411043937, 8, 256, 1, 0, 1, .lw1c, false, 0, true⟩
/-- DSL_BFLT.HS_FAULT, bits 0:0 of `0x0310010C` onwards (10). -/
def Reg.DSL_BFLT_HS_FAULT : Fld := ⟨411043936, 8, 256, 1, 0, 1, .lw1c, false, 0, true⟩
/-- DSL_BCLR.CLR, bits 0:0 of `0x03100110` onwards (R287). -/
def Reg.DSL_BCLR_CLR : Fld := ⟨411043968, 8, 256, 1, 0, 1, .lwo, false, 0, false⟩
/-- DSL_SCFG.SHUNT, bits 31:16 of `0x03101000` onwards (10). -/
def Reg.DSL_SCFG_SHUNT : Fld := ⟨411074576, 48, 512, 1, 0, 16, .srw, false, 0, false⟩
/-- DSL_SCFG.PROF, bits 7:4 of `0x03101000` onwards (10). -/
def Reg.DSL_SCFG_PROF : Fld := ⟨411074564, 48, 512, 1, 0, 4, .srw, false, 0, false⟩
/-- DSL_SCFG.EN, bits 0:0 of `0x03101000` onwards (10). -/
def Reg.DSL_SCFG_EN : Fld := ⟨411074560, 48, 512, 1, 0, 1, .srw, false, 0, false⟩
/-- DSL_SMAXON.MAXON, bits 23:0 of `0x03101004` onwards (10). -/
def Reg.DSL_SMAXON_MAXON : Fld := ⟨411074592, 48, 512, 1, 0, 24, .srw, true, 60000, false⟩
/-- DSL_SOC.OC, bits 15:0 of `0x03101008` onwards (10). -/
def Reg.DSL_SOC_OC : Fld := ⟨411074624, 48, 512, 1, 0, 16, .srw, false, 65535, false⟩
/-- DSL_SSTAT.CUR, bits 31:16 of `0x0310100C` onwards (10). -/
def Reg.DSL_SSTAT_CUR : Fld := ⟨411074672, 48, 512, 1, 0, 16, .lro, false, 0, true⟩
/-- DSL_SSTAT.SHARED, bits 10:10 of `0x0310100C` onwards (R284). -/
def Reg.DSL_SSTAT_SHARED : Fld := ⟨411074666, 48, 512, 1, 0, 1, .lro, false, 0, true⟩
/-- DSL_SSTAT.KWIN, bits 9:9 of `0x0310100C` onwards (10). -/
def Reg.DSL_SSTAT_KWIN : Fld := ⟨411074665, 48, 512, 1, 0, 1, .lro, false, 0, true⟩
/-- DSL_SSTAT.LOCK, bits 8:8 of `0x0310100C` onwards (10). -/
def Reg.DSL_SSTAT_LOCK : Fld := ⟨411074664, 48, 512, 1, 0, 1, .lro, false, 0, true⟩
/-- DSL_SSTAT.PHASE, bits 6:4 of `0x0310100C` onwards (10). -/
def Reg.DSL_SSTAT_PHASE : Fld := ⟨411074660, 48, 512, 1, 0, 3, .lro, false, 0, true⟩
/-- DSL_SSTAT.STATE, bits 3:0 of `0x0310100C` onwards (10). -/
def Reg.DSL_SSTAT_STATE : Fld := ⟨411074656, 48, 512, 1, 0, 4, .lro, false, 0, true⟩
/-- DSL_SFLT.DEFERRED, bits 9:9 of `0x03101010` onwards (10). -/
def Reg.DSL_SFLT_DEFERRED : Fld := ⟨411074697, 48, 512, 1, 0, 1, .lw1c, false, 0, true⟩
/-- DSL_SFLT.NODIP, bits 8:8 of `0x03101010` onwards (10). -/
def Reg.DSL_SFLT_NODIP : Fld := ⟨411074696, 48, 512, 1, 0, 1, .lw1c, false, 0, true⟩
/-- DSL_SFLT.NOKINK, bits 7:7 of `0x03101010` onwards (10). -/
def Reg.DSL_SFLT_NOKINK : Fld := ⟨411074695, 48, 512, 1, 0, 1, .lw1c, false, 0, true⟩
/-- DSL_SFLT.IGNORED, bits 6:6 of `0x03101010` onwards (R273). -/
def Reg.DSL_SFLT_IGNORED : Fld := ⟨411074694, 48, 512, 1, 0, 1, .lw1c, false, 0, true⟩
/-- DSL_SFLT.PEAK_MISS, bits 5:5 of `0x03101010` onwards (R272). -/
def Reg.DSL_SFLT_PEAK_MISS : Fld := ⟨411074693, 48, 512, 1, 0, 1, .lw1c, false, 0, true⟩
/-- DSL_SFLT.REFUSED, bits 4:4 of `0x03101010` onwards (R279). -/
def Reg.DSL_SFLT_REFUSED : Fld := ⟨411074692, 48, 512, 1, 0, 1, .lw1c, false, 0, true⟩
/-- DSL_SFLT.MAXON, bits 3:3 of `0x03101010` onwards (10). -/
def Reg.DSL_SFLT_MAXON : Fld := ⟨411074691, 48, 512, 1, 0, 1, .lw1c, false, 0, true⟩
/-- DSL_SFLT.OPEN, bits 2:2 of `0x03101010` onwards (10). -/
def Reg.DSL_SFLT_OPEN : Fld := ⟨411074690, 48, 512, 1, 0, 1, .lw1c, false, 0, true⟩
/-- DSL_SFLT.DRN_BAT, bits 1:1 of `0x03101010` onwards (10). -/
def Reg.DSL_SFLT_DRN_BAT : Fld := ⟨411074689, 48, 512, 1, 0, 1, .lw1c, false, 0, true⟩
/-- DSL_SFLT.OC, bits 0:0 of `0x03101010` onwards (10). -/
def Reg.DSL_SFLT_OC : Fld := ⟨411074688, 48, 512, 1, 0, 1, .lw1c, false, 0, true⟩
/-- DSL_SCLR.CLR, bits 0:0 of `0x03101014` onwards (R287). -/
def Reg.DSL_SCLR_CLR : Fld := ⟨411074720, 48, 512, 1, 0, 1, .lwo, false, 0, false⟩
/-- DSL_SONT.T, bits 31:0 of `0x03101018` onwards (R276). -/
def Reg.DSL_SONT_T : Fld := ⟨411074752, 48, 512, 1, 0, 32, .lro, false, 0, true⟩
/-- DSL_SDEF.REFCNT, bits 31:16 of `0x0310101C` onwards (10). -/
def Reg.DSL_SDEF_REFCNT : Fld := ⟨411074800, 48, 512, 1, 0, 16, .lro, false, 0, true⟩
/-- DSL_SDEF.LAST, bits 15:0 of `0x0310101C` onwards (10). -/
def Reg.DSL_SDEF_LAST : Fld := ⟨411074784, 48, 512, 1, 0, 16, .lro, false, 0, true⟩
/-- DSL_SDDLY.DLY, bits 31:0 of `0x03101020` onwards (10). -/
def Reg.DSL_SDDLY_DLY : Fld := ⟨411074816, 48, 512, 1, 0, 32, .lro, false, 0, true⟩
/-- DSL_SKDLY.DLY, bits 31:0 of `0x03101024` onwards (10). -/
def Reg.DSL_SKDLY_DLY : Fld := ⟨411074848, 48, 512, 1, 0, 32, .lro, false, 0, true⟩
/-- DSL_PCFG.DEFER_MAX, bits 31:16 of `0x03104000` onwards (R279). -/
def Reg.DSL_PCFG_DEFER_MAX : Fld := ⟨411172880, 16, 1024, 1, 0, 16, .srw, false, 0, false⟩
/-- DSL_PCFG.KPOL, bits 10:10 of `0x03104000` onwards (R283). -/
def Reg.DSL_PCFG_KPOL : Fld := ⟨411172874, 16, 1024, 1, 0, 1, .srw, false, 0, false⟩
/-- DSL_PCFG.DIP_EN, bits 9:9 of `0x03104000` onwards (10). -/
def Reg.DSL_PCFG_DIP_EN : Fld := ⟨411172873, 16, 1024, 1, 0, 1, .srw, false, 0, false⟩
/-- DSL_PCFG.KINK_EN, bits 8:8 of `0x03104000` onwards (10). -/
def Reg.DSL_PCFG_KINK_EN : Fld := ⟨411172872, 16, 1024, 1, 0, 1, .srw, false, 0, false⟩
/-- DSL_PCFG.OFF_DECAY, bits 5:4 of `0x03104000` onwards (10). -/
def Reg.DSL_PCFG_OFF_DECAY : Fld := ⟨411172868, 16, 1024, 1, 0, 2, .srw, false, 1, false⟩
/-- DSL_PCFG.NPH_M1, bits 2:0 of `0x03104000` onwards (10). -/
def Reg.DSL_PCFG_NPH_M1 : Fld := ⟨411172864, 16, 1024, 1, 0, 3, .srw, false, 0, false⟩
/-- DSL_POFF.T_OFFMIN, bits 31:16 of `0x03104004` onwards (10). -/
def Reg.DSL_POFF_T_OFFMIN : Fld := ⟨411172912, 16, 1024, 1, 0, 16, .srw, false, 1000, false⟩
/-- DSL_POFF.I_OFF, bits 15:0 of `0x03104004` onwards (10). -/
def Reg.DSL_POFF_I_OFF : Fld := ⟨411172896, 16, 1024, 1, 0, 16, .srw, false, 50, false⟩
/-- DSL_PKWIN.KW_LEN, bits 31:16 of `0x03104008` onwards (10). -/
def Reg.DSL_PKWIN_KW_LEN : Fld := ⟨411172944, 16, 1024, 1, 0, 16, .srw, false, 0, false⟩
/-- DSL_PKWIN.KW_START, bits 15:0 of `0x03104008` onwards (10). -/
def Reg.DSL_PKWIN_KW_START : Fld := ⟨411172928, 16, 1024, 1, 0, 16, .srw, false, 0, false⟩
/-- DSL_PKDET.KARM, bits 23:16 of `0x0310400C` onwards (10). -/
def Reg.DSL_PKDET_KARM : Fld := ⟨411172976, 16, 1024, 1, 0, 8, .srw, false, 1, false⟩
/-- DSL_PKDET.KLAG, bits 11:4 of `0x0310400C` onwards (10). -/
def Reg.DSL_PKDET_KLAG : Fld := ⟨411172964, 16, 1024, 1, 0, 8, .srw, false, 1, false⟩
/-- DSL_PKDET.KAVG, bits 3:0 of `0x0310400C` onwards (10). -/
def Reg.DSL_PKDET_KAVG : Fld := ⟨411172960, 16, 1024, 1, 0, 4, .srw, false, 0, false⟩
/-- DSL_PKSL.KSLOPE, bits 11:0 of `0x03104010` onwards (10). -/
def Reg.DSL_PKSL_KSLOPE : Fld := ⟨411172992, 16, 1024, 1, 0, 12, .srw, false, 1, false⟩
/-- DSL_PDIP.DIP_MIN, bits 31:16 of `0x03104014` onwards (10). -/
def Reg.DSL_PDIP_DIP_MIN : Fld := ⟨411173040, 16, 1024, 1, 0, 16, .srw, false, 0, false⟩
/-- DSL_PDIP.DIP_THR, bits 15:0 of `0x03104014` onwards (10). -/
def Reg.DSL_PDIP_DIP_THR : Fld := ⟨411173024, 16, 1024, 1, 0, 16, .srw, false, 0, false⟩
/-- DSL_PHA.EXIT, bits 26:24 of `0x03104040` onwards (10). -/
def Reg.DSL_PHA_EXIT : Fld := ⟨411173400, 16, 1024, 8, 64, 3, .srw, false, 0, false⟩
/-- DSL_PHA.DECAY, bits 21:20 of `0x03104040` onwards (10). -/
def Reg.DSL_PHA_DECAY : Fld := ⟨411173396, 16, 1024, 8, 64, 2, .srw, false, 0, false⟩
/-- DSL_PHA.SUPPLY, bits 17:16 of `0x03104040` onwards (10). -/
def Reg.DSL_PHA_SUPPLY : Fld := ⟨411173392, 16, 1024, 8, 64, 2, .srw, false, 0, false⟩
/-- DSL_PHA.I_TGT, bits 15:0 of `0x03104040` onwards (10). -/
def Reg.DSL_PHA_I_TGT : Fld := ⟨411173376, 16, 1024, 8, 64, 16, .srw, false, 0, false⟩
/-- DSL_PHB.T, bits 31:16 of `0x03104044` onwards (10). -/
def Reg.DSL_PHB_T : Fld := ⟨411173424, 16, 1024, 8, 64, 16, .srw, false, 0, false⟩
/-- DSL_PHB.I_HYST, bits 15:0 of `0x03104044` onwards (R270). -/
def Reg.DSL_PHB_I_HYST : Fld := ⟨411173408, 16, 1024, 8, 64, 16, .srw, false, 0, false⟩
/-- CLE_LCFG.EN, bits 31:31 of `0x03201000` onwards (11). -/
def Reg.CLE_LCFG_EN : Fld := ⟨419463199, 64, 1024, 1, 0, 1, .srw, false, 0, false⟩
/-- CLE_LCFG.GEN, bits 20:20 of `0x03201000` onwards (R304). -/
def Reg.CLE_LCFG_GEN : Fld := ⟨419463188, 64, 1024, 1, 0, 1, .srw, false, 0, false⟩
/-- CLE_LCFG.GRP, bits 19:16 of `0x03201000` onwards (11). -/
def Reg.CLE_LCFG_GRP : Fld := ⟨419463184, 64, 1024, 1, 0, 4, .srw, false, 0, false⟩
/-- CLE_LCFG.DEN, bits 8:8 of `0x03201000` onwards (11). -/
def Reg.CLE_LCFG_DEN : Fld := ⟨419463176, 64, 1024, 1, 0, 1, .srw, false, 0, false⟩
/-- CLE_LCFG.DFILT, bits 3:0 of `0x03201000` onwards (11). -/
def Reg.CLE_LCFG_DFILT : Fld := ⟨419463168, 64, 1024, 1, 0, 4, .srw, false, 0, false⟩
/-- CLE_LTIME.SPH, bits 31:16 of `0x03201004` onwards (R289). -/
def Reg.CLE_LTIME_SPH : Fld := ⟨419463216, 64, 1024, 1, 0, 16, .srw, false, 0, false⟩
/-- CLE_LTIME.SPER, bits 15:0 of `0x03201004` onwards (11). -/
def Reg.CLE_LTIME_SPER : Fld := ⟨419463200, 64, 1024, 1, 0, 16, .srw, false, 100, false⟩
/-- CLE_MSRC.TYPE, bits 31:28 of `0x03201008` onwards (R293). -/
def Reg.CLE_MSRC_TYPE : Fld := ⟨419463260, 64, 1024, 1, 0, 4, .srw, false, 0, false⟩
/-- CLE_MSRC.MAXAGE, bits 27:20 of `0x03201008` onwards (11). -/
def Reg.CLE_MSRC_MAXAGE : Fld := ⟨419463252, 64, 1024, 1, 0, 8, .srw, false, 0, false⟩
/-- CLE_MSRC.INDEX, bits 16:0 of `0x03201008` onwards (11). -/
def Reg.CLE_MSRC_INDEX : Fld := ⟨419463232, 64, 1024, 1, 0, 17, .srw, false, 0, false⟩
/-- CLE_MSCL.MGAIN, bits 31:16 of `0x0320100C` onwards (R296). -/
def Reg.CLE_MSCL_MGAIN : Fld := ⟨419463280, 64, 1024, 1, 0, 16, .srw, false, 16384, false⟩
/-- CLE_MSCL.MSH, bits 4:0 of `0x0320100C` onwards (11). -/
def Reg.CLE_MSCL_MSH : Fld := ⟨419463264, 64, 1024, 1, 0, 5, .srw, false, 2, false⟩
/-- CLE_MOFF.MOFF, bits 31:0 of `0x03201010` onwards (11). -/
def Reg.CLE_MOFF_MOFF : Fld := ⟨419463296, 64, 1024, 1, 0, 32, .srw, false, 0, false⟩
/-- CLE_SSRC.TYPE, bits 31:28 of `0x03201014` onwards (R293). -/
def Reg.CLE_SSRC_TYPE : Fld := ⟨419463356, 64, 1024, 1, 0, 4, .srw, false, 0, false⟩
/-- CLE_SSRC.INDEX, bits 16:0 of `0x03201014` onwards (11). -/
def Reg.CLE_SSRC_INDEX : Fld := ⟨419463328, 64, 1024, 1, 0, 17, .srw, false, 0, false⟩
/-- CLE_SSCL.SGAIN, bits 31:16 of `0x03201018` onwards (R296). -/
def Reg.CLE_SSCL_SGAIN : Fld := ⟨419463376, 64, 1024, 1, 0, 16, .srw, false, 16384, false⟩
/-- CLE_SSCL.SSH, bits 4:0 of `0x03201018` onwards (11). -/
def Reg.CLE_SSCL_SSH : Fld := ⟨419463360, 64, 1024, 1, 0, 5, .srw, false, 2, false⟩
/-- CLE_KI.K, bits 31:0 of `0x0320101C` onwards (R297). -/
def Reg.CLE_KI_K : Fld := ⟨419463392, 64, 1024, 1, 0, 32, .srw, false, 0, false⟩
/-- CLE_KD.K, bits 31:0 of `0x03201020` onwards (R297). -/
def Reg.CLE_KD_K : Fld := ⟨419463424, 64, 1024, 1, 0, 32, .srw, false, 0, false⟩
/-- CLE_KF.K, bits 31:0 of `0x03201024` onwards (R297). -/
def Reg.CLE_KF_K : Fld := ⟨419463456, 64, 1024, 1, 0, 32, .srw, false, 0, false⟩
/-- CLE_SH.ESTEP, bits 28:24 of `0x03201028` onwards (11). -/
def Reg.CLE_SH_ESTEP : Fld := ⟨419463512, 64, 1024, 1, 0, 5, .srw, false, 0, false⟩
/-- CLE_SH.SH_F, bits 19:15 of `0x03201028` onwards (11). -/
def Reg.CLE_SH_SH_F : Fld := ⟨419463503, 64, 1024, 1, 0, 5, .srw, false, 16, false⟩
/-- CLE_SH.SH_D, bits 14:10 of `0x03201028` onwards (11). -/
def Reg.CLE_SH_SH_D : Fld := ⟨419463498, 64, 1024, 1, 0, 5, .srw, false, 16, false⟩
/-- CLE_SH.SH_I, bits 9:5 of `0x03201028` onwards (11). -/
def Reg.CLE_SH_SH_I : Fld := ⟨419463493, 64, 1024, 1, 0, 5, .srw, false, 16, false⟩
/-- CLE_SH.SH_P, bits 4:0 of `0x03201028` onwards (11). -/
def Reg.CLE_SH_SH_P : Fld := ⟨419463488, 64, 1024, 1, 0, 5, .srw, false, 16, false⟩
/-- CLE_IMAX.LIM, bits 31:0 of `0x0320102C` onwards (R300). -/
def Reg.CLE_IMAX_LIM : Fld := ⟨419463520, 64, 1024, 1, 0, 32, .srw, false, 1073741824, false⟩
/-- CLE_IMIN.LIM, bits 31:0 of `0x03201030` onwards (R300). -/
def Reg.CLE_IMIN_LIM : Fld := ⟨419463552, 64, 1024, 1, 0, 32, .srw, false, 0, false⟩
/-- CLE_OMAX.LIM, bits 31:0 of `0x03201034` onwards (11). -/
def Reg.CLE_OMAX_LIM : Fld := ⟨419463584, 64, 1024, 1, 0, 32, .srw, false, 1073741824, false⟩
/-- CLE_OMIN.LIM, bits 31:0 of `0x03201038` onwards (11). -/
def Reg.CLE_OMIN_LIM : Fld := ⟨419463616, 64, 1024, 1, 0, 32, .srw, false, 0, false⟩
/-- CLE_FAILOUT.OUT, bits 31:0 of `0x0320103C` onwards (11). -/
def Reg.CLE_FAILOUT_OUT : Fld := ⟨419463648, 64, 1024, 1, 0, 32, .srw, false, 0, false⟩
/-- CLE_FELIM.LIM, bits 31:0 of `0x03201040` onwards (11). -/
def Reg.CLE_FELIM_LIM : Fld := ⟨419463680, 64, 1024, 1, 0, 32, .srw, false, 0, false⟩
/-- CLE_FETIME.N, bits 15:0 of `0x03201044` onwards (11). -/
def Reg.CLE_FETIME_N : Fld := ⟨419463712, 64, 1024, 1, 0, 16, .srw, false, 100, false⟩
/-- CLE_POS.FRIC_EN, bits 25:25 of `0x03201048` onwards (R299). -/
def Reg.CLE_POS_FRIC_EN : Fld := ⟨419463769, 64, 1024, 1, 0, 1, .srw, false, 0, false⟩
/-- CLE_POS.COG_EN, bits 24:24 of `0x03201048` onwards (11). -/
def Reg.CLE_POS_COG_EN : Fld := ⟨419463768, 64, 1024, 1, 0, 1, .srw, false, 0, false⟩
/-- CLE_POS.CSH, bits 19:16 of `0x03201048` onwards (11). -/
def Reg.CLE_POS_CSH : Fld := ⟨419463760, 64, 1024, 1, 0, 4, .srw, false, 0, false⟩
/-- CLE_POS.PSHIFT, bits 12:8 of `0x03201048` onwards (11). -/
def Reg.CLE_POS_PSHIFT : Fld := ⟨419463752, 64, 1024, 1, 0, 5, .srw, false, 0, false⟩
/-- CLE_POS.PI, bits 4:0 of `0x03201048` onwards (11). -/
def Reg.CLE_POS_PI : Fld := ⟨419463744, 64, 1024, 1, 0, 5, .srw, false, 0, false⟩
/-- CLE_MODE.MODE, bits 1:0 of `0x03201050` onwards (11). -/
def Reg.CLE_MODE_MODE : Fld := ⟨419463808, 64, 1024, 1, 0, 2, .lrw, false, 0, true⟩
/-- CLE_SP.SP, bits 31:0 of `0x03201054` onwards (R291). -/
def Reg.CLE_SP_SP : Fld := ⟨419463840, 64, 1024, 1, 0, 32, .lrw, false, 0, false⟩
/-- CLE_MAN.MAN, bits 31:0 of `0x03201058` onwards (R303). -/
def Reg.CLE_MAN_MAN : Fld := ⟨419463872, 64, 1024, 1, 0, 32, .lrw, false, 0, true⟩
/-- CLE_MREG.M, bits 31:0 of `0x0320105C` onwards (11). -/
def Reg.CLE_MREG_M : Fld := ⟨419463904, 64, 1024, 1, 0, 32, .lrw, false, 0, false⟩
/-- CLE_OUT.U, bits 31:0 of `0x03201060` onwards (11). -/
def Reg.CLE_OUT_U : Fld := ⟨419463936, 64, 1024, 1, 0, 32, .lro, false, 0, true⟩
/-- CLE_ERR.E, bits 31:0 of `0x03201064` onwards (11). -/
def Reg.CLE_ERR_E : Fld := ⟨419463968, 64, 1024, 1, 0, 32, .lro, false, 0, true⟩
/-- CLE_INT.I, bits 31:0 of `0x03201068` onwards (11). -/
def Reg.CLE_INT_I : Fld := ⟨419464000, 64, 1024, 1, 0, 32, .lro, false, 0, true⟩
/-- CLE_LSTAT.FECNT, bits 31:16 of `0x0320106C` onwards (R307). -/
def Reg.CLE_LSTAT_FECNT : Fld := ⟨419464048, 64, 1024, 1, 0, 16, .lro, false, 0, true⟩
/-- CLE_LSTAT.LOSER, bits 0:0 of `0x0320106C` onwards (11). -/
def Reg.CLE_LSTAT_LOSER : Fld := ⟨419464032, 64, 1024, 1, 0, 1, .lro, false, 0, true⟩
/-- CLE_LFLG.MODE_REJ, bits 6:6 of `0x03201070` onwards (11). -/
def Reg.CLE_LFLG_MODE_REJ : Fld := ⟨419464070, 64, 1024, 1, 0, 1, .lw1c, false, 0, true⟩
/-- CLE_LFLG.XCLAMP, bits 5:5 of `0x03201070` onwards (R302). -/
def Reg.CLE_LFLG_XCLAMP : Fld := ⟨419464069, 64, 1024, 1, 0, 1, .lw1c, false, 0, true⟩
/-- CLE_LFLG.FE, bits 4:4 of `0x03201070` onwards (11). -/
def Reg.CLE_LFLG_FE : Fld := ⟨419464068, 64, 1024, 1, 0, 1, .lw1c, false, 0, true⟩
/-- CLE_LFLG.STALE, bits 3:3 of `0x03201070` onwards (R295). -/
def Reg.CLE_LFLG_STALE : Fld := ⟨419464067, 64, 1024, 1, 0, 1, .lw1c, false, 0, true⟩
/-- CLE_LFLG.ILIM, bits 2:2 of `0x03201070` onwards (11). -/
def Reg.CLE_LFLG_ILIM : Fld := ⟨419464066, 64, 1024, 1, 0, 1, .lw1c, false, 0, true⟩
/-- CLE_LFLG.OLIM, bits 1:1 of `0x03201070` onwards (11). -/
def Reg.CLE_LFLG_OLIM : Fld := ⟨419464065, 64, 1024, 1, 0, 1, .lw1c, false, 0, true⟩
/-- CLE_LFLG.SAT, bits 0:0 of `0x03201070` onwards (11). -/
def Reg.CLE_LFLG_SAT : Fld := ⟨419464064, 64, 1024, 1, 0, 1, .lw1c, false, 0, true⟩
/-- CLE_LCLR.CLR, bits 0:0 of `0x03201074` onwards (R301). -/
def Reg.CLE_LCLR_CLR : Fld := ⟨419464096, 64, 1024, 1, 0, 1, .lwo, false, 0, false⟩
/-- GNB_CFG.EN, bits 31:31 of `0x04000000` (12). -/
def Reg.GNB_CFG_EN : Fld := ⟨536870943, 1, 0, 1, 0, 1, .srw, false, 0, false⟩
/-- GNB_CFG.MPER, bits 9:0 of `0x04000000` (R315). -/
def Reg.GNB_CFG_MPER : Fld := ⟨536870912, 1, 0, 1, 0, 10, .srw, false, 100, false⟩
/-- GNB_PCFG.EN, bits 31:31 of `0x04000010` onwards (12). -/
def Reg.GNB_PCFG_EN : Fld := ⟨536871071, 4, 128, 1, 0, 1, .srw, false, 0, false⟩
/-- GNB_PCFG.FS, bits 18:16 of `0x04000010` onwards (12). -/
def Reg.GNB_PCFG_FS : Fld := ⟨536871056, 4, 128, 1, 0, 3, .srw, false, 0, false⟩
/-- GNB_PCFG.L1EN, bits 12:12 of `0x04000010` onwards (12). -/
def Reg.GNB_PCFG_L1EN : Fld := ⟨536871052, 4, 128, 1, 0, 1, .srw, false, 0, false⟩
/-- GNB_PCFG.L0EN, bits 8:8 of `0x04000010` onwards (12). -/
def Reg.GNB_PCFG_L0EN : Fld := ⟨536871048, 4, 128, 1, 0, 1, .srw, false, 0, false⟩
/-- GNB_PCFG.BITS1, bits 5:5 of `0x04000010` onwards (12). -/
def Reg.GNB_PCFG_BITS1 : Fld := ⟨536871045, 4, 128, 1, 0, 1, .srw, false, 0, false⟩
/-- GNB_PCFG.BITS0, bits 4:4 of `0x04000010` onwards (12). -/
def Reg.GNB_PCFG_BITS0 : Fld := ⟨536871044, 4, 128, 1, 0, 1, .srw, false, 0, false⟩
/-- GNB_PCFG.INV1, bits 1:1 of `0x04000010` onwards (R311). -/
def Reg.GNB_PCFG_INV1 : Fld := ⟨536871041, 4, 128, 1, 0, 1, .srw, false, 0, false⟩
/-- GNB_PCFG.INV0, bits 0:0 of `0x04000010` onwards (R311). -/
def Reg.GNB_PCFG_INV0 : Fld := ⟨536871040, 4, 128, 1, 0, 1, .srw, false, 0, false⟩
/-- GNB_LO0.LO, bits 31:0 of `0x04000014` onwards (12). -/
def Reg.GNB_LO0_LO : Fld := ⟨536871072, 4, 128, 1, 0, 32, .srw, false, 0, false⟩
/-- GNB_LO1.LO, bits 31:0 of `0x04000018` onwards (12). -/
def Reg.GNB_LO1_LO : Fld := ⟨536871104, 4, 128, 1, 0, 32, .srw, false, 0, false⟩
/-- GNB_CHK1.EN, bits 31:31 of `0x04000060` (12). -/
def Reg.GNB_CHK1_EN : Fld := ⟨536871711, 1, 0, 1, 0, 1, .srw, false, 1, false⟩
/-- GNB_CHK1.CC_MAX, bits 15:0 of `0x04000060` (12). -/
def Reg.GNB_CHK1_CC_MAX : Fld := ⟨536871680, 1, 0, 1, 0, 16, .srw, false, 300, false⟩
/-- GNB_CHK2.EN, bits 31:31 of `0x04000064` (12). -/
def Reg.GNB_CHK2_EN : Fld := ⟨536871743, 1, 0, 1, 0, 1, .srw, false, 1, false⟩
/-- GNB_CHK2.NMIN, bits 27:24 of `0x04000064` (12). -/
def Reg.GNB_CHK2_NMIN : Fld := ⟨536871736, 1, 0, 1, 0, 4, .srw, false, 6, false⟩
/-- GNB_CHK2.SDMIN, bits 23:16 of `0x04000064` (12). -/
def Reg.GNB_CHK2_SDMIN : Fld := ⟨536871728, 1, 0, 1, 0, 8, .srw, false, 15, false⟩
/-- GNB_CHK2.CNMAX, bits 15:8 of `0x04000064` (12). -/
def Reg.GNB_CHK2_CNMAX : Fld := ⟨536871720, 1, 0, 1, 0, 8, .srw, false, 55, false⟩
/-- GNB_CHK2.MEANMIN, bits 7:0 of `0x04000064` (12). -/
def Reg.GNB_CHK2_MEANMIN : Fld := ⟨536871712, 1, 0, 1, 0, 8, .srw, false, 45, false⟩
/-- GNB_CHK3.EN, bits 31:31 of `0x04000068` (12). -/
def Reg.GNB_CHK3_EN : Fld := ⟨536871775, 1, 0, 1, 0, 1, .srw, false, 1, false⟩
/-- GNB_CHK3.DRMAX, bits 15:0 of `0x04000068` (12). -/
def Reg.GNB_CHK3_DRMAX : Fld := ⟨536871744, 1, 0, 1, 0, 16, .srw, false, 80, false⟩
/-- GNB_CHK4.EN, bits 31:31 of `0x0400006C` (12). -/
def Reg.GNB_CHK4_EN : Fld := ⟨536871807, 1, 0, 1, 0, 1, .srw, false, 1, false⟩
/-- GNB_CHK4.NMIN, bits 27:24 of `0x0400006C` (12). -/
def Reg.GNB_CHK4_NMIN : Fld := ⟨536871800, 1, 0, 1, 0, 4, .srw, false, 5, false⟩
/-- GNB_CHK4.COHMAX, bits 7:0 of `0x0400006C` (12). -/
def Reg.GNB_CHK4_COHMAX : Fld := ⟨536871776, 1, 0, 1, 0, 8, .srw, false, 230, false⟩
/-- GNB_BL.BL, bits 15:0 of `0x04000070` onwards (R317). -/
def Reg.GNB_BL_BL : Fld := ⟨536871808, 6, 32, 1, 0, 16, .srw, false, 0, false⟩
/-- GNB_DISC.HOLD_LIM, bits 31:16 of `0x04000090` (12). -/
def Reg.GNB_DISC_HOLD_LIM : Fld := ⟨536872080, 1, 0, 1, 0, 16, .srw, false, 300, false⟩
/-- GNB_DISC.LOCK_N, bits 15:8 of `0x04000090` (12). -/
def Reg.GNB_DISC_LOCK_N : Fld := ⟨536872072, 1, 0, 1, 0, 8, .srw, false, 8, false⟩
/-- GNB_DISC.TAU, bits 7:0 of `0x04000090` (12). -/
def Reg.GNB_DISC_TAU : Fld := ⟨536872064, 1, 0, 1, 0, 8, .srw, false, 10, false⟩
/-- GNB_DISC2.LOSS, bits 31:16 of `0x04000094` (12). -/
def Reg.GNB_DISC2_LOSS : Fld := ⟨536872112, 1, 0, 1, 0, 16, .srw, false, 2000, false⟩
/-- GNB_DISC2.JUMP_N, bits 15:8 of `0x04000094` (12). -/
def Reg.GNB_DISC2_JUMP_N : Fld := ⟨536872104, 1, 0, 1, 0, 8, .srw, false, 5, false⟩
/-- GNB_DTOL.STEP, bits 31:16 of `0x04000098` (12). -/
def Reg.GNB_DTOL_STEP : Fld := ⟨536872144, 1, 0, 1, 0, 16, .srw, false, 1000, false⟩
/-- GNB_DTOL.LOCK_TOL, bits 15:0 of `0x04000098` (12). -/
def Reg.GNB_DTOL_LOCK_TOL : Fld := ⟨536872128, 1, 0, 1, 0, 16, .srw, false, 100, false⟩
/-- GNB_DJUMP.SLEW_MAX, bits 31:16 of `0x0400009C` (12). -/
def Reg.GNB_DJUMP_SLEW_MAX : Fld := ⟨536872176, 1, 0, 1, 0, 16, .srw, false, 10000, false⟩
/-- GNB_DJUMP.JUMP, bits 15:0 of `0x0400009C` (12). -/
def Reg.GNB_DJUMP_JUMP : Fld := ⟨536872160, 1, 0, 1, 0, 16, .srw, false, 500, false⟩
/-- GNB_HO.HO_R, bits 31:16 of `0x040000A0` (R327). -/
def Reg.GNB_HO_HO_R : Fld := ⟨536872208, 1, 0, 1, 0, 16, .srw, false, 1000, false⟩
/-- GNB_HO.HO_Q, bits 15:0 of `0x040000A0` (R327). -/
def Reg.GNB_HO_HO_Q : Fld := ⟨536872192, 1, 0, 1, 0, 16, .srw, false, 500, false⟩
/-- GNB_SOL_T_LO.T, bits 31:0 of `0x040000C0` (12). -/
def Reg.GNB_SOL_T_LO_T : Fld := ⟨536872448, 1, 0, 1, 0, 32, .lrw, false, 0, false⟩
/-- GNB_SOL_T_HI.T, bits 31:0 of `0x040000C4` (12). -/
def Reg.GNB_SOL_T_HI_T : Fld := ⟨536872480, 1, 0, 1, 0, 32, .lrw, false, 0, false⟩
/-- GNB_SOL_GPS_LO.GPS, bits 31:0 of `0x040000C8` (12). -/
def Reg.GNB_SOL_GPS_LO_GPS : Fld := ⟨536872512, 1, 0, 1, 0, 32, .lrw, false, 0, false⟩
/-- GNB_SOL_GPS_HI.GPS, bits 31:0 of `0x040000CC` (12). -/
def Reg.GNB_SOL_GPS_HI_GPS : Fld := ⟨536872544, 1, 0, 1, 0, 32, .lrw, false, 0, false⟩
/-- GNB_SOL_FRAC.FRAC, bits 15:0 of `0x040000D0` (12). -/
def Reg.GNB_SOL_FRAC_FRAC : Fld := ⟨536872576, 1, 0, 1, 0, 16, .lrw, false, 0, false⟩
/-- GNB_SOL_DRIFT.DRIFT, bits 31:0 of `0x040000D4` (12). -/
def Reg.GNB_SOL_DRIFT_DRIFT : Fld := ⟨536872608, 1, 0, 1, 0, 32, .lrw, false, 0, false⟩
/-- GNB_SOL_SIG.SIG, bits 31:0 of `0x040000D8` (12). -/
def Reg.GNB_SOL_SIG_SIG : Fld := ⟨536872640, 1, 0, 1, 0, 32, .lrw, false, 0, false⟩
/-- GNB_SOL_CTL.ACCEPT, bits 3:3 of `0x040000DC` (R325). -/
def Reg.GNB_SOL_CTL_ACCEPT : Fld := ⟨536872675, 1, 0, 1, 0, 1, .lwo, false, 0, false⟩
/-- GNB_SOL_CTL.HOLD, bits 2:2 of `0x040000DC` (12). -/
def Reg.GNB_SOL_CTL_HOLD : Fld := ⟨536872674, 1, 0, 1, 0, 1, .lwo, false, 0, false⟩
/-- GNB_SOL_CTL.REJ, bits 1:1 of `0x040000DC` (R323). -/
def Reg.GNB_SOL_CTL_REJ : Fld := ⟨536872673, 1, 0, 1, 0, 1, .lw1c, false, 0, false⟩
/-- GNB_SOL_CTL.APPLY, bits 0:0 of `0x040000DC` (12). -/
def Reg.GNB_SOL_CTL_APPLY : Fld := ⟨536872672, 1, 0, 1, 0, 1, .lwo, false, 0, false⟩
/-- GNB_DSTAT.EXPIRED, bits 31:31 of `0x04000100` (12). -/
def Reg.GNB_DSTAT_EXPIRED : Fld := ⟨536872991, 1, 0, 1, 0, 1, .lro, false, 0, true⟩
/-- GNB_DSTAT.SLEWING, bits 30:30 of `0x04000100` (12). -/
def Reg.GNB_DSTAT_SLEWING : Fld := ⟨536872990, 1, 0, 1, 0, 1, .lro, false, 0, true⟩
/-- GNB_DSTAT.CAUSE, bits 29:28 of `0x04000100` (12). -/
def Reg.GNB_DSTAT_CAUSE : Fld := ⟨536872988, 1, 0, 1, 0, 2, .lro, false, 0, true⟩
/-- GNB_DSTAT.ACCEPTED, bits 26:26 of `0x04000100` (12). -/
def Reg.GNB_DSTAT_ACCEPTED : Fld := ⟨536872986, 1, 0, 1, 0, 1, .lro, false, 0, true⟩
/-- GNB_DSTAT.COUNT, bits 23:16 of `0x04000100` (12). -/
def Reg.GNB_DSTAT_COUNT : Fld := ⟨536872976, 1, 0, 1, 0, 8, .lro, false, 0, true⟩
/-- GNB_DSTAT.PHASE, bits 2:0 of `0x04000100` (12). -/
def Reg.GNB_DSTAT_PHASE : Fld := ⟨536872960, 1, 0, 1, 0, 3, .lro, false, 0, true⟩
/-- GNB_FREQ.FREQ, bits 23:0 of `0x04000104` (12). -/
def Reg.GNB_FREQ_FREQ : Fld := ⟨536872992, 1, 0, 1, 0, 24, .lro, false, 0, true⟩
/-- GNB_EPS.EPS, bits 31:0 of `0x04000108` (12). -/
def Reg.GNB_EPS_EPS : Fld := ⟨536873024, 1, 0, 1, 0, 32, .lro, false, 0, true⟩
/-- GNB_HOLDT.T, bits 31:0 of `0x0400010C` (12). -/
def Reg.GNB_HOLDT_T : Fld := ⟨536873056, 1, 0, 1, 0, 32, .lro, false, 0, true⟩
/-- GNB_UNC.U, bits 31:0 of `0x04000110` (12). -/
def Reg.GNB_UNC_U : Fld := ⟨536873088, 1, 0, 1, 0, 32, .lro, false, 0, true⟩
/-- GNB_EVT.NAV_TRUNC, bits 5:5 of `0x04000114` (12). -/
def Reg.GNB_EVT_NAV_TRUNC : Fld := ⟨536873125, 1, 0, 1, 0, 1, .lw1c, false, 0, true⟩
/-- GNB_EVT.CHECK, bits 4:4 of `0x04000114` (12). -/
def Reg.GNB_EVT_CHECK : Fld := ⟨536873124, 1, 0, 1, 0, 1, .lw1c, false, 0, true⟩
/-- GNB_EVT.EXPIRED, bits 3:3 of `0x04000114` (12). -/
def Reg.GNB_EVT_EXPIRED : Fld := ⟨536873123, 1, 0, 1, 0, 1, .lw1c, false, 0, true⟩
/-- GNB_EVT.HOLD, bits 2:2 of `0x04000114` (12). -/
def Reg.GNB_EVT_HOLD : Fld := ⟨536873122, 1, 0, 1, 0, 1, .lw1c, false, 0, true⟩
/-- GNB_EVT.STEP, bits 1:1 of `0x04000114` (12). -/
def Reg.GNB_EVT_STEP : Fld := ⟨536873121, 1, 0, 1, 0, 1, .lw1c, false, 0, true⟩
/-- GNB_EVT.TJUMP, bits 0:0 of `0x04000114` (12). -/
def Reg.GNB_EVT_TJUMP : Fld := ⟨536873120, 1, 0, 1, 0, 1, .lw1c, false, 0, true⟩
/-- GNB_PPSCFG.EN, bits 31:31 of `0x04000140` onwards (12). -/
def Reg.GNB_PPSCFG_EN : Fld := ⟨536873503, 2, 128, 1, 0, 1, .srw, false, 0, false⟩
/-- GNB_PPSCFG.POL, bits 29:29 of `0x04000140` onwards (12). -/
def Reg.GNB_PPSCFG_POL : Fld := ⟨536873501, 2, 128, 1, 0, 1, .srw, false, 0, false⟩
/-- GNB_PPSCFG.FREEPPS, bits 28:28 of `0x04000140` onwards (R329). -/
def Reg.GNB_PPSCFG_FREEPPS : Fld := ⟨536873500, 2, 128, 1, 0, 1, .srw, false, 0, false⟩
/-- GNB_PPSCFG.HOSUP, bits 27:27 of `0x04000140` onwards (12). -/
def Reg.GNB_PPSCFG_HOSUP : Fld := ⟨536873499, 2, 128, 1, 0, 1, .srw, false, 0, false⟩
/-- GNB_PPSCFG.WIDTH, bits 19:0 of `0x04000140` onwards (12). -/
def Reg.GNB_PPSCFG_WIDTH : Fld := ⟨536873472, 2, 128, 1, 0, 20, .srw, false, 100000, false⟩
/-- GNB_PPSOFS.OFS, bits 31:0 of `0x04000144` onwards (R328). -/
def Reg.GNB_PPSOFS_OFS : Fld := ⟨536873504, 2, 128, 1, 0, 32, .srw, false, 0, false⟩
/-- GNB_TCCFG.EN, bits 31:31 of `0x04001000` onwards (12). -/
def Reg.GNB_TCCFG_EN : Fld := ⟨536903711, 256, 128, 1, 0, 1, .lrw, false, 0, false⟩
/-- GNB_TCCFG.MODE, bits 29:28 of `0x04001000` onwards (12). -/
def Reg.GNB_TCCFG_MODE : Fld := ⟨536903708, 256, 128, 1, 0, 2, .lrw, false, 0, false⟩
/-- GNB_TCCFG.ANT, bits 26:24 of `0x04001000` onwards (12). -/
def Reg.GNB_TCCFG_ANT : Fld := ⟨536903704, 256, 128, 1, 0, 3, .lrw, false, 0, false⟩
/-- GNB_TCCFG.SIG, bits 23:16 of `0x04001000` onwards (R312). -/
def Reg.GNB_TCCFG_SIG : Fld := ⟨536903696, 256, 128, 1, 0, 8, .lrw, false, 0, false⟩
/-- GNB_TCCFG.SV, bits 15:8 of `0x04001000` onwards (R318). -/
def Reg.GNB_TCCFG_SV : Fld := ⟨536903688, 256, 128, 1, 0, 8, .lrw, false, 0, false⟩
/-- GNB_TCCFG.GSLOT, bits 3:0 of `0x04001000` onwards (12). -/
def Reg.GNB_TCCFG_GSLOT : Fld := ⟨536903680, 256, 128, 1, 0, 4, .lrw, false, 0, false⟩
/-- GNB_TCAID.DOPP_AID, bits 31:16 of `0x04001004` onwards (12). -/
def Reg.GNB_TCAID_DOPP_AID : Fld := ⟨536903728, 256, 128, 1, 0, 16, .lrw, false, 0, false⟩
/-- GNB_TCAID.WIN, bits 15:0 of `0x04001004` onwards (12). -/
def Reg.GNB_TCAID_WIN : Fld := ⟨536903712, 256, 128, 1, 0, 16, .lrw, false, 0, false⟩
/-- GNB_TCPRED.PRED, bits 31:0 of `0x04001008` onwards (R322). -/
def Reg.GNB_TCPRED_PRED : Fld := ⟨536903744, 256, 128, 1, 0, 32, .lrw, false, 2147483648, false⟩
/-- GNB_TCSTAT.REJ, bits 4:4 of `0x0400100C` onwards (12). -/
def Reg.GNB_TCSTAT_REJ : Fld := ⟨536903780, 256, 128, 1, 0, 1, .lw1c, false, 0, true⟩
/-- GNB_TCSTAT.STATE, bits 2:0 of `0x0400100C` onwards (12). -/
def Reg.GNB_TCSTAT_STATE : Fld := ⟨536903776, 256, 128, 1, 0, 3, .lro, false, 0, true⟩
/-- FGE_CFG.EN, bits 31:31 of `0x05000000` (13). -/
def Reg.FGE_CFG_EN : Fld := ⟨671088671, 1, 0, 1, 0, 1, .srw, false, 0, false⟩
/-- FGE_CFG.VIS, bits 23:16 of `0x05000000` (R346). -/
def Reg.FGE_CFG_VIS : Fld := ⟨671088656, 1, 0, 1, 0, 8, .srw, false, 1, false⟩
/-- FGE_CFG.ODIV, bits 15:0 of `0x05000000` (R340). -/
def Reg.FGE_CFG_ODIV : Fld := ⟨671088640, 1, 0, 1, 0, 16, .srw, false, 17, false⟩
/-- FGE_OCFG.OLAG, bits 31:16 of `0x05000004` (13). -/
def Reg.FGE_OCFG_OLAG : Fld := ⟨671088688, 1, 0, 1, 0, 16, .srw, false, 0, false⟩
/-- FGE_OCFG.OPH, bits 15:0 of `0x05000004` (13). -/
def Reg.FGE_OCFG_OPH : Fld := ⟨671088672, 1, 0, 1, 0, 16, .srw, false, 0, false⟩
/-- FGE_GRID.GCELL, bits 27:24 of `0x05000008` (13). -/
def Reg.FGE_GRID_GCELL : Fld := ⟨671088728, 1, 0, 1, 0, 4, .srw, false, 6, false⟩
/-- FGE_GRID.GH_M1, bits 23:16 of `0x05000008` (13). -/
def Reg.FGE_GRID_GH_M1 : Fld := ⟨671088720, 1, 0, 1, 0, 8, .srw, false, 255, false⟩
/-- FGE_GRID.GW_M1, bits 9:0 of `0x05000008` (R3). -/
def Reg.FGE_GRID_GW_M1 : Fld := ⟨671088704, 1, 0, 1, 0, 10, .srw, false, 0, false⟩
/-- FGE_GX0.X, bits 31:0 of `0x0500000C` (13). -/
def Reg.FGE_GX0_X : Fld := ⟨671088736, 1, 0, 1, 0, 32, .srw, false, 0, false⟩
/-- FGE_GY0.Y, bits 31:0 of `0x05000010` (13). -/
def Reg.FGE_GY0_Y : Fld := ⟨671088768, 1, 0, 1, 0, 32, .srw, false, 0, false⟩
/-- FGE_GBASE.BASE, bits 27:0 of `0x05000014` (13). -/
def Reg.FGE_GBASE_BASE : Fld := ⟨671088800, 1, 0, 1, 0, 28, .srw, false, 0, false⟩
/-- FGE_XMAX.XMAX, bits 15:0 of `0x05000018` (13). -/
def Reg.FGE_XMAX_XMAX : Fld := ⟨671088832, 1, 0, 1, 0, 16, .srw, false, 200, false⟩
/-- FGE_HEAD.NL_M1, bits 28:24 of `0x0500001C` (13). -/
def Reg.FGE_HEAD_NL_M1 : Fld := ⟨671088888, 1, 0, 1, 0, 5, .srw, false, 0, false⟩
/-- FGE_HEAD.SCORE_CH, bits 22:16 of `0x0500001C` (13). -/
def Reg.FGE_HEAD_SCORE_CH : Fld := ⟨671088880, 1, 0, 1, 0, 7, .srw, false, 64, false⟩
/-- FGE_HEAD.RAD_CH, bits 14:8 of `0x0500001C` (13). -/
def Reg.FGE_HEAD_RAD_CH : Fld := ⟨671088872, 1, 0, 1, 0, 7, .srw, false, 65, false⟩
/-- FGE_HEAD.DET_THR, bits 7:0 of `0x0500001C` (13). -/
def Reg.FGE_HEAD_DET_THR : Fld := ⟨671088864, 1, 0, 1, 0, 8, .srw, false, 64, false⟩
/-- FGE_TRK.BIRTH_THR, bits 31:24 of `0x05000020` (13). -/
def Reg.FGE_TRK_BIRTH_THR : Fld := ⟨671088920, 1, 0, 1, 0, 8, .srw, false, 80, false⟩
/-- FGE_TRK.CONF_N, bits 23:20 of `0x05000020` (13). -/
def Reg.FGE_TRK_CONF_N : Fld := ⟨671088916, 1, 0, 1, 0, 4, .srw, false, 3, false⟩
/-- FGE_TRK.TDEL, bits 19:16 of `0x05000020` (13). -/
def Reg.FGE_TRK_TDEL : Fld := ⟨671088912, 1, 0, 1, 0, 4, .srw, false, 2, false⟩
/-- FGE_TRK.CDEL, bits 15:8 of `0x05000020` (13). -/
def Reg.FGE_TRK_CDEL : Fld := ⟨671088904, 1, 0, 1, 0, 8, .srw, false, 6, false⟩
/-- FGE_TRK.TPOL, bits 7:6 of `0x05000020` (13). -/
def Reg.FGE_TRK_TPOL : Fld := ⟨671088902, 1, 0, 1, 0, 2, .srw, false, 0, false⟩
/-- FGE_TRK.TPRIM, bits 3:0 of `0x05000020` (13). -/
def Reg.FGE_TRK_TPRIM : Fld := ⟨671088896, 1, 0, 1, 0, 4, .srw, false, 0, false⟩
/-- FGE_TRK2.GATE, bits 31:16 of `0x05000024` (13). -/
def Reg.FGE_TRK2_GATE : Fld := ⟨671088944, 1, 0, 1, 0, 16, .srw, false, 100, false⟩
/-- FGE_TRK2.DROP, bits 15:0 of `0x05000024` (13). -/
def Reg.FGE_TRK2_DROP : Fld := ⟨671088928, 1, 0, 1, 0, 16, .srw, false, 100, false⟩
/-- FGE_EGO.EGO_CHK, bits 31:31 of `0x05000028` (R351). -/
def Reg.FGE_EGO_EGO_CHK : Fld := ⟨671088991, 1, 0, 1, 0, 1, .srw, false, 1, false⟩
/-- FGE_EGO.REG_CH, bits 29:24 of `0x05000028` (13). -/
def Reg.FGE_EGO_REG_CH : Fld := ⟨671088984, 1, 0, 1, 0, 6, .srw, false, 0, false⟩
/-- FGE_EGO.SRCH, bits 19:16 of `0x05000028` (13). -/
def Reg.FGE_EGO_SRCH : Fld := ⟨671088976, 1, 0, 1, 0, 4, .srw, false, 4, false⟩
/-- FGE_EGO.EGO_TOL, bits 15:0 of `0x05000028` (13). -/
def Reg.FGE_EGO_EGO_TOL : Fld := ⟨671088960, 1, 0, 1, 0, 16, .srw, false, 300, false⟩
/-- FGE_EGO2.QMIN, bits 31:16 of `0x0500002C` (13). -/
def Reg.FGE_EGO2_QMIN : Fld := ⟨671089008, 1, 0, 1, 0, 16, .srw, false, 2000, false⟩
/-- FGE_EGO2.YSTEP, bits 15:0 of `0x0500002C` (13). -/
def Reg.FGE_EGO2_YSTEP : Fld := ⟨671088992, 1, 0, 1, 0, 16, .srw, false, 18, false⟩
/-- FGE_CAL.CAL_XY, bits 31:16 of `0x05000030` (13). -/
def Reg.FGE_CAL_CAL_XY : Fld := ⟨671089040, 1, 0, 1, 0, 16, .srw, false, 50, false⟩
/-- FGE_CAL.CAL_YAW, bits 15:8 of `0x05000030` (13). -/
def Reg.FGE_CAL_CAL_YAW : Fld := ⟨671089032, 1, 0, 1, 0, 8, .srw, false, 91, false⟩
/-- FGE_CAL.CAL_STEP, bits 7:0 of `0x05000030` (13). -/
def Reg.FGE_CAL_CAL_STEP : Fld := ⟨671089024, 1, 0, 1, 0, 8, .srw, false, 2, false⟩
/-- FGE_STAT.BUF, bits 5:5 of `0x05000100` (13). -/
def Reg.FGE_STAT_BUF : Fld := ⟨671090693, 1, 0, 1, 0, 1, .lro, false, 0, true⟩
/-- FGE_STAT.SAT, bits 4:4 of `0x05000100` (13). -/
def Reg.FGE_STAT_SAT : Fld := ⟨671090692, 1, 0, 1, 0, 1, .lw1c, false, 0, true⟩
/-- FGE_STAT.CALLIM, bits 3:3 of `0x05000100` (13). -/
def Reg.FGE_STAT_CALLIM : Fld := ⟨671090691, 1, 0, 1, 0, 1, .lw1c, false, 0, true⟩
/-- FGE_STAT.BIRTH_REJ, bits 2:2 of `0x05000100` (R355). -/
def Reg.FGE_STAT_BIRTH_REJ : Fld := ⟨671090690, 1, 0, 1, 0, 1, .lw1c, false, 0, true⟩
/-- FGE_STAT.DET_OVF, bits 1:1 of `0x05000100` (13). -/
def Reg.FGE_STAT_DET_OVF : Fld := ⟨671090689, 1, 0, 1, 0, 1, .lw1c, false, 0, true⟩
/-- FGE_STAT.LATE, bits 0:0 of `0x05000100` (R347). -/
def Reg.FGE_STAT_LATE : Fld := ⟨671090688, 1, 0, 1, 0, 1, .lw1c, false, 0, true⟩
/-- FGE_OUTT_LO.T, bits 31:0 of `0x05000104` (13). -/
def Reg.FGE_OUTT_LO_T : Fld := ⟨671090720, 1, 0, 1, 0, 32, .lro, false, 0, true⟩
/-- FGE_OUTT_HI.T, bits 31:0 of `0x05000108` (13). -/
def Reg.FGE_OUTT_HI_T : Fld := ⟨671090752, 1, 0, 1, 0, 32, .lro, false, 0, true⟩
/-- FGE_ONUM.N, bits 31:0 of `0x0500010C` (13). -/
def Reg.FGE_ONUM_N : Fld := ⟨671090784, 1, 0, 1, 0, 32, .lro, false, 0, true⟩
/-- FGE_OSRC.ABSENT, bits 31:16 of `0x05000110` (13). -/
def Reg.FGE_OSRC_ABSENT : Fld := ⟨671090832, 1, 0, 1, 0, 16, .lro, false, 0, true⟩
/-- FGE_OSRC.USED, bits 15:0 of `0x05000110` (13). -/
def Reg.FGE_OSRC_USED : Fld := ⟨671090816, 1, 0, 1, 0, 16, .lro, false, 0, true⟩
/-- FGE_NTRK.CONF, bits 29:16 of `0x05000114` (13). -/
def Reg.FGE_NTRK_CONF : Fld := ⟨671090864, 1, 0, 1, 0, 14, .lro, false, 0, true⟩
/-- FGE_NTRK.TENT, bits 13:0 of `0x05000114` (13). -/
def Reg.FGE_NTRK_TENT : Fld := ⟨671090848, 1, 0, 1, 0, 14, .lro, false, 0, true⟩
/-- FGE_NDET.N, bits 12:0 of `0x05000118` (13). -/
def Reg.FGE_NDET_N : Fld := ⟨671090880, 1, 0, 1, 0, 13, .lro, false, 0, true⟩
/-- FGE_HCYC.CYC, bits 31:0 of `0x0500011C` (13). -/
def Reg.FGE_HCYC_CYC : Fld := ⟨671090912, 1, 0, 1, 0, 32, .lro, false, 0, true⟩
/-- FGE_EGOREC.WORD, bits 31:0 of `0x05000120` onwards (R350). -/
def Reg.FGE_EGOREC_WORD : Fld := ⟨671090944, 8, 32, 1, 0, 32, .lro, false, 0, true⟩
/-- FGE_TCMD_E.E, bits 31:0 of `0x05000140` (13). -/
def Reg.FGE_TCMD_E_E : Fld := ⟨671091200, 1, 0, 1, 0, 32, .lrw, false, 0, false⟩
/-- FGE_TCMD_N.N, bits 31:0 of `0x05000144` (13). -/
def Reg.FGE_TCMD_N_N : Fld := ⟨671091232, 1, 0, 1, 0, 32, .lrw, false, 0, false⟩
/-- FGE_TCMD_R.RAD, bits 15:0 of `0x05000148` (13). -/
def Reg.FGE_TCMD_R_RAD : Fld := ⟨671091264, 1, 0, 1, 0, 16, .lrw, false, 0, false⟩
/-- FGE_TCMD_CTL.GO, bits 31:31 of `0x0500014C` (R356). -/
def Reg.FGE_TCMD_CTL_GO : Fld := ⟨671091327, 1, 0, 1, 0, 1, .lwo, false, 0, false⟩
/-- FGE_TCMD_CTL.REJ, bits 30:30 of `0x0500014C` (13). -/
def Reg.FGE_TCMD_CTL_REJ : Fld := ⟨671091326, 1, 0, 1, 0, 1, .lw1c, false, 0, false⟩
/-- FGE_TCMD_CTL.CODE, bits 29:28 of `0x0500014C` (13). -/
def Reg.FGE_TCMD_CTL_CODE : Fld := ⟨671091324, 1, 0, 1, 0, 2, .lrw, false, 0, false⟩
/-- FGE_TCMD_CTL.INDEX, bits 12:0 of `0x0500014C` (13). -/
def Reg.FGE_TCMD_CTL_INDEX : Fld := ⟨671091296, 1, 0, 1, 0, 13, .lrw, false, 0, false⟩
/-- FGE_SCFG.EN, bits 31:31 of `0x05001000` onwards (13). -/
def Reg.FGE_SCFG_EN : Fld := ⟨671121439, 16, 512, 1, 0, 1, .srw, false, 0, false⟩
/-- FGE_SCFG.KIND, bits 29:28 of `0x05001000` onwards (13). -/
def Reg.FGE_SCFG_KIND : Fld := ⟨671121436, 16, 512, 1, 0, 2, .srw, false, 0, false⟩
/-- FGE_SCFG.PORT, bits 24:24 of `0x05001000` onwards (13). -/
def Reg.FGE_SCFG_PORT : Fld := ⟨671121432, 16, 512, 1, 0, 1, .srw, false, 0, false⟩
/-- FGE_SCFG.C0, bits 21:16 of `0x05001000` onwards (13). -/
def Reg.FGE_SCFG_C0 : Fld := ⟨671121424, 16, 512, 1, 0, 6, .srw, false, 0, false⟩
/-- FGE_SCFG.UDP, bits 15:0 of `0x05001000` onwards (13). -/
def Reg.FGE_SCFG_UDP : Fld := ⟨671121408, 16, 512, 1, 0, 16, .srw, false, 0, false⟩
/-- FGE_STIME.FPER, bits 31:16 of `0x05001004` onwards (13). -/
def Reg.FGE_STIME_FPER : Fld := ⟨671121456, 16, 512, 1, 0, 16, .srw, false, 3333, false⟩
/-- FGE_STIME.MAXAGE, bits 15:8 of `0x05001004` onwards (13). -/
def Reg.FGE_STIME_MAXAGE : Fld := ⟨671121448, 16, 512, 1, 0, 8, .srw, false, 60, false⟩
/-- FGE_STIME.ALIGN_MAX, bits 7:0 of `0x05001004` onwards (13). -/
def Reg.FGE_STIME_ALIGN_MAX : Fld := ⟨671121440, 16, 512, 1, 0, 8, .srw, false, 50, false⟩
/-- FGE_SRATE.RATE0, bits 31:0 of `0x05001008` onwards (13). -/
def Reg.FGE_SRATE_RATE0 : Fld := ⟨671121472, 16, 512, 1, 0, 32, .srw, false, 429496730, false⟩
/-- FGE_SNET.NETLAT, bits 31:16 of `0x0500100C` onwards (R334). -/
def Reg.FGE_SNET_NETLAT : Fld := ⟨671121520, 16, 512, 1, 0, 16, .srw, false, 150, false⟩
/-- FGE_SNET.RELTOL, bits 15:0 of `0x0500100C` onwards (R334). -/
def Reg.FGE_SNET_RELTOL : Fld := ⟨671121504, 16, 512, 1, 0, 16, .srw, false, 1000, false⟩
/-- FGE_SGAIN.EVTHR, bits 31:24 of `0x05001010` onwards (13). -/
def Reg.FGE_SGAIN_EVTHR : Fld := ⟨671121560, 16, 512, 1, 0, 8, .srw, false, 64, false⟩
/-- FGE_SGAIN.EVCH, bits 21:16 of `0x05001010` onwards (13). -/
def Reg.FGE_SGAIN_EVCH : Fld := ⟨671121552, 16, 512, 1, 0, 6, .srw, false, 0, false⟩
/-- FGE_SGAIN.KR, bits 11:8 of `0x05001010` onwards (13). -/
def Reg.FGE_SGAIN_KR : Fld := ⟨671121544, 16, 512, 1, 0, 4, .srw, false, 8, false⟩
/-- FGE_SGAIN.KO, bits 3:0 of `0x05001010` onwards (13). -/
def Reg.FGE_SGAIN_KO : Fld := ⟨671121536, 16, 512, 1, 0, 4, .srw, false, 2, false⟩
/-- FGE_SEXT_X.X, bits 31:0 of `0x05001014` onwards (13). -/
def Reg.FGE_SEXT_X_X : Fld := ⟨671121568, 16, 512, 1, 0, 32, .srw, false, 0, false⟩
/-- FGE_SEXT_Y.Y, bits 31:0 of `0x05001018` onwards (13). -/
def Reg.FGE_SEXT_Y_Y : Fld := ⟨671121600, 16, 512, 1, 0, 32, .srw, false, 0, false⟩
/-- FGE_SEXT_YAW.YAW, bits 31:0 of `0x0500101C` onwards (13). -/
def Reg.FGE_SEXT_YAW_YAW : Fld := ⟨671121632, 16, 512, 1, 0, 32, .srw, false, 0, false⟩
/-- FGE_SCAL_X.X, bits 31:0 of `0x05001020` onwards (R349). -/
def Reg.FGE_SCAL_X_X : Fld := ⟨671121664, 16, 512, 1, 0, 32, .lro, false, 0, true⟩
/-- FGE_SCAL_Y.Y, bits 31:0 of `0x05001024` onwards (R349). -/
def Reg.FGE_SCAL_Y_Y : Fld := ⟨671121696, 16, 512, 1, 0, 32, .lro, false, 0, true⟩
/-- FGE_SCAL_YAW.YAW, bits 31:0 of `0x05001028` onwards (13). -/
def Reg.FGE_SCAL_YAW_YAW : Fld := ⟨671121728, 16, 512, 1, 0, 32, .lro, false, 0, true⟩
/-- FGE_SSTAT.INCOMPLETE, bits 31:24 of `0x0500102C` onwards (R338). -/
def Reg.FGE_SSTAT_INCOMPLETE : Fld := ⟨671121784, 16, 512, 1, 0, 8, .lro, false, 0, true⟩
/-- FGE_SSTAT.QCNT, bits 23:16 of `0x0500102C` onwards (13). -/
def Reg.FGE_SSTAT_QCNT : Fld := ⟨671121776, 16, 512, 1, 0, 8, .lro, false, 0, true⟩
/-- FGE_SSTAT.CALLIM, bits 12:12 of `0x0500102C` onwards (13). -/
def Reg.FGE_SSTAT_CALLIM : Fld := ⟨671121772, 16, 512, 1, 0, 1, .lw1c, false, 0, true⟩
/-- FGE_SSTAT.GOOD, bits 11:8 of `0x0500102C` onwards (13). -/
def Reg.FGE_SSTAT_GOOD : Fld := ⟨671121768, 16, 512, 1, 0, 4, .lro, false, 0, true⟩
/-- FGE_SSTAT.STATE, bits 1:0 of `0x0500102C` onwards (13). -/
def Reg.FGE_SSTAT_STATE : Fld := ⟨671121760, 16, 512, 1, 0, 2, .lro, false, 0, true⟩
/-- FGE_SOFF_LO.SOFF, bits 31:0 of `0x05001030` onwards (13). -/
def Reg.FGE_SOFF_LO_SOFF : Fld := ⟨671121792, 16, 512, 1, 0, 32, .lro, false, 0, false⟩
/-- FGE_SOFF_HI.SOFF, bits 31:0 of `0x05001034` onwards (13). -/
def Reg.FGE_SOFF_HI_SOFF : Fld := ⟨671121824, 16, 512, 1, 0, 32, .lro, false, 0, false⟩
/-- FGE_SREF_LO.SREF, bits 31:0 of `0x05001038` onwards (13). -/
def Reg.FGE_SREF_LO_SREF : Fld := ⟨671121856, 16, 512, 1, 0, 32, .lro, false, 0, false⟩
/-- FGE_SREF_HI.SREF, bits 31:0 of `0x0500103C` onwards (13). -/
def Reg.FGE_SREF_HI_SREF : Fld := ⟨671121888, 16, 512, 1, 0, 32, .lro, false, 0, false⟩
/-- DSP_CFG.LIMIT, bits 31:20 of `0x05000800` onwards (13). -/
def Reg.DSP_CFG_LIMIT : Fld := ⟨671105044, 8, 64, 1, 0, 12, .srw, false, 0, false⟩
/-- DSP_CFG.TGTONLY, bits 18:18 of `0x05000800` onwards (13). -/
def Reg.DSP_CFG_TGTONLY : Fld := ⟨671105042, 8, 64, 1, 0, 1, .srw, false, 0, false⟩
/-- DSP_CFG.SCOPE, bits 16:0 of `0x05000800` onwards (13). -/
def Reg.DSP_CFG_SCOPE : Fld := ⟨671105024, 8, 64, 1, 0, 17, .srw, false, 0, false⟩
/-- DSP_STAT.AGE, bits 31:16 of `0x05000804` onwards (13). -/
def Reg.DSP_STAT_AGE : Fld := ⟨671105072, 8, 64, 1, 0, 16, .lro, false, 0, true⟩
/-- DSP_STAT.PROG, bits 3:3 of `0x05000804` onwards (13). -/
def Reg.DSP_STAT_PROG : Fld := ⟨671105059, 8, 64, 1, 0, 1, .lro, false, 0, true⟩
/-- DSP_STAT.DEV, bits 2:2 of `0x05000804` onwards (13). -/
def Reg.DSP_STAT_DEV : Fld := ⟨671105058, 8, 64, 1, 0, 1, .lro, false, 0, true⟩
/-- DSP_STAT.STATE, bits 1:0 of `0x05000804` onwards (13). -/
def Reg.DSP_STAT_STATE : Fld := ⟨671105056, 8, 64, 1, 0, 2, .lro, false, 0, true⟩
/-- DSP_ASSERT.Q, bits 7:0 of `0x05000880` (R357). -/
def Reg.DSP_ASSERT_Q : Fld := ⟨671106048, 1, 0, 1, 0, 8, .lrw, false, 0, false⟩
/-- SIN_PCFG.EN, bits 31:31 of `0x07000000` onwards (R385). -/
def Reg.SIN_PCFG_EN : Fld := ⟨939524127, 24, 128, 1, 0, 1, .srw, false, 0, false⟩
/-- SIN_PCFG.EDGE, bits 29:28 of `0x07000000` onwards (14). -/
def Reg.SIN_PCFG_EDGE : Fld := ⟨939524124, 24, 128, 1, 0, 2, .srw, false, 1, false⟩
/-- SIN_PCFG.QUAD, bits 24:24 of `0x07000000` onwards (R386). -/
def Reg.SIN_PCFG_QUAD : Fld := ⟨939524120, 24, 128, 1, 0, 1, .srw, false, 0, false⟩
/-- SIN_PCFG.GLITCH, bits 7:0 of `0x07000000` onwards (14). -/
def Reg.SIN_PCFG_GLITCH : Fld := ⟨939524096, 24, 128, 1, 0, 8, .srw, false, 4, false⟩
/-- SIN_PSTAT.QERR, bits 1:1 of `0x07000004` onwards (14). -/
def Reg.SIN_PSTAT_QERR : Fld := ⟨939524129, 24, 128, 1, 0, 1, .lw1c, false, 0, true⟩
/-- SIN_PSTAT.LEVEL, bits 0:0 of `0x07000004` onwards (14). -/
def Reg.SIN_PSTAT_LEVEL : Fld := ⟨939524128, 24, 128, 1, 0, 1, .lro, false, 0, true⟩
/-- SIN_PCNT.CNT, bits 31:0 of `0x07000008` onwards (14). -/
def Reg.SIN_PCNT_CNT : Fld := ⟨939524160, 24, 128, 1, 0, 32, .lro, false, 0, true⟩
/-- SIN_ACFG.EN, bits 31:31 of `0x07000200` onwards (R388). -/
def Reg.SIN_ACFG_EN : Fld := ⟨939528223, 16, 64, 1, 0, 1, .srw, false, 0, false⟩
/-- SIN_ATIME.APH, bits 31:16 of `0x07000204` onwards (14). -/
def Reg.SIN_ATIME_APH : Fld := ⟨939528240, 16, 64, 1, 0, 16, .srw, false, 0, false⟩
/-- SIN_ATIME.APER, bits 15:0 of `0x07000204` onwards (14). -/
def Reg.SIN_ATIME_APER : Fld := ⟨939528224, 16, 64, 1, 0, 16, .srw, false, 100, false⟩
/-- SIN_ICFG.EN, bits 31:31 of `0x07000400` (R389). -/
def Reg.SIN_ICFG_EN : Fld := ⟨939532319, 1, 0, 1, 0, 1, .srw, false, 0, false⟩
/-- SIN_ICFG.DRPOL, bits 30:30 of `0x07000400` (14). -/
def Reg.SIN_ICFG_DRPOL : Fld := ⟨939532318, 1, 0, 1, 0, 1, .srw, false, 0, false⟩
/-- SIN_ICFG.CPOL, bits 29:29 of `0x07000400` (14). -/
def Reg.SIN_ICFG_CPOL : Fld := ⟨939532317, 1, 0, 1, 0, 1, .srw, false, 0, false⟩
/-- SIN_ICFG.CPHA, bits 28:28 of `0x07000400` (14). -/
def Reg.SIN_ICFG_CPHA : Fld := ⟨939532316, 1, 0, 1, 0, 1, .srw, false, 0, false⟩
/-- SIN_ICFG.NCMD, bits 26:24 of `0x07000400` (14). -/
def Reg.SIN_ICFG_NCMD : Fld := ⟨939532312, 1, 0, 1, 0, 3, .srw, false, 0, false⟩
/-- SIN_ICFG.WIN, bits 23:16 of `0x07000400` (14). -/
def Reg.SIN_ICFG_WIN : Fld := ⟨939532304, 1, 0, 1, 0, 8, .srw, false, 20, false⟩
/-- SIN_ICFG.DIV, bits 15:8 of `0x07000400` (14). -/
def Reg.SIN_ICFG_DIV : Fld := ⟨939532296, 1, 0, 1, 0, 8, .srw, false, 19, false⟩
/-- SIN_ICMD.CMD, bits 31:0 of `0x07000404` (14). -/
def Reg.SIN_ICMD_CMD : Fld := ⟨939532320, 1, 0, 1, 0, 32, .srw, false, 0, false⟩
/-- SIN_ISYNC.EN, bits 31:31 of `0x07000408` (R390). -/
def Reg.SIN_ISYNC_EN : Fld := ⟨939532383, 1, 0, 1, 0, 1, .srw, false, 0, false⟩
/-- SIN_ISYNC.WIDTH, bits 30:16 of `0x07000408` (14). -/
def Reg.SIN_ISYNC_WIDTH : Fld := ⟨939532368, 1, 0, 1, 0, 15, .srw, false, 10, false⟩
/-- SIN_ISYNC.SPER, bits 15:0 of `0x07000408` (14). -/
def Reg.SIN_ISYNC_SPER : Fld := ⟨939532352, 1, 0, 1, 0, 16, .srw, false, 100, false⟩
/-- SIN_ISTAT.LATE, bits 31:16 of `0x0700040C` (14). -/
def Reg.SIN_ISTAT_LATE : Fld := ⟨939532400, 1, 0, 1, 0, 16, .lro, false, 0, true⟩
/-- SIN_ISTAT.OVLP, bits 15:0 of `0x0700040C` (14). -/
def Reg.SIN_ISTAT_OVLP : Fld := ⟨939532384, 1, 0, 1, 0, 16, .lro, false, 0, true⟩
/-- CAN_CCFG.EN, bits 31:31 of `0x06000000` onwards (14). -/
def Reg.CAN_CCFG_EN : Fld := ⟨805306399, 4, 32768, 1, 0, 1, .srw, false, 0, false⟩
/-- CAN_CCFG.MODE, bits 30:28 of `0x06000000` onwards (14). -/
def Reg.CAN_CCFG_MODE : Fld := ⟨805306396, 4, 32768, 1, 0, 3, .srw, false, 0, false⟩
/-- CAN_CCFG.FDEN, bits 24:24 of `0x06000000` onwards (14). -/
def Reg.CAN_CCFG_FDEN : Fld := ⟨805306392, 4, 32768, 1, 0, 1, .srw, false, 0, false⟩
/-- CAN_CCFG.AUTOREC, bits 23:23 of `0x06000000` onwards (R377). -/
def Reg.CAN_CCFG_AUTOREC : Fld := ⟨805306391, 4, 32768, 1, 0, 1, .srw, false, 0, false⟩
/-- CAN_CCFG.MAXAGE, bits 15:8 of `0x06000000` onwards (14). -/
def Reg.CAN_CCFG_MAXAGE : Fld := ⟨805306376, 4, 32768, 1, 0, 8, .srw, false, 10, false⟩
/-- CAN_NBT.BRP_M1, bits 31:24 of `0x06000004` onwards (R362). -/
def Reg.CAN_NBT_BRP_M1 : Fld := ⟨805306424, 4, 32768, 1, 0, 8, .srw, false, 15, false⟩
/-- CAN_NBT.TSEG1_M1, bits 23:16 of `0x06000004` onwards (R362). -/
def Reg.CAN_NBT_TSEG1_M1 : Fld := ⟨805306416, 4, 32768, 1, 0, 8, .srw, false, 14, false⟩
/-- CAN_NBT.TSEG2_M1, bits 14:8 of `0x06000004` onwards (R362). -/
def Reg.CAN_NBT_TSEG2_M1 : Fld := ⟨805306408, 4, 32768, 1, 0, 7, .srw, false, 3, false⟩
/-- CAN_NBT.SJW_M1, bits 6:0 of `0x06000004` onwards (R362). -/
def Reg.CAN_NBT_SJW_M1 : Fld := ⟨805306400, 4, 32768, 1, 0, 7, .srw, false, 0, false⟩
/-- CAN_DBT.BRP_M1, bits 31:24 of `0x06000008` onwards (14). -/
def Reg.CAN_DBT_BRP_M1 : Fld := ⟨805306456, 4, 32768, 1, 0, 8, .srw, false, 0, false⟩
/-- CAN_DBT.TSEG1_M1, bits 20:16 of `0x06000008` onwards (14). -/
def Reg.CAN_DBT_TSEG1_M1 : Fld := ⟨805306448, 4, 32768, 1, 0, 5, .srw, false, 11, false⟩
/-- CAN_DBT.TSEG2_M1, bits 11:8 of `0x06000008` onwards (14). -/
def Reg.CAN_DBT_TSEG2_M1 : Fld := ⟨805306440, 4, 32768, 1, 0, 4, .srw, false, 3, false⟩
/-- CAN_DBT.SJW_M1, bits 3:0 of `0x06000008` onwards (14). -/
def Reg.CAN_DBT_SJW_M1 : Fld := ⟨805306432, 4, 32768, 1, 0, 4, .srw, false, 3, false⟩
/-- CAN_TDC.EN, bits 31:31 of `0x0600000C` onwards (14). -/
def Reg.CAN_TDC_EN : Fld := ⟨805306495, 4, 32768, 1, 0, 1, .srw, false, 0, false⟩
/-- CAN_TDC.TDCO, bits 6:0 of `0x0600000C` onwards (14). -/
def Reg.CAN_TDC_TDCO : Fld := ⟨805306464, 4, 32768, 1, 0, 7, .srw, false, 0, false⟩
/-- CAN_EWARN.TEC_W, bits 15:8 of `0x06000010` onwards (14). -/
def Reg.CAN_EWARN_TEC_W : Fld := ⟨805306504, 4, 32768, 1, 0, 8, .srw, false, 96, false⟩
/-- CAN_EWARN.REC_W, bits 7:0 of `0x06000010` onwards (14). -/
def Reg.CAN_EWARN_REC_W : Fld := ⟨805306496, 4, 32768, 1, 0, 8, .srw, false, 96, false⟩
/-- CAN_CTL.RECOVER, bits 0:0 of `0x06000014` onwards (14). -/
def Reg.CAN_CTL_RECOVER : Fld := ⟨805306528, 4, 32768, 1, 0, 1, .lwo, false, 0, false⟩
/-- CAN_ESTAT.REC, bits 31:24 of `0x06000018` onwards (R376). -/
def Reg.CAN_ESTAT_REC : Fld := ⟨805306584, 4, 32768, 1, 0, 8, .lro, false, 0, false⟩
/-- CAN_ESTAT.TEC, bits 16:8 of `0x06000018` onwards (R376). -/
def Reg.CAN_ESTAT_TEC : Fld := ⟨805306568, 4, 32768, 1, 0, 9, .lro, false, 0, false⟩
/-- CAN_ESTAT.STATE, bits 2:0 of `0x06000018` onwards (R376). -/
def Reg.CAN_ESTAT_STATE : Fld := ⟨805306560, 4, 32768, 1, 0, 3, .lro, false, 5, false⟩
/-- CAN_RXWR.WR, bits 31:0 of `0x0600001C` onwards (14). -/
def Reg.CAN_RXWR_WR : Fld := ⟨805306592, 4, 32768, 1, 0, 32, .lro, false, 0, true⟩
/-- CAN_RXRD.RD, bits 31:0 of `0x06000020` onwards (R368). -/
def Reg.CAN_RXRD_RD : Fld := ⟨805306624, 4, 32768, 1, 0, 32, .lrw, false, 0, true⟩
/-- CAN_RXSTAT.OVRCNT, bits 31:16 of `0x06000024` onwards (14). -/
def Reg.CAN_RXSTAT_OVRCNT : Fld := ⟨805306672, 4, 32768, 1, 0, 16, .lro, false, 0, false⟩
/-- CAN_RXSTAT.AGEREJ, bits 15:4 of `0x06000024` onwards (14). -/
def Reg.CAN_RXSTAT_AGEREJ : Fld := ⟨805306660, 4, 32768, 1, 0, 12, .lro, false, 0, false⟩
/-- CAN_RXSTAT.TXREJ, bits 1:1 of `0x06000024` onwards (14). -/
def Reg.CAN_RXSTAT_TXREJ : Fld := ⟨805306657, 4, 32768, 1, 0, 1, .lw1c, false, 0, false⟩
/-- CAN_RXSTAT.RDREJ, bits 0:0 of `0x06000024` onwards (14). -/
def Reg.CAN_RXSTAT_RDREJ : Fld := ⟨805306656, 4, 32768, 1, 0, 1, .lw1c, false, 0, false⟩
/-- CAN_TXREQ.REQ, bits 31:0 of `0x06000028` onwards (14). -/
def Reg.CAN_TXREQ_REQ : Fld := ⟨805306688, 4, 32768, 1, 0, 32, .lwo, false, 0, false⟩
/-- CAN_TXABORT.ABT, bits 31:0 of `0x0600002C` onwards (R373). -/
def Reg.CAN_TXABORT_ABT : Fld := ⟨805306720, 4, 32768, 1, 0, 32, .lwo, false, 0, false⟩
/-- CAN_KWST.DROP, bits 31:16 of `0x06000040` onwards (14). -/
def Reg.CAN_KWST_DROP : Fld := ⟨805306896, 4, 32768, 1, 0, 16, .lro, false, 0, false⟩
/-- CAN_KWST.QUEUED, bits 4:0 of `0x06000040` onwards (14). -/
def Reg.CAN_KWST_QUEUED : Fld := ⟨805306880, 4, 32768, 1, 0, 5, .lro, false, 0, false⟩
/-- ETH_MACCFG.EN, bits 31:31 of `0x06100000` onwards (14). -/
def Reg.ETH_MACCFG_EN : Fld := ⟨813695007, 2, 32768, 1, 0, 1, .srw, false, 0, false⟩
/-- ETH_MACCFG.IF, bits 29:28 of `0x06100000` onwards (14). -/
def Reg.ETH_MACCFG_IF : Fld := ⟨813695004, 2, 32768, 1, 0, 2, .srw, false, 0, false⟩
/-- ETH_MACCFG.SPEED, bits 25:24 of `0x06100000` onwards (14). -/
def Reg.ETH_MACCFG_SPEED : Fld := ⟨813695000, 2, 32768, 1, 0, 2, .srw, false, 2, false⟩
/-- ETH_MACCFG.MCAST, bits 16:16 of `0x06100000` onwards (R380). -/
def Reg.ETH_MACCFG_MCAST : Fld := ⟨813694992, 2, 32768, 1, 0, 1, .srw, false, 0, false⟩
/-- ETH_MACCFG.MAXAGE, bits 15:8 of `0x06100000` onwards (14). -/
def Reg.ETH_MACCFG_MAXAGE : Fld := ⟨813694984, 2, 32768, 1, 0, 8, .srw, false, 10, false⟩
/-- ETH_MACADDR_LO.ADDR, bits 31:0 of `0x06100004` onwards (14). -/
def Reg.ETH_MACADDR_LO_ADDR : Fld := ⟨813695008, 2, 32768, 1, 0, 32, .srw, false, 0, false⟩
/-- ETH_MACADDR_HI.ADDR, bits 15:0 of `0x06100008` onwards (14). -/
def Reg.ETH_MACADDR_HI_ADDR : Fld := ⟨813695040, 2, 32768, 1, 0, 16, .srw, false, 0, false⟩
/-- ETH_IPV4.IP, bits 31:0 of `0x0610000C` onwards (14). -/
def Reg.ETH_IPV4_IP : Fld := ⟨813695072, 2, 32768, 1, 0, 32, .srw, false, 0, false⟩
/-- ETH_LAT.RXLAT, bits 31:16 of `0x06100010` onwards (R379). -/
def Reg.ETH_LAT_RXLAT : Fld := ⟨813695120, 2, 32768, 1, 0, 16, .srw, false, 0, false⟩
/-- ETH_LAT.TXLAT, bits 15:0 of `0x06100010` onwards (R379). -/
def Reg.ETH_LAT_TXLAT : Fld := ⟨813695104, 2, 32768, 1, 0, 16, .srw, false, 0, false⟩
/-- ETH_PTPCFG.GM_EN, bits 31:31 of `0x06100014` onwards (R383). -/
def Reg.ETH_PTPCFG_GM_EN : Fld := ⟨813695167, 2, 32768, 1, 0, 1, .srw, false, 0, false⟩
/-- ETH_PTPCFG.PDELAY_EN, bits 30:30 of `0x06100014` onwards (R383). -/
def Reg.ETH_PTPCFG_PDELAY_EN : Fld := ⟨813695166, 2, 32768, 1, 0, 1, .srw, false, 0, false⟩
/-- ETH_PTPCFG.LOGSYNC, bits 3:0 of `0x06100014` onwards (R383). -/
def Reg.ETH_PTPCFG_LOGSYNC : Fld := ⟨813695136, 2, 32768, 1, 0, 4, .srw, false, 13, false⟩
/-- ETH_CLKID_LO.ID, bits 31:0 of `0x06100018` onwards (14). -/
def Reg.ETH_CLKID_LO_ID : Fld := ⟨813695168, 2, 32768, 1, 0, 32, .srw, false, 0, false⟩
/-- ETH_CLKID_HI.ID, bits 31:0 of `0x0610001C` onwards (14). -/
def Reg.ETH_CLKID_HI_ID : Fld := ⟨813695200, 2, 32768, 1, 0, 32, .srw, false, 0, false⟩
/-- ETH_RXWR.WR, bits 31:0 of `0x06100020` onwards (14). -/
def Reg.ETH_RXWR_WR : Fld := ⟨813695232, 2, 32768, 1, 0, 32, .lro, false, 0, true⟩
/-- ETH_RXRD.RD, bits 31:0 of `0x06100024` onwards (14). -/
def Reg.ETH_RXRD_RD : Fld := ⟨813695264, 2, 32768, 1, 0, 32, .lrw, false, 0, true⟩
/-- ETH_TXREQ.REQ, bits 15:0 of `0x06100028` onwards (14). -/
def Reg.ETH_TXREQ_REQ : Fld := ⟨813695296, 2, 32768, 1, 0, 16, .lwo, false, 0, false⟩
/-- ETH_CNT.DROP_FILTER, bits 31:16 of `0x06100030` onwards (R378). -/
def Reg.ETH_CNT_DROP_FILTER : Fld := ⟨813695376, 2, 32768, 1, 0, 16, .lro, false, 0, false⟩
/-- ETH_CNT.DROP_ERR, bits 15:0 of `0x06100030` onwards (R378). -/
def Reg.ETH_CNT_DROP_ERR : Fld := ⟨813695360, 2, 32768, 1, 0, 16, .lro, false, 0, false⟩
/-- ETH_LINK.UP, bits 2:2 of `0x06100034` onwards (14). -/
def Reg.ETH_LINK_UP : Fld := ⟨813695394, 2, 32768, 1, 0, 1, .lro, false, 0, false⟩
/-- ETH_LINK.SPEED, bits 1:0 of `0x06100034` onwards (14). -/
def Reg.ETH_LINK_SPEED : Fld := ⟨813695392, 2, 32768, 1, 0, 2, .lro, false, 0, false⟩
/-- ETH_MDIO_CMD.GO, bits 31:31 of `0x06100040` onwards (14). -/
def Reg.ETH_MDIO_CMD_GO : Fld := ⟨813695519, 2, 32768, 1, 0, 1, .lrw, false, 0, false⟩
/-- ETH_MDIO_CMD.OP, bits 29:28 of `0x06100040` onwards (14). -/
def Reg.ETH_MDIO_CMD_OP : Fld := ⟨813695516, 2, 32768, 1, 0, 2, .lrw, false, 0, false⟩
/-- ETH_MDIO_CMD.PHYAD, bits 25:21 of `0x06100040` onwards (14). -/
def Reg.ETH_MDIO_CMD_PHYAD : Fld := ⟨813695509, 2, 32768, 1, 0, 5, .lrw, false, 0, false⟩
/-- ETH_MDIO_CMD.DEVAD, bits 20:16 of `0x06100040` onwards (14). -/
def Reg.ETH_MDIO_CMD_DEVAD : Fld := ⟨813695504, 2, 32768, 1, 0, 5, .lrw, false, 0, false⟩
/-- ETH_MDIO_CMD.DATA, bits 15:0 of `0x06100040` onwards (14). -/
def Reg.ETH_MDIO_CMD_DATA : Fld := ⟨813695488, 2, 32768, 1, 0, 16, .lrw, false, 0, false⟩
/-- ETH_MDIO_DATA.BUSY, bits 31:31 of `0x06100044` onwards (14). -/
def Reg.ETH_MDIO_DATA_BUSY : Fld := ⟨813695551, 2, 32768, 1, 0, 1, .lro, false, 0, false⟩
/-- ETH_MDIO_DATA.DATA, bits 15:0 of `0x06100044` onwards (14). -/
def Reg.ETH_MDIO_DATA_DATA : Fld := ⟨813695520, 2, 32768, 1, 0, 16, .lro, false, 0, false⟩
/-- SYS_AON_PRES.STATE, bits 9:8 of `0x00000114` (15). -/
def Reg.SYS_AON_PRES_STATE : Fld := ⟨2216, 1, 0, 1, 0, 2, .lro, false, 0, false⟩
/-- SYS_AON_PRES.REMAIN, bits 6:0 of `0x00000114` (15). -/
def Reg.SYS_AON_PRES_REMAIN : Fld := ⟨2208, 1, 0, 1, 0, 7, .lro, false, 0, false⟩
/-- SYS_AON_SEAL.CLR, bits 31:31 of `0x00000118` (R412). -/
def Reg.SYS_AON_SEAL_CLR : Fld := ⟨2271, 1, 0, 1, 0, 1, .lwo, false, 0, false⟩
/-- SYS_AON_SEAL.CLR_REJ, bits 2:2 of `0x00000118` (15). -/
def Reg.SYS_AON_SEAL_CLR_REJ : Fld := ⟨2242, 1, 0, 1, 0, 1, .lw1c, false, 0, false⟩
/-- SYS_AON_SEAL.OPEN, bits 1:1 of `0x00000118` (R410). -/
def Reg.SYS_AON_SEAL_OPEN : Fld := ⟨2241, 1, 0, 1, 0, 1, .lro, false, 0, false⟩
/-- SYS_AON_SEAL.SEAL_BROKEN, bits 0:0 of `0x00000118` (15). -/
def Reg.SYS_AON_SEAL_SEAL_BROKEN : Fld := ⟨2240, 1, 0, 1, 0, 1, .lro, false, 1, false⟩
/-- SEM_CTL.FORCE, bits 31:31 of `0x00008000` onwards (R399). -/
def Reg.SEM_CTL_FORCE : Fld := ⟨262175, 32, 32, 1, 0, 1, .lwo, false, 0, false⟩
/-- SEM_CTL.REL, bits 30:30 of `0x00008000` onwards (R399). -/
def Reg.SEM_CTL_REL : Fld := ⟨262174, 32, 32, 1, 0, 1, .lwo, false, 0, false⟩
/-- SEM_CTL.TAKE, bits 29:29 of `0x00008000` onwards (R399). -/
def Reg.SEM_CTL_TAKE : Fld := ⟨262173, 32, 32, 1, 0, 1, .lwo, false, 0, false⟩
/-- SEM_CTL.OWNER, bits 7:0 of `0x00008000` onwards (15). -/
def Reg.SEM_CTL_OWNER : Fld := ⟨262144, 32, 32, 1, 0, 8, .lro, false, 0, true⟩
/-- SKN_CTL.OP, bits 1:0 of `0x00010000` (15). -/
def Reg.SKN_CTL_OP : Fld := ⟨524288, 1, 0, 1, 0, 2, .lwo, false, 0, false⟩
/-- SKN_ROW.ROW, bits 31:0 of `0x00010004` (R403). -/
def Reg.SKN_ROW_ROW : Fld := ⟨524320, 1, 0, 1, 0, 32, .lrw, false, 0, false⟩
/-- SKN_STAT.WREJ, bits 5:5 of `0x00010008` (R401). -/
def Reg.SKN_STAT_WREJ : Fld := ⟨524357, 1, 0, 1, 0, 1, .lw1c, false, 0, false⟩
/-- SKN_STAT.PRV_VALID, bits 4:4 of `0x00010008` (R401). -/
def Reg.SKN_STAT_PRV_VALID : Fld := ⟨524356, 1, 0, 1, 0, 1, .lro, false, 0, true⟩
/-- SKN_STAT.PENDING, bits 1:1 of `0x00010008` (R401). -/
def Reg.SKN_STAT_PENDING : Fld := ⟨524353, 1, 0, 1, 0, 1, .lro, false, 0, true⟩
/-- SKN_STAT.STG_READY, bits 0:0 of `0x00010008` (R401). -/
def Reg.SKN_STAT_STG_READY : Fld := ⟨524352, 1, 0, 1, 0, 1, .lro, false, 0, true⟩
/-- SKN_CHK.CODE, bits 31:24 of `0x0001000C` (R403). -/
def Reg.SKN_CHK_CODE : Fld := ⟨524408, 1, 0, 1, 0, 8, .lro, false, 0, false⟩
/-- SKN_CHKADDR.ADDR, bits 31:0 of `0x00010010` (15). -/
def Reg.SKN_CHKADDR_ADDR : Fld := ⟨524416, 1, 0, 1, 0, 32, .lro, false, 0, false⟩
/-- SKN_VER.VER, bits 31:0 of `0x00010014` (15). -/
def Reg.SKN_VER_VER : Fld := ⟨524448, 1, 0, 1, 0, 32, .srw, false, 0, false⟩
/-- SKN_VACT.VER, bits 31:0 of `0x00010018` (15). -/
def Reg.SKN_VACT_VER : Fld := ⟨524480, 1, 0, 1, 0, 32, .lro, false, 0, true⟩
/-- SKN_VPRV.VER, bits 31:0 of `0x0001001C` (15). -/
def Reg.SKN_VPRV_VER : Fld := ⟨524512, 1, 0, 1, 0, 32, .lro, false, 0, false⟩
/-- SKN_VMAX.VER, bits 31:0 of `0x00010020` (15). -/
def Reg.SKN_VMAX_VER : Fld := ⟨524544, 1, 0, 1, 0, 32, .lro, false, 0, false⟩
/-- SKN_BASE.BASE, bits 27:0 of `0x00010024` (15). -/
def Reg.SKN_BASE_BASE : Fld := ⟨524576, 1, 0, 1, 0, 28, .lro, false, 0, false⟩
/-- SKN_SLOTS.STG, bits 5:4 of `0x00010028` (15). -/
def Reg.SKN_SLOTS_STG : Fld := ⟨524612, 1, 0, 1, 0, 2, .lro, false, 1, false⟩
/-- SKN_SLOTS.PRV, bits 3:2 of `0x00010028` (15). -/
def Reg.SKN_SLOTS_PRV : Fld := ⟨524610, 1, 0, 1, 0, 2, .lro, false, 2, false⟩
/-- SKN_SLOTS.ACT, bits 1:0 of `0x00010028` (15). -/
def Reg.SKN_SLOTS_ACT : Fld := ⟨524608, 1, 0, 1, 0, 2, .lro, false, 0, false⟩
/-- SKN_PPAGE.PAGE, bits 10:8 of `0x00010030` (R401). -/
def Reg.SKN_PPAGE_PAGE : Fld := ⟨524680, 1, 0, 1, 0, 3, .lrw, false, 0, false⟩
/-- SKN_PPAGE.CORE, bits 2:0 of `0x00010030` (R401). -/
def Reg.SKN_PPAGE_CORE : Fld := ⟨524672, 1, 0, 1, 0, 3, .lrw, false, 0, false⟩
/-- SKN_PIMG.KEEP_DATA, bits 31:31 of `0x00010040` onwards (R402). -/
def Reg.SKN_PIMG_KEEP_DATA : Fld := ⟨524831, 8, 32, 1, 0, 1, .srw, false, 0, false⟩
/-- SKN_PIMG.DLEN, bits 27:16 of `0x00010040` onwards (R402). -/
def Reg.SKN_PIMG_DLEN : Fld := ⟨524816, 8, 32, 1, 0, 12, .srw, false, 0, false⟩
/-- SKN_LIVE.ADDR, bits 31:0 of `0x00011000` onwards (R408). -/
def Reg.SKN_LIVE_ADDR : Fld := ⟨557056, 64, 64, 1, 0, 32, .srw, false, 0, false⟩
/-- SKN_LIVE_V.VALUE, bits 31:0 of `0x00011004` onwards (R408). -/
def Reg.SKN_LIVE_V_VALUE : Fld := ⟨557088, 64, 64, 1, 0, 32, .srw, false, 0, false⟩
/-- HP_CFG.DUMMY, bits 12:8 of `0x00020000` onwards (R460). -/
def Reg.HP_CFG_DUMMY : Fld := ⟨1048584, 2, 2048, 1, 0, 5, .lrw, false, 20, false⟩
/-- HP_CFG.SVIEW, bits 1:1 of `0x00020000` onwards (R460). -/
def Reg.HP_CFG_SVIEW : Fld := ⟨1048577, 2, 2048, 1, 0, 1, .lrw, false, 0, false⟩
/-- HP_CFG.OCT, bits 0:0 of `0x00020000` onwards (R460). -/
def Reg.HP_CFG_OCT : Fld := ⟨1048576, 2, 2048, 1, 0, 1, .lro, false, 0, false⟩
/-- HP_STAT.SLOWRD, bits 3:3 of `0x00020004` onwards (R393). -/
def Reg.HP_STAT_SLOWRD : Fld := ⟨1048611, 2, 2048, 1, 0, 1, .lw1c, false, 0, false⟩
/-- HP_STAT.PARTIAL, bits 2:2 of `0x00020004` onwards (R393). -/
def Reg.HP_STAT_PARTIAL : Fld := ⟨1048610, 2, 2048, 1, 0, 1, .lw1c, false, 0, false⟩
/-- HP_STAT.ALIGN, bits 1:1 of `0x00020004` onwards (R393). -/
def Reg.HP_STAT_ALIGN : Fld := ⟨1048609, 2, 2048, 1, 0, 1, .lw1c, false, 0, false⟩
/-- HP_STAT.BADCMD, bits 0:0 of `0x00020004` onwards (R393). -/
def Reg.HP_STAT_BADCMD : Fld := ⟨1048608, 2, 2048, 1, 0, 1, .lw1c, false, 0, false⟩
/-- HP_HB.HB, bits 31:0 of `0x00020008` onwards (R421). -/
def Reg.HP_HB_HB : Fld := ⟨1048640, 2, 2048, 1, 0, 32, .lwo, false, 0, false⟩
/-- HP_HBLAST_LO.STAMP, bits 31:0 of `0x0002000C` onwards (15). -/
def Reg.HP_HBLAST_LO_STAMP : Fld := ⟨1048672, 2, 2048, 1, 0, 32, .lro, false, 0, true⟩
/-- HP_HBLAST_HI.STAMP, bits 31:0 of `0x00020010` onwards (15). -/
def Reg.HP_HBLAST_HI_STAMP : Fld := ⟨1048704, 2, 2048, 1, 0, 32, .lro, false, 0, true⟩
/-- HP_HBCFG.TIMEOUT, bits 31:16 of `0x00020800` (15). -/
def Reg.HP_HBCFG_TIMEOUT : Fld := ⟨1064976, 1, 0, 1, 0, 16, .srw, false, 500, false⟩
/-- HP_HBCFG.EN, bits 1:0 of `0x00020800` (15). -/
def Reg.HP_HBCFG_EN : Fld := ⟨1064960, 1, 0, 1, 0, 2, .srw, false, 0, false⟩
/-- HP_SAFE.CLR, bits 31:31 of `0x00020804` (R422). -/
def Reg.HP_SAFE_CLR : Fld := ⟨1065023, 1, 0, 1, 0, 1, .lwo, false, 0, false⟩
/-- HP_SAFE.CLR_REJ, bits 30:30 of `0x00020804` (R422). -/
def Reg.HP_SAFE_CLR_REJ : Fld := ⟨1065022, 1, 0, 1, 0, 1, .lw1c, false, 0, false⟩
/-- HP_SAFE.SAFE, bits 0:0 of `0x00020804` (R422). -/
def Reg.HP_SAFE_SAFE : Fld := ⟨1064992, 1, 0, 1, 0, 1, .lro, false, 0, true⟩
/-- GSB_CTL.SESS_CLOSE, bits 9:9 of `0x08000000` (R415). -/
def Reg.GSB_CTL_SESS_CLOSE : Fld := ⟨1073741833, 1, 0, 1, 0, 1, .lwo, false, 0, false⟩
/-- GSB_CTL.SESS_OPEN, bits 8:8 of `0x08000000` (R415). -/
def Reg.GSB_CTL_SESS_OPEN : Fld := ⟨1073741832, 1, 0, 1, 0, 1, .lwo, false, 0, false⟩
/-- GSB_CTL.PROG, bits 0:0 of `0x08000000` (R415). -/
def Reg.GSB_CTL_PROG : Fld := ⟨1073741824, 1, 0, 1, 0, 1, .lwo, false, 0, false⟩
/-- GSB_STAT.SESS, bits 8:8 of `0x08000004` (15). -/
def Reg.GSB_STAT_SESS : Fld := ⟨1073741864, 1, 0, 1, 0, 1, .lro, false, 0, false⟩
/-- GSB_STAT.RESULT, bits 7:4 of `0x08000004` (15). -/
def Reg.GSB_STAT_RESULT : Fld := ⟨1073741860, 1, 0, 1, 0, 4, .lro, false, 0, false⟩
/-- GSB_STAT.BUSY, bits 0:0 of `0x08000004` (15). -/
def Reg.GSB_STAT_BUSY : Fld := ⟨1073741856, 1, 0, 1, 0, 1, .lro, false, 0, false⟩
/-- GSB_WCNT.N, bits 15:0 of `0x08000008` (15). -/
def Reg.GSB_WCNT_N : Fld := ⟨1073741888, 1, 0, 1, 0, 16, .lro, false, 0, false⟩
/-- GSB_BOOTCFG.WT, bits 0:0 of `0x08000010` (15). -/
def Reg.GSB_BOOTCFG_WT : Fld := ⟨1073741952, 1, 0, 1, 0, 1, .srw, true, 0, false⟩
/-- GSB_BCMD.GO, bits 31:31 of `0x08000020` (15). -/
def Reg.GSB_BCMD_GO : Fld := ⟨1073742111, 1, 0, 1, 0, 1, .lwo, false, 0, false⟩
/-- GSB_BCMD.DIR, bits 24:24 of `0x08000020` (15). -/
def Reg.GSB_BCMD_DIR : Fld := ⟨1073742104, 1, 0, 1, 0, 1, .lrw, false, 0, false⟩
/-- GSB_BCMD.NDATA, bits 20:12 of `0x08000020` (15). -/
def Reg.GSB_BCMD_NDATA : Fld := ⟨1073742092, 1, 0, 1, 0, 9, .lrw, false, 0, false⟩
/-- GSB_BCMD.ADDRLEN, bits 10:8 of `0x08000020` (15). -/
def Reg.GSB_BCMD_ADDRLEN : Fld := ⟨1073742088, 1, 0, 1, 0, 3, .lrw, false, 0, false⟩
/-- GSB_BCMD.OP, bits 7:0 of `0x08000020` (15). -/
def Reg.GSB_BCMD_OP : Fld := ⟨1073742080, 1, 0, 1, 0, 8, .lrw, false, 0, false⟩
/-- GSB_BADDR.ADDR, bits 31:0 of `0x08000024` (15). -/
def Reg.GSB_BADDR_ADDR : Fld := ⟨1073742112, 1, 0, 1, 0, 32, .lrw, false, 0, false⟩
/-- GSB_BSTAT.REJ, bits 1:1 of `0x08000028` (R420). -/
def Reg.GSB_BSTAT_REJ : Fld := ⟨1073742145, 1, 0, 1, 0, 1, .lw1c, false, 0, false⟩
/-- GSB_BSTAT.BUSY, bits 0:0 of `0x08000028` (R420). -/
def Reg.GSB_BSTAT_BUSY : Fld := ⟨1073742144, 1, 0, 1, 0, 1, .lro, false, 0, false⟩
/-- EVT_ROUTE.HPB, bits 1:1 of `0x00040000` onwards (R426). -/
def Reg.EVT_ROUTE_HPB : Fld := ⟨2097153, 128, 32, 1, 0, 1, .lrw, false, 0, false⟩
/-- EVT_ROUTE.HPA, bits 0:0 of `0x00040000` onwards (16). -/
def Reg.EVT_ROUTE_HPA : Fld := ⟨2097152, 128, 32, 1, 0, 1, .lrw, false, 0, false⟩
/-- EVT_PEND.PEND, bits 31:0 of `0x00040200` onwards (16). -/
def Reg.EVT_PEND_PEND : Fld := ⟨2101248, 2, 128, 4, 32, 32, .lw1c, false, 0, false⟩
/-- EVT_CNT.CNT, bits 15:0 of `0x00040400` onwards (R425). -/
def Reg.EVT_CNT_CNT : Fld := ⟨2105344, 128, 32, 1, 0, 16, .lro, false, 0, true⟩
/-- EVT_ARG.ARG, bits 23:0 of `0x00040600` onwards (R424). -/
def Reg.EVT_ARG_ARG : Fld := ⟨2109440, 128, 32, 1, 0, 24, .lro, false, 0, true⟩
/-- EVT_STAMP_LO.STAMP, bits 31:0 of `0x00040800` onwards (16). -/
def Reg.EVT_STAMP_LO_STAMP : Fld := ⟨2113536, 128, 64, 1, 0, 32, .lro, false, 0, true⟩
/-- EVT_STAMP_HI.STAMP, bits 31:0 of `0x00040804` onwards (16). -/
def Reg.EVT_STAMP_HI_STAMP : Fld := ⟨2113568, 128, 64, 1, 0, 32, .lro, false, 0, true⟩
/-- EVT_RAISE.PE, bits 31:0 of `0x00040C00` (R427). -/
def Reg.EVT_RAISE_PE : Fld := ⟨2121728, 1, 0, 1, 0, 32, .lwo, false, 0, false⟩
/-- SYS_TEMP.DRIVE, bits 31:16 of `0x00000070` (17). -/
def Reg.SYS_TEMP_DRIVE : Fld := ⟨912, 1, 0, 1, 0, 16, .lro, false, 0, false⟩
/-- SYS_TEMP.LOGIC, bits 15:0 of `0x00000070` (17). -/
def Reg.SYS_TEMP_LOGIC : Fld := ⟨896, 1, 0, 1, 0, 16, .lro, false, 0, false⟩
/-- CAN_TXST.ST, bits 3:0 of `0x06000030` onwards (R373). -/
def Reg.CAN_TXST_ST : Fld := ⟨805306752, 4, 32768, 32, 4, 4, .lro, false, 0, false⟩
/-- ETH_TXST.ST, bits 1:0 of `0x0610002C` onwards (R381). -/
def Reg.ETH_TXST_ST : Fld := ⟨813695328, 2, 32768, 16, 2, 2, .lro, false, 0, false⟩

/-- Register fields, part 0. -/
def regFields0 : List Fld :=
  [Reg.SYS_ID_PART, Reg.SYS_ID_SCALE, Reg.SYS_ID_SUFFIX,
   Reg.SYS_ID_STEP, Reg.SYS_FUSE_DRAM_LOG2, Reg.SYS_FUSE_CG_N,
   Reg.SYS_FUSE_GNSS_PORTS, Reg.SYS_FUSE_DX_N, Reg.SYS_FUSE_HB_N,
   Reg.SYS_FUSE_FGE_EN, Reg.SYS_FUSE_GNB_EN, Reg.SYS_MODE_LINGER,
   Reg.SYS_MODE_ROW_K, Reg.SYS_MODE_RESUME, Reg.SYS_MODE_WORK,
   Reg.SYS_MODE_CTL_PARK, Reg.SYS_MODE_CTL_RECAST, Reg.SYS_PWRSTAT_BANK_READY,
   Reg.SYS_PWRSTAT_LINGER, Reg.SYS_PWRSTAT_CAST_DONE, Reg.SYS_PWRSTAT_BINDOFF,
   Reg.SYS_PWRSTAT_CUR, Reg.SYS_CLKSTAT_AON_XTAL_OK, Reg.SYS_CLKSTAT_DL_CAL_DONE,
   Reg.SYS_CLKSTAT_DCLK_LOCK, Reg.SYS_CLKSTAT_FCLK_LOCK, Reg.SYS_CLKSTAT_TCLK_LOCK,
   Reg.SYS_CLKSTAT_REF_OK, Reg.SYS_DT_LO_DT, Reg.SYS_DT_HI_DT,
   Reg.SYS_TCLK_TRIM_TRIM, Reg.SYS_DISC_ANCHOR_LO_ANCHOR, Reg.SYS_DISC_ANCHOR_HI_ANCHOR,
   Reg.SYS_DISC_GPS_LO_GPS, Reg.SYS_DISC_GPS_HI_GPS, Reg.SYS_DISC_STAT_SRC,
   Reg.SYS_DISC_STAT_STATE, Reg.SYS_GATECFG_IDLE_ROWS, Reg.SYS_GATECFG_BANK_HOLD,
   Reg.SYS_BOOTSTAT_GAUGE_BAD]

/-- Register fields, part 1. -/
def regFields1 : List Fld :=
  [Reg.SYS_BOOTSTAT_COPY, Reg.SYS_BOOTSTAT_FAIL, Reg.SYS_AON_WAKEEN_BUSY,
   Reg.SYS_AON_WAKEEN_PI0_POL, Reg.SYS_AON_WAKEEN_CAN_SEL, Reg.SYS_AON_WAKEEN_RTC,
   Reg.SYS_AON_WAKEEN_HOSTCS, Reg.SYS_AON_WAKEEN_PI0, Reg.SYS_AON_WAKEEN_CAN,
   Reg.SYS_AON_WAKEEN_PRESENCE, Reg.SYS_AON_WAKESRC_COLD, Reg.SYS_AON_WAKESRC_SRC,
   Reg.SYS_RTC_SEC_SEC, Reg.SYS_RTC_SUB_SUB, Reg.SYS_RTC_ALARM_ALARM,
   Reg.DXC_CTL_STEP, Reg.DXC_CTL_HALT, Reg.DXC_CTL_BENCH,
   Reg.DXC_CFG_EN, Reg.DXC_BUDGET_BUDGET, Reg.DXC_ENTRY_ENTRY,
   Reg.DXC_ETASK_EN, Reg.DXC_ETASK_EV, Reg.DXC_ETASK_ENTRY,
   Reg.DXC_MBAREA_AREA, Reg.DXC_STAT_FAULT, Reg.DXC_STAT_HALTED,
   Reg.DXC_STAT_RELOAD, Reg.DXC_STAT_MBO_DROP, Reg.DXC_STAT_OUTOVF,
   Reg.DXC_STAT_LATE_SEEN, Reg.DXC_USED_USED, Reg.DXC_LATECNT_CNT,
   Reg.DXC_ROWSTAMP_LO_STAMP, Reg.DXC_ROWSTAMP_HI_STAMP, Reg.DXC_ROWNUM_ROW,
   Reg.DXC_XFER_STAT_ST, Reg.DXC_MBI_WORD, Reg.DXC_MBI_CTL_QUEUED,
   Reg.DXC_MBI_CTL_REJ]

/-- Register fields, part 2. -/
def regFields2 : List Fld :=
  [Reg.DXC_MBI_CTL_POST, Reg.DXC_MBO_WORD, Reg.DXC_MBO_CTL_SEQ,
   Reg.DXC_MBO_CTL_VALID, Reg.DXC_BRK_EN, Reg.DXC_BRK_ADDR,
   Reg.DXC_DBG_SEL_SEL, Reg.DXC_DBG_DATA_DATA, Reg.DXC_RING_BASE_BASE,
   Reg.DXC_RING_CFG_LOG2N, Reg.DXC_RING_CFG_EN, Reg.DXC_RING_WR_WR,
   Reg.DXC_RING_RD_RD, Reg.DXC_RING_STAT_OVF, Reg.DXC_RPL_CTL_FINAL,
   Reg.DXC_RPL_CTL_ARM, Reg.DXC_RPL_CTL_LOADED, Reg.DXC_RPL_CTL_GO,
   Reg.DXC_RPL_STAT_STATE, Reg.DXC_RPL_FED_FED, Reg.DXC_RPL_T0_LO_T0,
   Reg.DXC_RPL_T0_HI_T0, Reg.DXC_ROW0_LO_STAMP, Reg.DXC_ROW0_HI_STAMP,
   Reg.NB_CFG_COUNT, Reg.NB_WIN_VIEW, Reg.NB_WIN_PAGE,
   Reg.NB_STAT_DEFINED, Reg.KW_CFG_SA, Reg.KW_UDP_PORT,
   Reg.KW_SYNC_PERIOD, Reg.PLE_CFG_UNK_EXCL, Reg.PLE_CFG_MAXAGE,
   Reg.PLE_CFG_EN, Reg.PLE_PRED_AMAX, Reg.PLE_PRED_VMIN,
   Reg.PLE_TURN_KMAX, Reg.PLE_TURN_KMIN, Reg.PLE_TGT_PAD,
   Reg.PLE_RX_DEADBAND]

/-- Register fields, part 3. -/
def regFields3 : List Fld :=
  [Reg.PLE_MINRUN_MINRUN, Reg.PLE_POSE_T_LO_T, Reg.PLE_POSE_T_HI_T,
   Reg.PLE_POSE_E_E, Reg.PLE_POSE_N_N, Reg.PLE_POSE_HDG_HDG,
   Reg.PLE_POSE_SPD_SPD, Reg.PLE_POSE_ACC_ACC, Reg.PLE_POSE_YR_YR,
   Reg.PLE_POSE_CTL_STALE, Reg.PLE_POSE_CTL_VALID, Reg.PLE_POSE_CTL_REJ,
   Reg.PLE_POSE_CTL_APPLY, Reg.PLE_STAT_CARRY, Reg.PLE_STAT_EDGE_CAP,
   Reg.PLE_STAT_TGT_OVF, Reg.PLE_STAT_TRUNC, Reg.PLE_STAT_LATE,
   Reg.PLE_STAT_BUSY, Reg.PLE_WAVES_CEIL, Reg.PLE_WAVES_LAST,
   Reg.PLE_STALL_CYC, Reg.PLE_NEXT_VALID, Reg.PLE_NEXT_NODE,
   Reg.PLE_LATECNT_CNT, Reg.PLE_EVALS_CNT, Reg.PLE_QCFG_RESERVE,
   Reg.PLE_STOP_TURN_CUT, Reg.PLE_STOP_PRED_CUT, Reg.PLE_STOP_REV,
   Reg.PLE_STOP_STOP_CUT, Reg.PLE_STOP_DWELL, Reg.PLE_STOP_STOP_V,
   Reg.PLE_MOTION_STOPS, Reg.PLE_MOTION_STATE, Reg.PLE_TAIL_OFF_TAIL,
   Reg.PLE_TAIL_ON_TAIL, Reg.PLE_TRAIL_EN, Reg.PLE_TRAIL_FB_WAIT,
   Reg.PLE_QUSED_SPEC]

/-- Register fields, part 4. -/
def regFields4 : List Fld :=
  [Reg.PLE_QUSED_USED, Reg.PLE_QPEAK_PEAK, Reg.PLE_QEVT_PREF,
   Reg.PLE_QEVT_SLIP, Reg.PLE_QEVT_LATE, Reg.PLE_QEVT_RESV,
   Reg.PLE_QEVT_FULL, Reg.PLE_UNDO_FROGS, Reg.PLE_UNDO_TINKS,
   Reg.PLE_LATEISS_CNT, Reg.PLE_STILLON_T, Reg.FAB_CFG_AUTO,
   Reg.FAB_ORG_LAT_LAT, Reg.FAB_ORG_LON_LON, Reg.FAB_ORG_HGT_HGT,
   Reg.FAB_POOL_BASE_BASE, Reg.FAB_POOL_N_N, Reg.FAB_POOL_NEXT_NEXT,
   Reg.FAB_PROD_SCALE_SCALE, Reg.FAB_PROD_UNIT_UNIT, Reg.FAB_LCFG_EN,
   Reg.FAB_LCFG_CELL, Reg.FAB_LCFG_PRODUCT, Reg.FAB_LCFG_COLS_M1,
   Reg.FAB_LCFG_ROWS_M1, Reg.FAB_LORG_TX0, Reg.FAB_LORG_TY0,
   Reg.FAB_LDIR_LDIR, Reg.FAB_SWAP_A_MODE, Reg.FAB_SWAP_A_ROW,
   Reg.FAB_SWAP_A_COL, Reg.FAB_SWAP_A_LAYER, Reg.FAB_SWAP_B_ENTRY,
   Reg.FAB_SWAP_CTL_REJ, Reg.FAB_SWAP_CTL_GO, Reg.FAB_SWAP_STAT_APPLIED,
   Reg.FAB_COPY_A_ROW, Reg.FAB_COPY_A_COL, Reg.FAB_COPY_A_LAYER,
   Reg.FAB_COPY_B_DEST]

/-- Register fields, part 5. -/
def regFields5 : List Fld :=
  [Reg.FAB_COPY_CTL_REJ, Reg.FAB_COPY_CTL_GO, Reg.FAB_COPY_STAT_SEQ,
   Reg.FAB_COPY_STAT_RESULT, Reg.FAB_STAT_DIR_FAULT, Reg.FAB_STAT_TRAIL_LATE,
   Reg.FAB_STAT_TRAIL_DROP, Reg.FAB_STAT_POOL_EMPTY, Reg.FAB_CMISS_CNT,
   Reg.ETU_LOCK_LOCK, Reg.ETU_TRIPSTAT_LATCHED, Reg.ETU_TRIPSTAT_ACTIVE,
   Reg.ETU_TRIPHIT_TRIP_CLR_REJ, Reg.ETU_TRIPHIT_HIT, Reg.ETU_TRIPCLR_CLR,
   Reg.ETU_GCUT_CUT, Reg.ETU_DLSTAT_PASSES, Reg.ETU_DLSTAT_DONE,
   Reg.ETU_DLSTAT_WORST, Reg.ETU_TRIPCFG_EN, Reg.ETU_TRIPCFG_MODE,
   Reg.ETU_TRIPCFG_POL, Reg.ETU_TRIPCFG_PRE, Reg.ETU_TRIPCFG_FLT,
   Reg.ETU_TRIPMAP_MAP, Reg.ETU_GCFG_EN, Reg.ETU_GPHASE_PHASE,
   Reg.ETU_PER_PER, Reg.ETU_GSTAT_PCOUNT, Reg.ETU_GSTAT_RUN,
   Reg.ETU_GSTAT_PER_REJ, Reg.ETU_GSTAT_CUT, Reg.ETU_GSTAT_PEND,
   Reg.ETU_CA_CA, Reg.ETU_CB_CB, Reg.ETU_CHCFG_RGAIN,
   Reg.ETU_CHCFG_LU, Reg.ETU_CHCFG_FREE, Reg.ETU_CHCFG_PAIR,
   Reg.ETU_CHCFG_DSRC]

/-- Register fields, part 6. -/
def regFields6 : List Fld :=
  [Reg.ETU_CHCFG_GMODE, Reg.ETU_CHDT_DT_R, Reg.ETU_CHDT_DT_F,
   Reg.ETU_CHMP_MINP, Reg.ETU_CHSTAT_RATE, Reg.ETU_CHSTAT_DEFER,
   Reg.ETU_CHSTAT_SUPP, Reg.ETU_CHSTAT_OUT, Reg.ETU_CHSTAT_GATE,
   Reg.DSL_TRIPMAP_BANKS, Reg.DSL_BCFG_HSUSE, Reg.DSL_BCFG_PAIR,
   Reg.DSL_BCFG_PRI_FIT, Reg.DSL_BCFG_BOOST_FIT, Reg.DSL_BLIM_DRN_HI,
   Reg.DSL_BLIM_DRN_LO, Reg.DSL_BSTAT_HELD, Reg.DSL_BSTAT_PRI_ON,
   Reg.DSL_BSTAT_BOOST_ON, Reg.DSL_BSTAT_KWIN, Reg.DSL_BSTAT_WAITING,
   Reg.DSL_BSTAT_SLOW_OWN, Reg.DSL_BSTAT_BOOST_OWN, Reg.DSL_BFLT_CLR_REJ,
   Reg.DSL_BFLT_TRIP_CUT, Reg.DSL_BFLT_GDUV, Reg.DSL_BFLT_DRN_GND,
   Reg.DSL_BFLT_HS_FAULT, Reg.DSL_BCLR_CLR, Reg.DSL_SCFG_SHUNT,
   Reg.DSL_SCFG_PROF, Reg.DSL_SCFG_EN, Reg.DSL_SMAXON_MAXON,
   Reg.DSL_SOC_OC, Reg.DSL_SSTAT_CUR, Reg.DSL_SSTAT_SHARED,
   Reg.DSL_SSTAT_KWIN, Reg.DSL_SSTAT_LOCK, Reg.DSL_SSTAT_PHASE,
   Reg.DSL_SSTAT_STATE]

/-- Register fields, part 7. -/
def regFields7 : List Fld :=
  [Reg.DSL_SFLT_DEFERRED, Reg.DSL_SFLT_NODIP, Reg.DSL_SFLT_NOKINK,
   Reg.DSL_SFLT_IGNORED, Reg.DSL_SFLT_PEAK_MISS, Reg.DSL_SFLT_REFUSED,
   Reg.DSL_SFLT_MAXON, Reg.DSL_SFLT_OPEN, Reg.DSL_SFLT_DRN_BAT,
   Reg.DSL_SFLT_OC, Reg.DSL_SCLR_CLR, Reg.DSL_SONT_T,
   Reg.DSL_SDEF_REFCNT, Reg.DSL_SDEF_LAST, Reg.DSL_SDDLY_DLY,
   Reg.DSL_SKDLY_DLY, Reg.DSL_PCFG_DEFER_MAX, Reg.DSL_PCFG_KPOL,
   Reg.DSL_PCFG_DIP_EN, Reg.DSL_PCFG_KINK_EN, Reg.DSL_PCFG_OFF_DECAY,
   Reg.DSL_PCFG_NPH_M1, Reg.DSL_POFF_T_OFFMIN, Reg.DSL_POFF_I_OFF,
   Reg.DSL_PKWIN_KW_LEN, Reg.DSL_PKWIN_KW_START, Reg.DSL_PKDET_KARM,
   Reg.DSL_PKDET_KLAG, Reg.DSL_PKDET_KAVG, Reg.DSL_PKSL_KSLOPE,
   Reg.DSL_PDIP_DIP_MIN, Reg.DSL_PDIP_DIP_THR, Reg.DSL_PHA_EXIT,
   Reg.DSL_PHA_DECAY, Reg.DSL_PHA_SUPPLY, Reg.DSL_PHA_I_TGT,
   Reg.DSL_PHB_T, Reg.DSL_PHB_I_HYST, Reg.CLE_LCFG_EN,
   Reg.CLE_LCFG_GEN]

/-- Register fields, part 8. -/
def regFields8 : List Fld :=
  [Reg.CLE_LCFG_GRP, Reg.CLE_LCFG_DEN, Reg.CLE_LCFG_DFILT,
   Reg.CLE_LTIME_SPH, Reg.CLE_LTIME_SPER, Reg.CLE_MSRC_TYPE,
   Reg.CLE_MSRC_MAXAGE, Reg.CLE_MSRC_INDEX, Reg.CLE_MSCL_MGAIN,
   Reg.CLE_MSCL_MSH, Reg.CLE_MOFF_MOFF, Reg.CLE_SSRC_TYPE,
   Reg.CLE_SSRC_INDEX, Reg.CLE_SSCL_SGAIN, Reg.CLE_SSCL_SSH,
   Reg.CLE_KI_K, Reg.CLE_KD_K, Reg.CLE_KF_K,
   Reg.CLE_SH_ESTEP, Reg.CLE_SH_SH_F, Reg.CLE_SH_SH_D,
   Reg.CLE_SH_SH_I, Reg.CLE_SH_SH_P, Reg.CLE_IMAX_LIM,
   Reg.CLE_IMIN_LIM, Reg.CLE_OMAX_LIM, Reg.CLE_OMIN_LIM,
   Reg.CLE_FAILOUT_OUT, Reg.CLE_FELIM_LIM, Reg.CLE_FETIME_N,
   Reg.CLE_POS_FRIC_EN, Reg.CLE_POS_COG_EN, Reg.CLE_POS_CSH,
   Reg.CLE_POS_PSHIFT, Reg.CLE_POS_PI, Reg.CLE_MODE_MODE,
   Reg.CLE_SP_SP, Reg.CLE_MAN_MAN, Reg.CLE_MREG_M,
   Reg.CLE_OUT_U]

/-- Register fields, part 9. -/
def regFields9 : List Fld :=
  [Reg.CLE_ERR_E, Reg.CLE_INT_I, Reg.CLE_LSTAT_FECNT,
   Reg.CLE_LSTAT_LOSER, Reg.CLE_LFLG_MODE_REJ, Reg.CLE_LFLG_XCLAMP,
   Reg.CLE_LFLG_FE, Reg.CLE_LFLG_STALE, Reg.CLE_LFLG_ILIM,
   Reg.CLE_LFLG_OLIM, Reg.CLE_LFLG_SAT, Reg.CLE_LCLR_CLR,
   Reg.GNB_CFG_EN, Reg.GNB_CFG_MPER, Reg.GNB_PCFG_EN,
   Reg.GNB_PCFG_FS, Reg.GNB_PCFG_L1EN, Reg.GNB_PCFG_L0EN,
   Reg.GNB_PCFG_BITS1, Reg.GNB_PCFG_BITS0, Reg.GNB_PCFG_INV1,
   Reg.GNB_PCFG_INV0, Reg.GNB_LO0_LO, Reg.GNB_LO1_LO,
   Reg.GNB_CHK1_EN, Reg.GNB_CHK1_CC_MAX, Reg.GNB_CHK2_EN,
   Reg.GNB_CHK2_NMIN, Reg.GNB_CHK2_SDMIN, Reg.GNB_CHK2_CNMAX,
   Reg.GNB_CHK2_MEANMIN, Reg.GNB_CHK3_EN, Reg.GNB_CHK3_DRMAX,
   Reg.GNB_CHK4_EN, Reg.GNB_CHK4_NMIN, Reg.GNB_CHK4_COHMAX,
   Reg.GNB_BL_BL, Reg.GNB_DISC_HOLD_LIM, Reg.GNB_DISC_LOCK_N,
   Reg.GNB_DISC_TAU]

/-- Register fields, part 10. -/
def regFields10 : List Fld :=
  [Reg.GNB_DISC2_LOSS, Reg.GNB_DISC2_JUMP_N, Reg.GNB_DTOL_STEP,
   Reg.GNB_DTOL_LOCK_TOL, Reg.GNB_DJUMP_SLEW_MAX, Reg.GNB_DJUMP_JUMP,
   Reg.GNB_HO_HO_R, Reg.GNB_HO_HO_Q, Reg.GNB_SOL_T_LO_T,
   Reg.GNB_SOL_T_HI_T, Reg.GNB_SOL_GPS_LO_GPS, Reg.GNB_SOL_GPS_HI_GPS,
   Reg.GNB_SOL_FRAC_FRAC, Reg.GNB_SOL_DRIFT_DRIFT, Reg.GNB_SOL_SIG_SIG,
   Reg.GNB_SOL_CTL_ACCEPT, Reg.GNB_SOL_CTL_HOLD, Reg.GNB_SOL_CTL_REJ,
   Reg.GNB_SOL_CTL_APPLY, Reg.GNB_DSTAT_EXPIRED, Reg.GNB_DSTAT_SLEWING,
   Reg.GNB_DSTAT_CAUSE, Reg.GNB_DSTAT_ACCEPTED, Reg.GNB_DSTAT_COUNT,
   Reg.GNB_DSTAT_PHASE, Reg.GNB_FREQ_FREQ, Reg.GNB_EPS_EPS,
   Reg.GNB_HOLDT_T, Reg.GNB_UNC_U, Reg.GNB_EVT_NAV_TRUNC,
   Reg.GNB_EVT_CHECK, Reg.GNB_EVT_EXPIRED, Reg.GNB_EVT_HOLD,
   Reg.GNB_EVT_STEP, Reg.GNB_EVT_TJUMP, Reg.GNB_PPSCFG_EN,
   Reg.GNB_PPSCFG_POL, Reg.GNB_PPSCFG_FREEPPS, Reg.GNB_PPSCFG_HOSUP,
   Reg.GNB_PPSCFG_WIDTH]

/-- Register fields, part 11. -/
def regFields11 : List Fld :=
  [Reg.GNB_PPSOFS_OFS, Reg.GNB_TCCFG_EN, Reg.GNB_TCCFG_MODE,
   Reg.GNB_TCCFG_ANT, Reg.GNB_TCCFG_SIG, Reg.GNB_TCCFG_SV,
   Reg.GNB_TCCFG_GSLOT, Reg.GNB_TCAID_DOPP_AID, Reg.GNB_TCAID_WIN,
   Reg.GNB_TCPRED_PRED, Reg.GNB_TCSTAT_REJ, Reg.GNB_TCSTAT_STATE,
   Reg.FGE_CFG_EN, Reg.FGE_CFG_VIS, Reg.FGE_CFG_ODIV,
   Reg.FGE_OCFG_OLAG, Reg.FGE_OCFG_OPH, Reg.FGE_GRID_GCELL,
   Reg.FGE_GRID_GH_M1, Reg.FGE_GRID_GW_M1, Reg.FGE_GX0_X,
   Reg.FGE_GY0_Y, Reg.FGE_GBASE_BASE, Reg.FGE_XMAX_XMAX,
   Reg.FGE_HEAD_NL_M1, Reg.FGE_HEAD_SCORE_CH, Reg.FGE_HEAD_RAD_CH,
   Reg.FGE_HEAD_DET_THR, Reg.FGE_TRK_BIRTH_THR, Reg.FGE_TRK_CONF_N,
   Reg.FGE_TRK_TDEL, Reg.FGE_TRK_CDEL, Reg.FGE_TRK_TPOL,
   Reg.FGE_TRK_TPRIM, Reg.FGE_TRK2_GATE, Reg.FGE_TRK2_DROP,
   Reg.FGE_EGO_EGO_CHK, Reg.FGE_EGO_REG_CH, Reg.FGE_EGO_SRCH,
   Reg.FGE_EGO_EGO_TOL]

/-- Register fields, part 12. -/
def regFields12 : List Fld :=
  [Reg.FGE_EGO2_QMIN, Reg.FGE_EGO2_YSTEP, Reg.FGE_CAL_CAL_XY,
   Reg.FGE_CAL_CAL_YAW, Reg.FGE_CAL_CAL_STEP, Reg.FGE_STAT_BUF,
   Reg.FGE_STAT_SAT, Reg.FGE_STAT_CALLIM, Reg.FGE_STAT_BIRTH_REJ,
   Reg.FGE_STAT_DET_OVF, Reg.FGE_STAT_LATE, Reg.FGE_OUTT_LO_T,
   Reg.FGE_OUTT_HI_T, Reg.FGE_ONUM_N, Reg.FGE_OSRC_ABSENT,
   Reg.FGE_OSRC_USED, Reg.FGE_NTRK_CONF, Reg.FGE_NTRK_TENT,
   Reg.FGE_NDET_N, Reg.FGE_HCYC_CYC, Reg.FGE_EGOREC_WORD,
   Reg.FGE_TCMD_E_E, Reg.FGE_TCMD_N_N, Reg.FGE_TCMD_R_RAD,
   Reg.FGE_TCMD_CTL_GO, Reg.FGE_TCMD_CTL_REJ, Reg.FGE_TCMD_CTL_CODE,
   Reg.FGE_TCMD_CTL_INDEX, Reg.FGE_SCFG_EN, Reg.FGE_SCFG_KIND,
   Reg.FGE_SCFG_PORT, Reg.FGE_SCFG_C0, Reg.FGE_SCFG_UDP,
   Reg.FGE_STIME_FPER, Reg.FGE_STIME_MAXAGE, Reg.FGE_STIME_ALIGN_MAX,
   Reg.FGE_SRATE_RATE0, Reg.FGE_SNET_NETLAT, Reg.FGE_SNET_RELTOL,
   Reg.FGE_SGAIN_EVTHR]

/-- Register fields, part 13. -/
def regFields13 : List Fld :=
  [Reg.FGE_SGAIN_EVCH, Reg.FGE_SGAIN_KR, Reg.FGE_SGAIN_KO,
   Reg.FGE_SEXT_X_X, Reg.FGE_SEXT_Y_Y, Reg.FGE_SEXT_YAW_YAW,
   Reg.FGE_SCAL_X_X, Reg.FGE_SCAL_Y_Y, Reg.FGE_SCAL_YAW_YAW,
   Reg.FGE_SSTAT_INCOMPLETE, Reg.FGE_SSTAT_QCNT, Reg.FGE_SSTAT_CALLIM,
   Reg.FGE_SSTAT_GOOD, Reg.FGE_SSTAT_STATE, Reg.FGE_SOFF_LO_SOFF,
   Reg.FGE_SOFF_HI_SOFF, Reg.FGE_SREF_LO_SREF, Reg.FGE_SREF_HI_SREF,
   Reg.DSP_CFG_LIMIT, Reg.DSP_CFG_TGTONLY, Reg.DSP_CFG_SCOPE,
   Reg.DSP_STAT_AGE, Reg.DSP_STAT_PROG, Reg.DSP_STAT_DEV,
   Reg.DSP_STAT_STATE, Reg.DSP_ASSERT_Q, Reg.SIN_PCFG_EN,
   Reg.SIN_PCFG_EDGE, Reg.SIN_PCFG_QUAD, Reg.SIN_PCFG_GLITCH,
   Reg.SIN_PSTAT_QERR, Reg.SIN_PSTAT_LEVEL, Reg.SIN_PCNT_CNT,
   Reg.SIN_ACFG_EN, Reg.SIN_ATIME_APH, Reg.SIN_ATIME_APER,
   Reg.SIN_ICFG_EN, Reg.SIN_ICFG_DRPOL, Reg.SIN_ICFG_CPOL,
   Reg.SIN_ICFG_CPHA]

/-- Register fields, part 14. -/
def regFields14 : List Fld :=
  [Reg.SIN_ICFG_NCMD, Reg.SIN_ICFG_WIN, Reg.SIN_ICFG_DIV,
   Reg.SIN_ICMD_CMD, Reg.SIN_ISYNC_EN, Reg.SIN_ISYNC_WIDTH,
   Reg.SIN_ISYNC_SPER, Reg.SIN_ISTAT_LATE, Reg.SIN_ISTAT_OVLP,
   Reg.CAN_CCFG_EN, Reg.CAN_CCFG_MODE, Reg.CAN_CCFG_FDEN,
   Reg.CAN_CCFG_AUTOREC, Reg.CAN_CCFG_MAXAGE, Reg.CAN_NBT_BRP_M1,
   Reg.CAN_NBT_TSEG1_M1, Reg.CAN_NBT_TSEG2_M1, Reg.CAN_NBT_SJW_M1,
   Reg.CAN_DBT_BRP_M1, Reg.CAN_DBT_TSEG1_M1, Reg.CAN_DBT_TSEG2_M1,
   Reg.CAN_DBT_SJW_M1, Reg.CAN_TDC_EN, Reg.CAN_TDC_TDCO,
   Reg.CAN_EWARN_TEC_W, Reg.CAN_EWARN_REC_W, Reg.CAN_CTL_RECOVER,
   Reg.CAN_ESTAT_REC, Reg.CAN_ESTAT_TEC, Reg.CAN_ESTAT_STATE,
   Reg.CAN_RXWR_WR, Reg.CAN_RXRD_RD, Reg.CAN_RXSTAT_OVRCNT,
   Reg.CAN_RXSTAT_AGEREJ, Reg.CAN_RXSTAT_TXREJ, Reg.CAN_RXSTAT_RDREJ,
   Reg.CAN_TXREQ_REQ, Reg.CAN_TXABORT_ABT, Reg.CAN_KWST_DROP,
   Reg.CAN_KWST_QUEUED]

/-- Register fields, part 15. -/
def regFields15 : List Fld :=
  [Reg.ETH_MACCFG_EN, Reg.ETH_MACCFG_IF, Reg.ETH_MACCFG_SPEED,
   Reg.ETH_MACCFG_MCAST, Reg.ETH_MACCFG_MAXAGE, Reg.ETH_MACADDR_LO_ADDR,
   Reg.ETH_MACADDR_HI_ADDR, Reg.ETH_IPV4_IP, Reg.ETH_LAT_RXLAT,
   Reg.ETH_LAT_TXLAT, Reg.ETH_PTPCFG_GM_EN, Reg.ETH_PTPCFG_PDELAY_EN,
   Reg.ETH_PTPCFG_LOGSYNC, Reg.ETH_CLKID_LO_ID, Reg.ETH_CLKID_HI_ID,
   Reg.ETH_RXWR_WR, Reg.ETH_RXRD_RD, Reg.ETH_TXREQ_REQ,
   Reg.ETH_CNT_DROP_FILTER, Reg.ETH_CNT_DROP_ERR, Reg.ETH_LINK_UP,
   Reg.ETH_LINK_SPEED, Reg.ETH_MDIO_CMD_GO, Reg.ETH_MDIO_CMD_OP,
   Reg.ETH_MDIO_CMD_PHYAD, Reg.ETH_MDIO_CMD_DEVAD, Reg.ETH_MDIO_CMD_DATA,
   Reg.ETH_MDIO_DATA_BUSY, Reg.ETH_MDIO_DATA_DATA, Reg.SYS_AON_PRES_STATE,
   Reg.SYS_AON_PRES_REMAIN, Reg.SYS_AON_SEAL_CLR, Reg.SYS_AON_SEAL_CLR_REJ,
   Reg.SYS_AON_SEAL_OPEN, Reg.SYS_AON_SEAL_SEAL_BROKEN, Reg.SEM_CTL_FORCE,
   Reg.SEM_CTL_REL, Reg.SEM_CTL_TAKE, Reg.SEM_CTL_OWNER,
   Reg.SKN_CTL_OP]

/-- Register fields, part 16. -/
def regFields16 : List Fld :=
  [Reg.SKN_ROW_ROW, Reg.SKN_STAT_WREJ, Reg.SKN_STAT_PRV_VALID,
   Reg.SKN_STAT_PENDING, Reg.SKN_STAT_STG_READY, Reg.SKN_CHK_CODE,
   Reg.SKN_CHKADDR_ADDR, Reg.SKN_VER_VER, Reg.SKN_VACT_VER,
   Reg.SKN_VPRV_VER, Reg.SKN_VMAX_VER, Reg.SKN_BASE_BASE,
   Reg.SKN_SLOTS_STG, Reg.SKN_SLOTS_PRV, Reg.SKN_SLOTS_ACT,
   Reg.SKN_PPAGE_PAGE, Reg.SKN_PPAGE_CORE, Reg.SKN_PIMG_KEEP_DATA,
   Reg.SKN_PIMG_DLEN, Reg.SKN_LIVE_ADDR, Reg.SKN_LIVE_V_VALUE,
   Reg.HP_CFG_DUMMY, Reg.HP_CFG_SVIEW, Reg.HP_CFG_OCT,
   Reg.HP_STAT_SLOWRD, Reg.HP_STAT_PARTIAL, Reg.HP_STAT_ALIGN,
   Reg.HP_STAT_BADCMD, Reg.HP_HB_HB, Reg.HP_HBLAST_LO_STAMP,
   Reg.HP_HBLAST_HI_STAMP, Reg.HP_HBCFG_TIMEOUT, Reg.HP_HBCFG_EN,
   Reg.HP_SAFE_CLR, Reg.HP_SAFE_CLR_REJ, Reg.HP_SAFE_SAFE,
   Reg.GSB_CTL_SESS_CLOSE, Reg.GSB_CTL_SESS_OPEN, Reg.GSB_CTL_PROG,
   Reg.GSB_STAT_SESS]

/-- Register fields, part 17. -/
def regFields17 : List Fld :=
  [Reg.GSB_STAT_RESULT, Reg.GSB_STAT_BUSY, Reg.GSB_WCNT_N,
   Reg.GSB_BOOTCFG_WT, Reg.GSB_BCMD_GO, Reg.GSB_BCMD_DIR,
   Reg.GSB_BCMD_NDATA, Reg.GSB_BCMD_ADDRLEN, Reg.GSB_BCMD_OP,
   Reg.GSB_BADDR_ADDR, Reg.GSB_BSTAT_REJ, Reg.GSB_BSTAT_BUSY,
   Reg.EVT_ROUTE_HPB, Reg.EVT_ROUTE_HPA, Reg.EVT_PEND_PEND,
   Reg.EVT_CNT_CNT, Reg.EVT_ARG_ARG, Reg.EVT_STAMP_LO_STAMP,
   Reg.EVT_STAMP_HI_STAMP, Reg.EVT_RAISE_PE, Reg.SYS_TEMP_DRIVE,
   Reg.SYS_TEMP_LOGIC, Reg.CAN_TXST_ST, Reg.ETH_TXST_ST]

/-- Every register field (R11). -/
def regFields : List Fld :=
  regFields0 ++ regFields1 ++ regFields2 ++ regFields3 ++ regFields4 ++ regFields5 ++ regFields6 ++ regFields7 ++ regFields8 ++ regFields9 ++ regFields10 ++ regFields11 ++ regFields12 ++ regFields13 ++ regFields14 ++ regFields15 ++ regFields16 ++ regFields17

end Sys2Proof.Machine
end

