-- ==== Sys2Proof/Machine/State.lean ====
section
/-! DEFINITION. The state of the TVD86: every register, memory, queue, buffer, counter, mode and
pin the spec gives it, as plain data, the reasons a step can stop, and the state at reset. Registers
live in one table of field values keyed by bit address; what is kept beside it is the state of the
engines that no register shows. -/

namespace Sys2Proof.Machine

/-- Why a step stops with a fault. -/
inductive Fault where
  /-- Raised by no meaning: the spec gives every command an effect. Safe. -/
  | noSuchCore (c : Nat)
  deriving DecidableEq, Repr

/-- Why a command has no meaning. -/
inductive Refusal where
  /-- Raised by the dispatch for a command that has no meaning yet. Safe. -/
  | notModelled (mnemonic : String)
  deriving DecidableEq, Repr

/-- The scale of a variant (R3). -/
inductive Scale where
  | s5
  | s2
  | s1
  deriving DecidableEq, Repr

/-- The variant of the device (R3, R9) and the DRAM fitted to it. -/
structure Variant where
  /-- Scale digit (R3). -/
  scale : Scale
  /-- The GNSS baseband is present (suffix G) (R5). -/
  gnb : Bool
  /-- The fusion grid engine is present (suffix V) (R5). -/
  fge : Bool
  /-- Silicon stepping (R9). -/
  stepping : BitVec 8
  /-- Installed DRAM in GiB (R3, R453). -/
  dramGiB : Nat
  deriving DecidableEq, Repr

/-- Where the device stands in power-up, cast-on, rows and rest (R60 to R68, R101). -/
inductive Phase where
  /-- Main supplies off; only the AON domain runs (R63). -/
  | unpowered
  /-- RESET_N low with the main supplies up (R438). -/
  | held
  /-- Cast-on step 2 to 7 in progress (R64). -/
  | castOn (step : Nat)
  /-- Step 7 has ended; row 0 is awaited (R64, step 8). -/
  | waitRow0
  /-- Rows run (R23). -/
  | rows
  /-- Cast-on failed (R66). -/
  | failed
  /-- REFCLK lost after cast-on (R48). -/
  | clockLost
  /-- DOZE (R61). -/
  | doze
  /-- Replay holds in STARTING (R101). -/
  | replayHold
  /-- A replay has stopped (R101). -/
  | replayEnded
  deriving DecidableEq, Repr

/-- The progress of a bind-off (R67). -/
inductive Bind where
  | none
  /-- Steps 1 and 2: committed edges run; trailing writes go on. -/
  | edges
  /-- Step 3: the trailing writes have ended and the cache writes back. -/
  | writeBack
  /-- The write-back has ended; the next boundary parks the banks. -/
  | parkNext
  /-- The linger. -/
  | linger
  deriving DecidableEq, Repr

/-- Power, reset, cast-on and bind-off. -/
structure Power where
  /-- Cast-on and run phase (R64). Reset: held. -/
  phase : Phase
  /-- PWREN output (R437). Reset: high. -/
  pwren : Bool
  /-- RESET_N input (R438). Reset: low. -/
  resetN : Bool
  /-- Main supplies in range (R437). Reset: up. -/
  supplies : Bool
  /-- Bind-off progress (R67). Reset: none. -/
  bind : Bind
  /-- The bind-off was started by a replay GO and has no linger (R101). Reset: no. -/
  bindReplay : Bool
  /-- Stamp at which the linger began (R67). Reset: 0. -/
  lingerFrom : Stamp
  /-- The linger has lasted its length or PARK has landed (R67). Reset: no. -/
  lingerOver : Bool
  /-- A wake latched during bind-off or its linger (R68). Reset: no. -/
  wakeLatched : Bool
  /-- In DOZE, a wake has been taken and the engines are being ungated (R61). Reset: no. -/
  waking : Bool
  /-- In DOZE, every engine of the resume mode is ungated (R62). Reset: no. -/
  ungated : Bool
  /-- Latest target of a committed edge of this bind-off (R67, step 3). Reset: 0. -/
  lastTarget : Stamp
  /-- The image copies that passed the image checks of step 6, with their numbers (R418). Reset: none. -/
  images : List (Nat × List Byte)
  /-- Stamps of the earliest boundaries at which opened banks are ready, by bank (R73). Reset: none. -/
  bankOpenAt : Tab Stamp
  /-- Consecutive idle rows of each bank (R73). Reset: 0. -/
  bankIdle : Tab Nat
  deriving DecidableEq, Repr

/-- Device time and the discipline relation in staging (R49 to R56). -/
structure Time where
  /-- Device time (R49). Reset: 0. -/
  dt : Stamp
  /-- DT is valid (R48, R49). Reset: no. -/
  valid : Bool
  /-- The high word latched for each host port by a read of SYS_DT_LO (R52). Reset: 0. -/
  latch : Tab W32
  /-- Staged anchor (R54). Reset: 0. -/
  anchorStg : Stamp
  /-- Staged GPS low word and, on the high write, the whole (R54). Reset: 0. -/
  gpsStg : Stamp
  /-- The trim in force (R56). Reset: 0. -/
  trim : BitVec 24
  /-- A written trim and the stamp at which it takes effect (R56). Reset: none. -/
  trimNext : Option (BitVec 24 × Stamp)
  /-- Taps of the delay lines, keyed by 64 × line + sub-tick (R58). Reset: 0. -/
  taps : Tab Byte
  /-- D0, the DT of replay row 0 (R100). Reset: 0. -/
  d0 : Stamp
  deriving DecidableEq, Repr

/-- The row sequence (R21, R22). -/
structure Row where
  /-- Row number of the current row (R22). Reset: 0. -/
  num : W32
  /-- Boundary stamp of the current row (R22). Reset: 0. -/
  cur : Stamp
  /-- Boundary stamp of the previous row (R22). Reset: 0. -/
  prev : Stamp
  /-- Stamp of the next boundary (R22). Reset: 0. -/
  next : Stamp
  /-- Row period in force in units of 250 µs (R21). Reset: 4. -/
  k : Nat
  /-- A boundary has been performed since cast-on. Reset: no. -/
  started : Bool
  deriving DecidableEq, Repr

/-- An admitted or pending input sample (R27, R98). -/
structure Sample where
  id : InputId
  src : Stamp
  adm : Stamp
  row : W32
  payload : List Byte
  deriving DecidableEq, Repr

/-- The row snapshot (R23, R84). -/
structure Snap where
  /-- Live register fields as latched in step 1 (R84). Reset: none. -/
  regs : Tab W32
  /-- Skein-held fields as in force after step 2 (R24). Reset: none. -/
  conf : Tab W32
  /-- The samples of each input, keyed by identifier (R28, R131). Reset: none. -/
  samples : Tab (List Sample)
  /-- The epoch record of the GNB_EPOCH window (R316). Reset: none. -/
  epoch : List Byte
  /-- Track records by index, as words (R354). Reset: 0. -/
  tracks : Tab W32
  /-- Time-mark words by 8 × output + word (R330). Reset: 0. -/
  marks : Tab W32
  /-- In a replay, the ring windows as they stood at the boundary, by window address (R369). Reset: none. -/
  rings : Tab Byte
  deriving DecidableEq, Repr

/-- A skein: what one slot holds (R400). (DEDUCED 32 of notes/assumptions) -/
structure Image where
  /-- S-RW register fields, keyed by bit address (R400). Reset: none differ from the reset values. -/
  flds : Tab W32
  /-- Needle-bed records, keyed by 16 × node + word (R140). Reset: 0. -/
  nodes : Tab W32
  /-- Remote table, CLE tables, layer table, weights and neighbour table by word address. Reset: 0. -/
  words : Tab W32
  /-- Program images, keyed by 0x4_0000 × core + offset (R401). Reset: 0. -/
  prog : Tab Byte
  deriving DecidableEq, Repr

/-- A pending commit or rollback (R403). -/
structure Request where
  rollback : Bool
  named : W32
  /-- The row at which STAGING is ready again after activation (R405). -/
  lead : Nat
  /-- The grant taken at the landing (R411). -/
  took : Bool
  /-- The checker's outcome, once it has ended (R404). -/
  outcome : Option (BitVec 8)
  deriving DecidableEq, Repr

/-- The skein slots (R400 to R408). (DEDUCED 32 of notes/assumptions) -/
structure Skein where
  /-- The ACTIVE slot (R400). Reset: empty. -/
  act : Image
  /-- The PREVIOUS slot (R400). Reset: empty. -/
  prv : Image
  /-- The STAGING slot (R400). Reset: empty. -/
  stg : Image
  /-- The pending request (R403). Reset: none. -/
  req : Option Request
  /-- The row from which STAGING is ready again (R405). Reset: none. -/
  readyAt : Option W32
  deriving DecidableEq, Repr

/-- What a program's output or posted request does at the next boundary (R29, R85). -/
inductive Out where
  /-- A store to the device register space (R117). -/
  | store (a v : W32)
  /-- EVR (R123). -/
  | evr (ev : Nat)
  /-- EREQ: target, endpoint, value, PROG edge (R124). -/
  | ereq (target : Stamp) (endpoint : W32) (value : BitVec 24)
  /-- A node command: code, node and argument (R125). -/
  | ncmd (code : BitVec 8) (node : Nat) (arg : List Byte)
  /-- NQRY: node and reply address (R126). -/
  | nqry (node reply : Nat)
  /-- FPRB: layer code, reply address, points (R127). -/
  | fprb (layer reply : Nat) (pts : List (W32 × W32))
  /-- XFER: index in the row, refused, outbound, DRAM offset, local address, length (R128). -/
  | xfer (i : Nat) (refused out : Bool) (off loc len : Nat)
  /-- SEMT: semaphore and reply address (R129). -/
  | semt (n reply : Nat)
  /-- SEMR (R129). -/
  | semr (n : Nat)
  /-- MSG: destination core and body (R130). -/
  | msg (dst : Nat) (body : List Byte)
  deriving DecidableEq, Repr

/-- A reply or an inbound copy that lands at the next boundary but one (R85, R88). -/
structure Reply where
  /-- Core address. -/
  addr : Nat
  bytes : List Byte
  /-- The bytes of the LATE form of the reply. -/
  late : List Byte
  /-- Event source of the engine's LATE event. -/
  ev : Nat
  deriving DecidableEq, Repr

/-- A DRAM transfer served in this row (R88). -/
structure Move where
  /-- Index in the row it was posted in. -/
  index : Nat
  /-- Outbound: from data memory to DRAM. -/
  out : Bool
  /-- DRAM offset, core address and length. -/
  off : Nat
  loc : Nat
  len : Nat
  /-- The data: copied at step 3 if outbound, read from DRAM when it completes if inbound. -/
  data : List Byte
  /-- Its status as DXC_XFER_STAT codes it: 1 done, 2 not complete, 3 refused. -/
  stat : Nat
  deriving DecidableEq, Repr

/-- What a core is doing (R79, R94). -/
inductive Run where
  /-- No task runs: gated, reloading, or past its row task's RWAIT. -/
  | idle
  /-- Runs event task k (0 to 7), or the row task (8). -/
  | task (k : Nat)
  deriving DecidableEq, Repr

/-- A Dexiz core (R102) and what the device keeps for it. -/
structure Core where
  /-- s1 to s31; s0 is not stored (R102). Reset: 0. -/
  gpr : Tab W32
  /-- a0 to a3 (R102). Reset: 0. -/
  acc : Tab (BitVec 64)
  /-- FLAGS: Z, N, C, V in bits 3 to 0 (R105). Reset: 0. -/
  flags : BitVec 4
  /-- STICKY: LATE, ADDR, DIVZ, SAT in bits 3 to 0 (R105). Reset: 0. -/
  sticky : BitVec 4
  /-- PC, 17 bits so that the fetch past 0xFFFC is seen (R102, R133). Reset: 0. -/
  pc : Nat
  /-- Instruction memory, 64 KiB (R76). Reset: 0. -/
  imem : Tab Byte
  /-- Data memory, keyed by core address 0x1_0000 to 0x3_FFFF (R77). Reset: 0. -/
  dmem : Tab Byte
  /-- What the core runs (R79). Reset: idle. -/
  run : Run
  /-- Event tasks still to run in this row, with their raise counts (R80). Reset: none. -/
  todo : List (Nat × Nat)
  /-- Budget cycles counted in this row (R81). Reset: 0. -/
  used : Nat
  /-- The outputs of the row in program order (R29). Reset: none. -/
  outs : List Out
  /-- The cores that a message of the row names, whether or not its buffer had room (R130). Reset: none. -/
  sentTo : List Nat
  /-- Output-buffer entries taken in this row (R86). Reset: 0. -/
  entries : Nat
  /-- Payload bytes taken in this row (R86). Reset: 0. -/
  payload : Nat
  /-- Transfers posted in this row (R87). Reset: 0. -/
  xfers : Nat
  /-- Inbound and outbound bytes posted in this row (R87). Reset: 0. -/
  xferIn : Nat
  xferOut : Nat
  /-- Replies that land at the next boundary (R85). Reset: none. -/
  replies : List Reply
  /-- The transfers served in this row, in posting order (R88). Reset: none. -/
  moves : List Move
  /-- Host messages of the row: stamp, source, body (R89). Reset: none. -/
  hostMsgs : List (Stamp × Nat × List Byte)
  /-- Core messages applied at this boundary (R89). Reset: none. -/
  coreMsgs : List (Stamp × Nat × List Byte)
  /-- The outbound mailbox copy (R90). Reset: 0. -/
  mbo : Tab W32
  /-- The row's outputs are complete and are applied at the next boundary (R82, R94). Reset: no. -/
  done : Bool
  /-- The reload row is in progress (R91). Reset: no. -/
  reload : Bool
  /-- Halted in bench mode, single stepping (R94). Reset: no. -/
  stepping : Bool
  /-- The snapshot held while the core is halted (R94). Reset: none. -/
  heldSnap : Option Snap
  /-- Callback edges issued in this row: lifeline, target, node, value (R160). Reset: none. -/
  callbacks : List (Stamp × Stamp × Nat × BitVec 24)
  deriving DecidableEq, Repr

/-- The pose set (R167). -/
structure Pose where
  t : Stamp
  e : Int
  n : Int
  hdg : W32
  spd : Int
  acc : Int
  yr : Int
  deriving DecidableEq, Repr

/-- An edge queue entry state (R193). -/
inductive QState where
  | free
  | spec
  | held
  | committed
  | landed
  deriving DecidableEq, Repr

/-- An edge queue entry (R193). -/
structure QEntry where
  target : Stamp
  issue : Stamp
  node : Nat
  value : BitVec 24
  st : QState
  prog : Bool
  late : Bool
  comp : Bool
  slip : Bool
  nofb : Bool
  actual : Stamp
  /-- The actual instant is resolved (R210). -/
  resolved : Bool
  /-- Order of placing (R201). -/
  seq : Nat
  /-- The endpoint the edge is for; an old actuator keeps its committed edges (R162). -/
  endpoint : W32
  /-- The configured lead of its direction when it was committed, in TCLK counts (R210). -/
  cfgLead : Nat
  /-- A REMOTE_ACK has matched it (R164). -/
  acked : Bool
  /-- The edge has reached its endpoint: a late edge to a remote endpoint waits for its slot (R203). -/
  out : Bool
  deriving DecidableEq, Repr

/-- A timeline: the state before the first change, and the changes in order of stamps. -/
structure Timeline where
  init : Bool
  changes : List (Stamp × Bool)
  deriving DecidableEq, Repr

/-- What the device keeps for one node beside its skein-held bytes (R140). -/
structure NodeRt where
  /-- STATUS bits 7:0 (R140). Reset: 0. -/
  status : BitVec 8
  /-- LASTROW (R140). Reset: 0. -/
  lastRow : BitVec 8
  /-- Source value: angle A or baseline θ, unit 2^-32 turn (R142). Reset: 0. -/
  src : Int
  /-- Rate term of the source, unit 2^-32 turn per second (R142). Reset: 0. -/
  rate : Int
  /-- SRC_STAMP; none while the frame has no source value (R145, R162). Reset: none. -/
  srcStamp : Option Stamp
  /-- The baseline value before the latest, with its stamp (R142). Reset: none. -/
  srcPrev : Option (Int × Stamp)
  /-- The row in which a baseline value was discarded for its length (R143). Reset: none. -/
  disputeRow : Option W32
  /-- YAW_NOW and YAWRATE (R140). Reset: 0. -/
  yawNow : W32
  yawRate : Int
  /-- Relative hitch yaw at the prediction instants, unit 2^-48 turn, and the first of them (R171).
  Reset: none. -/
  hitch : List Int
  hitchAt : Stamp
  /-- Learned leads, on and off, in TCLK counts (R150). Reset: none. -/
  learnedOn : Option Nat
  learnedOff : Option Nat
  /-- Leads in use since the last evaluation, on and off; the configured ones before it (R150). Reset:
  none. -/
  useOn : Option Nat
  useOff : Option Nat
  /-- LEARN_N and MISS (R140). Reset: 0. -/
  learnN : Nat
  miss : Nat
  /-- RATE_NOW and the setpoint computed in the pass (R187). Reset: 0. -/
  rateNow : BitVec 16
  rateNext : Option (BitVec 16)
  /-- MEMBERS_ON (R140). Reset: 0. -/
  membersOn : Nat
  /-- STATE.CMD and STATE.ACTUAL (R140). Reset: 0. -/
  cmd : Bool
  actual : Bool
  /-- STATE.CMD as it stood before the earliest committed entry still held (R202). Reset: off. -/
  cmd0 : Bool
  /-- External states by the target stamp E from which each applies, in order; none releases (R153).
  Reset: none. -/
  exts : List (Stamp × Option Bool)
  /-- The fail state was entered for TRANSIT or bind-off only (R156). Reset: no. -/
  failMode : Bool
  /-- A fail cause that lasts until RECOVER (R156). Reset: no. -/
  failHard : Bool
  /-- The staleness event has been raised for this entry (R145). Reset: no. -/
  staleSeen : Bool
  /-- The decided or composed timeline of the last evaluation (R146, R172). Reset: off. -/
  line : Timeline
  /-- The rate last carried by a placed edge (R183). Reset: 0. -/
  lastRate : BitVec 16
  /-- Coverage is written up to this stamp (R214). Reset: none. -/
  coverTo : Option Stamp
  /-- Resolved ground instants with the state from each, in order (R211). Reset: none. -/
  ground : List (Stamp × Bool)
  /-- Resolved actual instants still to come, with the state from each (R210). Reset: none. -/
  acts : List (Stamp × Bool)
  /-- The node was dropped or rebound: old endpoint, and the fail value to drive it to after a stamp
  (R162). Reset: none. -/
  orphan : List (W32 × BitVec 24 × Stamp)
  deriving DecidableEq, Repr

/-- A PLE pass (R189). -/
structure Pass where
  /-- Boundary stamp of the pass. -/
  b : Stamp
  /-- Evaluations still to end: node, wave, is the close of a group. -/
  todo : List (Nat × Nat × Bool)
  /-- The nodes carried into this pass (R192). -/
  carried : List Nat
  evals : Nat
  waves : Nat
  /-- Automatic frogs and tinks of the pass (R199). -/
  frogs : Nat
  tinks : Nat
  deriving DecidableEq, Repr

/-- An edge that acts on a slice or a pair without an entry: node, endpoint, value, TARGET and instant (R217). -/
structure Direct where
  node : Nat
  endpoint : W32
  value : BitVec 24
  target : Stamp
  at_ : Stamp
  deriving DecidableEq, Repr

/-- The placement engine (R167 to R192, R206). -/
structure Ple where
  /-- Per-node runtime state (R140). Reset: every node as NodeRt's defaults. -/
  nodes : Tab NodeRt
  /-- The edge queue, keyed by entry index (R193). Reset: FREE. -/
  queue : Tab QEntry
  /-- Placements made, to order entries (R201). Reset: 0. -/
  seq : Nat
  /-- Poses in force at successive boundaries, newest first: boundary, pose (R171, R214). Reset: none. -/
  hist : List (Stamp × Pose)
  /-- Host APPLYs waiting for step 3: port and the copy as it stood (R168). Reset: none. -/
  hostPose : List (Port × Pose)
  /-- The running pass (R189). Reset: none. -/
  pass : Option Pass
  /-- Due nodes not evaluated by the last pass (R192). Reset: none. -/
  carry : List Nat
  /-- The pose stale event has been raised for this entry (R169). Reset: no. -/
  staleSeen : Bool
  /-- The fusion stale event has been raised for this entry (R433). Reset: no. -/
  fusionStale : Bool
  /-- Dwell start (R206). Reset: 0. -/
  dwell : Stamp
  /-- Remote nodes: frames counted, keyed by remote node key (R164). Reset: 0. -/
  remSeq : Tab Nat
  /-- Edges without an entry that are about to reach their slices (R217); none between commands. Reset: none. -/
  direct : List Direct
  deriving DecidableEq, Repr

/-- A Kwaros COMMAND item held for acknowledgements (R164). -/
structure RemItem where
  seq : Nat
  slot : Stamp
  target : Stamp
  state : Bool
  /-- Remote table entry. -/
  entry : Nat
  deriving DecidableEq, Repr

/-- A frame in a Kwaros queue (R375). -/
structure KwFrame where
  /-- The slot or sync instant at which it was queued. -/
  at_ : Stamp
  typ : Nat
  prio : Nat
  da : BitVec 8
  /-- IPv4 destination on Ethernet; none on CAN, and for SYNC and FOLLOW_UP, for which the spec names
  none. -/
  ipv4 : Option W32
  udp : BitVec 16
  bytes : List Byte
  deriving DecidableEq, Repr

/-- Kwaros state (R164 to R166). -/
structure Kwaros where
  /-- Queues by port: 0 to 3 CAN, 4 and 5 Ethernet (R375, R382). Reset: empty. -/
  queues : Tab (List KwFrame)
  /-- SYNC sequence numbers by port (R164). Reset: 0. -/
  syncSeq : Tab Nat
  /-- The last SYNC sent and waiting for its FOLLOW_UP, by port: sequence number and stamp (R166).
  Reset: none. -/
  syncWait : Tab (Option (Nat × Stamp))
  /-- The multiple of PERIOD of the last SYNC, by port (R166). Reset: none. -/
  synced : Tab (Option Stamp)
  /-- The last items of COMMAND frames by remote node key (R164). Reset: none. -/
  items : Tab (List RemItem)
  deriving DecidableEq, Repr

/-- A tile swap as queued (R230). -/
structure Swap where
  /-- Whose GO it is: the core, or 256 plus the host port. -/
  who : Nat
  mode : Nat
  row : Nat
  col : Nat
  layer : Nat
  entry : W32
  deriving DecidableEq, Repr

/-- A trailing write in progress (R213). -/
structure Trail where
  /-- Row whose trailing write this is runs in. -/
  row : W32
  from_ : Stamp
  to_ : Stamp
  late : Bool
  deriving DecidableEq, Repr

/-- A line of the tile cache (R235). -/
structure CacheLine where
  /-- The DRAM offset over 4,096. -/
  line : Nat
  /-- The bytes of DRAM under what the device has written into the line and not written back; a dirty line has some. -/
  back : Tab (Option Byte)
  deriving DecidableEq, Repr

/-- The fabric (R218 to R238). -/
structure Fabric where
  /-- DRAM bytes, keyed by offset (R453). Reset: 0. -/
  dram : Tab Byte
  /-- DRAM as probes of this row see it, where it differs: the value before the row's writes (R31). -/
  before : Tab (Option Byte)
  /-- Host swaps that landed in this row (R230). Reset: none. -/
  hostSwaps : List Swap
  /-- Program swaps queued at this step 3 (R230). Reset: none. -/
  progSwaps : List Swap
  /-- An outstanding copy: layer, column, row, destination (R233). Reset: none. -/
  copy : Option (Nat × Nat × Nat × Nat)
  /-- The result of the running copy, once taken at step 3, and whether it has ended (R233). -/
  copyRes : Option (Nat × Bool)
  /-- The trailing write in progress (R213). Reset: none. -/
  trail : Option Trail
  /-- A trailing write that missed its deadline and is completed in this row (R237). Reset: none. -/
  trailOld : Option Trail
  /-- Directory entries whose fault has been raised, by layer × 2^20 + entry (R224). Reset: none. -/
  dirFaults : List Nat
  /-- The pool-empty event has been raised (R229). Reset: no. -/
  emptySeen : Bool
  /-- Cells already counted for an interval that is written in parts: its stamps, the layer, and the
  cells by column and row (R213, R214). Reset: none. -/
  counted : List (Stamp × Stamp × Nat × List (Int × Int))
  /-- Time applied with the footprint still, in sub-ticks (R215). Reset: 0. -/
  still : Nat
  /-- The lines of the tile cache, the most recently used first (R235). Reset: none. -/
  cache : List CacheLine
  /-- Line misses of the row's pass and trailing write so far (R235). Reset: 0. -/
  misses : Nat
  /-- Tiles that swaps of this row's boundary have replaced: offset and size (R231). Reset: none. -/
  leaving : List (Nat × Nat)
  /-- The recording rings whose WR and RD are equal because they are full (R96, R97). Reset: none. -/
  fullRings : List Nat
  /-- The layers that an outbound transfer has overwritten, until a commit redefines them (R234). Reset: none. -/
  spoiled : List Nat
  deriving DecidableEq, Repr

/-- A carrier group (R239 to R246). -/
structure Group where
  /-- The carrier runs (R241). Reset: no. -/
  run : Bool
  /-- The first period start after enabling, if still to come (R241). Reset: none. -/
  startAt : Option Stamp
  /-- The latest period start (R240). Reset: 0. -/
  start : Stamp
  /-- The period in force (R240). Reset: 0x3E800. -/
  per : Nat
  /-- For each shadow of the group written since the last reload, its landing stamp and the value before:
  0 the period, 1 + i the CA and 17 + i the CB of the group's channel i (R244). Reset: none. -/
  wroteAt : Tab (Option (Stamp × Nat))
  /-- The last write of the group's lock bit since the last reload: landing stamp, and the bit before
  (R245). Reset: none. -/
  lockAt : Option (Stamp × Bool)
  /-- The trips that hold the group (R256, R257). Reset: none. -/
  holders : List Nat
  /-- The end of step 3 at which a carrier that a commit disables stops, or has stopped (R241). Reset: none. -/
  stopAt : Option Stamp
  /-- The channels whose outputs were on where the carrier stopped (R241). Reset: none. -/
  outs : List Nat
  /-- Host writes of the group's shadows that wait for the reload that takes them, oldest first: port, address,
  value and landing stamp (R244). Reset: none. -/
  writes : List (Port × W32 × W32 × Stamp)
  deriving DecidableEq, Repr

/-- An edge channel (R242 to R254). -/
structure Chan where
  /-- Compares in force (R244). Reset: 0. -/
  ca : Nat
  cb : Nat
  /-- Loop output in force for the period, Q2.30 (R249). Reset: 0. -/
  loop : Int
  /-- The rates to load at the next reload, with their landing stamps, oldest first (R249). Reset: none. -/
  rateNext : List (BitVec 16 × Stamp)
  /-- The reference r of the channel, before dead time, gate and filter (R251). Reset: off. -/
  r : Bool
  /-- A SYNC gate edge waiting for a period start: state and stamp (R247). Reset: none. -/
  gateNext : Option (Bool × Stamp)
  /-- The placement gate as its edges leave it; FREE holds it open meanwhile (R247). Reset: closed. -/
  gate : Bool
  /-- Stamp of the output's last rise (R253). Reset: 0. -/
  rise : Stamp
  /-- Stamp of the output's last fall, other than by a cut (R243). Reset: none. -/
  fell : Option Stamp
  /-- Stamp to which a deferred fall has moved (R253). Reset: none. -/
  fallAt : Option Stamp
  /-- Stamp of a pending rise after dead time (R252). Reset: none. -/
  riseAt : Option Stamp
  /-- The level that dead time gives the output, before gate, filter and trip (R252). Reset: low. -/
  lvl : Bool
  /-- The present pulse has been removed by the filter (R253). Reset: no. -/
  removed : Bool
  /-- The filter has removed the present pulse of a pair's output before the complement fell, so the complement stays
  on (R254). Reset: no. -/
  skip : Bool
  deriving DecidableEq, Repr

/-- The edge timing unit (R239 to R262). -/
structure Etu where
  groups : Tab Group
  chans : Tab Chan
  /-- The channel configuration in force, where it differs from ACTIVE: CHCFG, CHDT and CHMP as
  three words (R250). Reset: none. -/
  cfgOld : Tab (Option (W32 × W32 × W32))
  /-- Landing stamp of the last accepted clear of each trip's latch (R258). Reset: none. -/
  clearedAt : Tab (Option Stamp)
  deriving DecidableEq, Repr

/-- A kink window of a slice: opens, closes, the ISSUE of its OFF edge, whether its opening has been passed, and whether
its kink has been reported (R280, R281). -/
structure KinkWin where
  opens : Stamp
  closes : Stamp
  edge : Stamp
  opened : Bool
  done : Bool
  deriving DecidableEq, Repr

/-- A drive slice (R267 to R285). -/
structure Slice where
  /-- ISSUE of the edge that started or restarted the profile (R280). Reset: 0. -/
  onEdge : Stamp
  /-- Stamp at which the on-time counter started, if it runs (R276). Reset: none. -/
  onFrom : Option Stamp
  /-- Request stamp of a waiting request, if any (R279). Reset: none. -/
  request : Option Stamp
  /-- Stamp at which the running phase began (R268). Reset: 0. -/
  phaseAt : Stamp
  /-- The chop switch is on, from the stamp of its last change on; that stamp; and whether it is the bank high-side
  (R268). Reset: off. -/
  chop : Bool
  chopAt : Stamp
  chopHigh : Bool
  /-- The other switch is held on, and the stamp of its last change (R268). Reset: off. -/
  other : Bool
  otherAt : Stamp
  /-- The changes of the chop switch since it was first off after the arming of the dip detector, oldest first
  (R282). Reset: none. -/
  chops : List (Stamp × Bool)
  /-- Stamp of the last edge that reached the slice (R286). Reset: none. -/
  edgeAt : Option Stamp
  /-- Low-side, recirculation gates (R263). Reset: off. -/
  low : Bool
  recirc : Bool
  /-- Stamp at which the off-timer started (R274). Reset: none. -/
  offTimer : Option Stamp
  /-- The dip detector is armed (R280). Reset: no. -/
  dipArmed : Bool
  /-- The kink windows that are open or to open, oldest first (R281). Reset: none. -/
  kinks : List KinkWin
  /-- The T of a PEAK phase that an edge of its own cycle overtook (R272, R286). Reset: none. -/
  lapsed : Option Stamp
  deriving DecidableEq, Repr

/-- A request for a grant, as long as others of its TCLK cycle may still come before it: the slice, whether it is a
start, the phase, its request stamp, its instant, and the slice's state before it (R278). -/
structure Ask where
  slice : Nat
  start : Bool
  phase : Nat
  rq : Stamp
  at_ : Stamp
  was : Nat
  before : Slice
  deriving DecidableEq, Repr

/-- An issued edge that waits for its bank to be ready: slice, state, ISSUE, TARGET and queue entry (R74). -/
structure Waiting where
  slice : Nat
  on : Bool
  issue : Stamp
  target : Stamp
  entry : Nat
  deriving DecidableEq, Repr

/-- The drive slices (R263 to R288). -/
structure Dsl where
  slices : Tab Slice
  /-- The release of the last BOOST or SLOW phase of each bank: stamp, slice, SLOW (R278). Reset: none. -/
  released : Tab (Option (Stamp × Nat × Bool))
  /-- Trips that hold each bank (R288). Reset: none. -/
  trips : Tab (List Nat)
  /-- Banks held by a fault (R286). Reset: none. -/
  faulted : List Nat
  /-- GDUV is detected (R440). Reset: no. -/
  gduv : Bool
  /-- Issued edges that wait for their bank to be ready (R74). Reset: none. -/
  waiting : List Waiting
  /-- The kink windows of each bank that have opened since no window was open: slice, opens, closes (R284).
  Reset: none. -/
  windows : Tab (List (Nat × Stamp × Stamp))
  /-- The requests of the latest TCLK cycle in which one was made (R278). Reset: none. -/
  asks : List Ask
  deriving DecidableEq, Repr

/-- A loop unit (R289 to R307): what it holds between samples. The CLE registers show these values from
the output instant on (R308). -/
structure Loop where
  /-- The state: 0 OFF, 1 AUTO, 2 MANUAL, 3 FAULT (R301). Reset: OFF. -/
  mode : Nat
  /-- The latest sample instant (R289). Reset: none. -/
  at_ : Option Stamp
  /-- The output of the latest sample, and whether it is still to become valid (R290). Reset: 0, no. -/
  u : Int
  due : Bool
  /-- Integrator (R300). Reset: 0. -/
  integ : Int
  /-- Derivative memory (R297). Reset: 0. -/
  df : Int
  /-- y_prev (R297). Reset: 0. -/
  yPrev : Int
  /-- Manual law value (R303). Reset: 0. -/
  man : Int
  /-- The output instant of the output in force, and the output before that instant's cycle (R249). Reset: none, 0. -/
  outAt : Option Stamp
  outOld : Int
  /-- Error of the last computed sample. Reset: 0. -/
  err : Int
  /-- Following-error count (R307). Reset: 0. -/
  fe : Nat
  /-- Lost at the last group sample (R305). Reset: no. -/
  loser : Bool
  /-- Flags of CLE_LFLG set since the last output instant, as bits. Reset: 0. -/
  flags : Nat
  /-- Last position count and the sign of its last change (R299). Reset: none, 0. -/
  pos : Option Int
  sign : Int
  /-- Live writes waiting for a sample: register offset, value, landing stamp (R291). Reset: none. -/
  writes : List (Nat × W32 × Stamp)
  /-- Terms of the last sample, for group tracking (R305). Reset: 0. -/
  p : Int
  d : Int
  ff : Int
  comp : Int
  uLaw : Int
  /-- The last sample was stale (R295). Reset: no. -/
  stale : Bool
  /-- The last sample has formed its own output and waits for its group (R305). Reset: no. -/
  open_ : Bool
  /-- The raw NODE setpoints of the unit's nodes before the latest step 3: node, value, and F of that step (R291).
  Reset: none. -/
  rawOld : List (Nat × Int × Stamp)
  /-- The skein whose settings the unit still uses, and the boundary of the commit that changed them
  (R292). Reset: none. -/
  cfgOld : Option (Image × Stamp)
  deriving DecidableEq, Repr

/-- A tracking channel (R313). -/
structure Track where
  /-- Configuration applied: TCCFG, TCAID (R313). Reset: 0. -/
  cfg : W32
  aid : W32
  /-- Writes that wait for a measurement instant: register offset, value, landing stamp (R313, R322).
  Reset: none. -/
  writes : List (Nat × W32 × Stamp)
  /-- Measurements under carrier lock of the last second of instants, newest first (R320). Reset: none. -/
  hist : List (Stamp × ChanMeas)
  /-- The last two bits of the latest navigation word, D29* and D30* (R319). Reset: 0. -/
  star : Nat
  deriving DecidableEq, Repr

/-- A time solution as staged (R323). -/
structure Solution where
  t : Stamp
  gps : Stamp
  frac : BitVec 16
  drift : Int
  sig : W32
  deriving DecidableEq, Repr

/-- A decided step of the relation (R326). -/
structure RelStep where
  /-- The stamp at which it takes effect. -/
  at_ : Stamp
  /-- GPS time there, in ns. -/
  gps : Nat
  /-- ε in 2^-16 ns. -/
  eps : Int
  /-- The step event is raised (R325). -/
  event : Bool
  deriving DecidableEq, Repr

/-- The GNSS baseband (R310 to R331). -/
structure Gnb where
  chans : Tab Track
  /-- Navigation units completed since the last instant (R319). Reset: none. -/
  units : List NavUnit
  /-- The latest measurement instant (R315). Reset: none. -/
  instant : Option Stamp
  /-- The epoch under way: instant and record (R316). Reset: none. -/
  epoch : Option (Stamp × List Byte)
  /-- The latest admitted epoch record (R316). Reset: none. -/
  record : List Byte
  /-- Epochs since cast-on (R317). Reset: 0. -/
  count : W32
  /-- Host solutions waiting for step 3 (R323). Reset: none. -/
  hostSol : List (Port × Solution)
  /-- Jump count (R325). Reset: 0. -/
  jumps : Nat
  /-- Check 5 has flagged since the last instant (R320). Reset: no. -/
  jumped : Bool
  /-- ε of the last solution in 2^-16 ns (R325). Reset: 0. -/
  lastEps : Int
  /-- The slew term (R324). Reset: 0. -/
  slew : Int
  /-- SIG of the last solution used (R327). Reset: 0. -/
  sig0 : W32
  /-- Stamp of entry into HOLDOVER (R325). Reset: 0. -/
  holdAt : Stamp
  /-- The boundary that applied the last accepted solution (R325). Reset: 0. -/
  lastSol : Stamp
  /-- A decided step (R326). Reset: none. -/
  step : Option RelStep
  /-- The next pulse of each output is the first on a stepped relation (R330). Reset: no. -/
  stepMark : Tab Bool
  /-- Steps made, and ε of the latest, for gPTP (R383). Reset: 0. -/
  steps : Nat
  stepEps : Int
  /-- The fixed pulses of each PPS output that are still to come, oldest first (R330). Reset: none. -/
  pulse : Tab (List Stamp)
  /-- The stamp at which each PPS output went active, while it is active (R328). Reset: none. -/
  up : Tab (Option Stamp)
  /-- The latest pulse of each output that was time-marked (R326). Reset: none. -/
  lastPulse : Tab (Option Stamp)
  /-- Time-mark words, keyed by 8 × output + word (R330). Reset: 0. -/
  marks : Tab W32
  deriving DecidableEq, Repr

/-- A fusion frame: header of packet 0 and the raster (R337). -/
structure Frame where
  src : Nat
  fseq : W32
  pcnt : Nat
  tcap : Stamp
  cw : Nat
  ch : Nat
  c : Nat
  ccell : Nat
  header : List Byte
  /-- Packets received. -/
  got : List Nat
  raster : Tab Byte
  first : Stamp
  /-- Device-time stamp, once complete (R333). -/
  stamp : Stamp
  deriving DecidableEq, Repr

/-- A correction of a source's calibration (R349): its offsets, whether one is clamped, and whether it
enters the clamp. -/
structure Calib where
  src : Nat
  x : Int
  y : Int
  yaw : Int
  /-- The offsets that the clamp changed: 0 X, 1 Y, 2 YAW. -/
  clamped : List Nat
  deriving DecidableEq, Repr

/-- A fused output under way: what becomes visible with it (R346). -/
structure FOut where
  /-- The row at whose boundary it becomes visible. -/
  due : W32
  /-- Output instant. -/
  to_ : Stamp
  /-- Output number. -/
  num : Nat
  /-- Its work has ended. -/
  ended : Bool
  used : Nat
  absent : Nat
  ndet : Nat
  hcyc : Nat
  /-- Ego-motion record, by word; none at a first output (R350). -/
  ego : Option (List W32)
  /-- The device asserts SPEED, TARGETS (R351, R352). -/
  speed : Bool
  split : Bool
  /-- Track table as words, and births since cast-on (R354). -/
  tracks : Tab W32
  births : Nat
  /-- A birth was refused, detections were dropped, an accumulation saturated. -/
  refused : Bool
  dropped : Bool
  sat : Bool
  /-- The grid: channels keyed by 128 × cell + channel, as bytes. -/
  grid : Tab Byte
  cal : List Calib
  deriving DecidableEq, Repr

/-- A fusion source's clock and frames (R332 to R339). -/
structure Source where
  /-- RATE in use, UQ8.24 (R333). Reset: 0x1999_999A. -/
  rate : Int
  /-- Ingress stamps of packet 0 by frame number, newest first (R334). Reset: none. -/
  ingress : List (W32 × Stamp)
  /-- Frames under assembly (R338). Reset: none. -/
  partials : List Frame
  /-- Frames of the snapshots, newest first (R339, R341). Reset: none. -/
  frames : List Frame
  /-- FSEQ of the last 16 frames that were completed or discarded, newest first (R338). Reset: none. -/
  ended : List W32
  /-- The offsets that stand in the clamp: 0 X, 1 Y, 2 YAW (R349). Reset: none. -/
  clamped : List Nat
  /-- The EXTRAP bit of R341, for which no register is given. Reset: no. -/
  extrap : Bool
  deriving DecidableEq, Repr

/-- A posted track command (R356). -/
structure TCmd where
  inject : Bool
  e : W32
  n : W32
  rad : BitVec 16
  index : Nat
  deriving DecidableEq, Repr

/-- A datagram of a fusion source (R337, R380). -/
structure Datagram where
  mac : Nat
  udp : BitVec 16
  ingress : Stamp
  bytes : List Byte
  deriving DecidableEq, Repr

/-- The fusion grid engine and the dispute unit (R332 to R359). -/
structure Fge where
  /-- Datagrams classified into fusion ingress and not yet assembled (R380). Reset: none. -/
  ingress : List Datagram
  sources : Tab Source
  /-- The output under way (R340). Reset: none. -/
  out : Option FOut
  /-- The visible track table as words, keyed by 8 × track + word (R354). Reset: 0. -/
  tracks : Tab W32
  /-- Births since cast-on (R354). Reset: 0. -/
  births : Nat
  /-- Outputs formed (R353). Reset: 0. -/
  onum : Nat
  /-- The previous grid and its output instant (R350). Reset: none. -/
  prevGrid : Option (Stamp × Tab Byte)
  /-- Track commands queued for the next output (R356). Reset: none. -/
  cmds : List TCmd
  /-- The device asserts SPEED, TARGETS (R351, R352). Reset: no. -/
  devSpeed : Bool
  devTargets : Bool
  /-- Start stamps of ACTIVE disputes (R358). Reset: none. -/
  since : Tab Stamp
  deriving DecidableEq, Repr

/-- A CAN controller (R360 to R377). -/
structure Can where
  /-- Buffers requested and not ended, each with its attempt state (R371). Reset: none. -/
  pend : List Nat
  /-- The buffer, or 32 plus the place of a Kwaros frame in its queue, in transmission, with its start
  of frame (R372). Reset: none. -/
  active : Option (Nat × Stamp)
  /-- Buffers whose first attempt has been made (R373). Reset: none. -/
  tried : List Nat
  /-- Buffers aborted during an attempt after its first sample point (R373). Reset: none. -/
  aborted : List Nat
  /-- Busy buffers whose TX record awaits its snapshot: buffer, entry number (R371). Reset: none. -/
  busy : List (Nat × W32)
  /-- STATUS records that await their snapshot: entry number, state (R376). Reset: none. -/
  news : List (W32 × Nat)
  /-- The controller is integrating (R364). Reset: no. -/
  integrating : Bool
  /-- The controller was error passive at the start of frame of the attempt in progress (R360). Reset: no. -/
  passive : Bool
  /-- Skein-held settings in force, where a change waits for bus idle (R364). Reset: none. -/
  hold : Option (Tab W32)
  /-- Entries found lost by a program in this row: core and entry number (R369). Reset: none. -/
  lost : List (Nat × W32)
  /-- Source stamps of ring entries, keyed by entry number modulo 65,536 (R369). Reset: 0. -/
  stamps : Tab Stamp
  deriving DecidableEq, Repr

/-- An 802.1AS message the MAC has sent (R383, R384). -/
structure PtpMsg where
  /-- messageType of IEEE 802.1AS: 0x0 Sync, 0x3 Pdelay_Resp, 0x8 Follow_Up, 0xA
  Pdelay_Resp_Follow_Up. -/
  typ : Nat
  seq : Nat
  /-- The timestamp the message carries, in whole seconds, nanoseconds, and 2^-16 ns. -/
  sec : Int
  ns : Int
  frac : Int
  /-- Egress stamp. -/
  egress : Stamp
  /-- gmTimeBaseIndicator and lastGmPhaseChange (R383); 0 in the others. -/
  base : Nat
  phase : Int
  /-- cumulativeScaledRateOffset and scaledLastGmFreqChange (R383). -/
  rateOffset : Nat
  freqChange : Nat
  /-- The identity of the sending port: clockIdentity and portNumber (R383). -/
  clockId : BitVec 64
  port : Nat
  /-- Destination address, first byte first (R383). -/
  dest : List Byte
  deriving DecidableEq, Repr

/-- An Ethernet MAC (R378 to R384). -/
structure Eth where
  /-- Requested slots in landing order (R381). Reset: none. -/
  pend : List Nat
  /-- The slot in transmission, or 16 for the Kwaros frame at the head of its queue (R381). Reset: none. -/
  active : Option Nat
  /-- The last Kwaros or slot frame sent, from its destination address, padded, without FCS (R381, R382). Reset: none.
  -/
  wire : List Byte
  /-- Ended slots awaiting their record's snapshot: slot, entry (R381). Reset: none. -/
  busy : List (Nat × W32)
  /-- Pdelay_Req frames to answer: ingress stamp and frame (R384). Reset: none. -/
  reqs : List (Stamp × List Byte)
  /-- Sync sequence number (R383). Reset: 0. -/
  ptpSeq : Nat
  /-- The instant from which a multiple of the Sync interval has its Sync still to come (R383). Reset: 0. -/
  syncFrom : Stamp
  /-- The 802.1AS messages of the last exchange, oldest first (R383, R384). Reset: none. -/
  sent : List PtpMsg
  /-- The management cycle in progress: operation (R378). Reset: none. -/
  mdio : Option Nat
  /-- Entries found lost by a program in this row: core and entry number (R369). Reset: none. -/
  lost : List (Nat × W32)
  /-- Source stamps of ring entries, keyed by entry number modulo 65,536 (R369). Reset: 0. -/
  stamps : Tab Stamp
  deriving DecidableEq, Repr

/-- A pulse input (R385, R386). -/
structure Pulse where
  /-- The boundary from which the input delivers its edges (R391). Reset: 0. -/
  from_ : Stamp
  /-- Stamps of the last edge of each polarity, on line A (or the input) and on line B. Reset: none. -/
  riseA : Option Stamp
  fallA : Option Stamp
  riseB : Option Stamp
  fallB : Option Stamp
  /-- Source stamp of the first edge that has a period (R293). Reset: none. -/
  timed : Option Stamp
  deriving DecidableEq, Repr

/-- An IMU burst: the stamp of its DRDY edge, and the command bytes that it sends first, in their order (R389). -/
structure ImuBurst where
  src : Stamp
  cmd : List Byte
  deriving DecidableEq, Repr

/-- Sensor inputs and the samples of all inputs (R27, R385 to R391). -/
structure Inputs where
  /-- Completed samples that await their admission instant (R27). Reset: none. -/
  done : List Sample
  /-- Admitted samples not yet in a snapshot (R28). Reset: none. -/
  pend : List Sample
  /-- Recent samples of each input for the loop units, newest first (R294). Reset: none. -/
  recent : Tab (List Sample)
  pulses : Tab Pulse
  /-- The IMU burst in progress (R389). Reset: none. -/
  burst : Option ImuBurst
  /-- The instant at which IMU_CS_N is released after the last burst (R389). Reset: none. -/
  csUntil : Option Stamp
  /-- The boundary from which the IMU port delivers its edges (R391). Reset: 0. -/
  imuFrom : Stamp
  /-- IMU_SYNC is high (R390). Reset: low. -/
  sync : Bool
  /-- The last sync instant (R390). Reset: none. -/
  syncLast : Option Stamp
  /-- Last conversion instant of each ADC channel (R388). Reset: none. -/
  adcLast : Tab (Option Stamp)
  deriving DecidableEq, Repr

/-- The AON domain: presence, seal, mirror (R75, R409, R410). -/
structure Aon where
  /-- Mirror writes in transit: address and value (R75). Reset: none. -/
  writes : List (W32 × W32)
  /-- SYS_RTC_SEC has just taken the value of SYS_RTC_ALARM (R69, R463). Reset: no. -/
  alarmDue : Bool
  /-- AONCLK runs (R437). Reset: yes, as PWREN is high. -/
  xtal : Bool
  /-- Consecutive failed and passing seal checks (R410). Reset: 0. -/
  sealFail : Nat
  sealPass : Nat
  deriving DecidableEq, Repr

/-- The link of the boot port to its flash (R416). -/
structure BootLink where
  /-- It reads in 8D-8D-8D; otherwise in 1S-1S-1S at 25 MHz. -/
  octal : Bool
  /-- Read opcode and dummy cycles. -/
  opcode : Nat
  dummy : Nat
  /-- The FREQ code of an 8D link. -/
  freq : Nat
  /-- The SETUP sequences sent, each with its own chip-select. -/
  sent : List (List Byte)
  deriving DecidableEq, Repr

/-- Gauge store, boot port and host events in waiting. -/
structure Boot where
  /-- The gauge store (R413). Reset: 0. -/
  gauge : Tab Byte
  /-- The gauge store as read at cast-on (R414). Reset: 0. -/
  loaded : Tab Byte
  /-- The image under programming (R415). Reset: none. -/
  prog : Option (Tab Byte)
  /-- Host EVT_RAISE writes waiting for step 3 (R427). Reset: none. -/
  raises : List (Port × W32)
  /-- HP_SAFE.CLR accepted, acting at the next step 3 (R423). Reset: no. -/
  safeClr : Bool
  /-- Raises since the previous boundary: source and stamp (R80). Reset: none. -/
  raised : List (Nat × Stamp)
  /-- The boot port's link (R416). Reset: 1S-1S-1S, opcode 0x13, no dummy cycles. -/
  link : BootLink
  deriving DecidableEq, Repr

/-- Recording and replay (R96 to R101). -/
structure Replay where
  /-- A replay is running or being started (R101). Reset: no. -/
  on : Bool
  /-- The node at which the pass of this row stops, from a LATE_PLE entry (R42). Reset: none. -/
  lateAt : Option Nat
  /-- The trailing write of this row is late, from a LATE_ENGINE entry (R42, R237). Reset: no. -/
  trailLate : Bool
  /-- Block of ring 0 from which logged live writes are still to be applied (R42). Reset: 0. -/
  cursor : Nat
  /-- Block of ring 1 from which logged inputs are still to arrive (R42). Reset: 0. -/
  inCursor : Nat
  deriving DecidableEq, Repr

/-- The state of the device. -/
structure State where
  /-- The variant (R3). Reset: TVD86-5GV, stepping 1. -/
  variant : Variant
  power : Power
  time : Time
  row : Row
  /-- Live register fields, keyed by bit address (R11). Reset: the reset value of each field. -/
  regs : Tab W32
  /-- Staging copies of each writer, keyed by 2^40 × writer + bit address (R396). Reset: 0. -/
  stage : Tab W32
  /-- Window memories by host address: CAN and Ethernet rings and buffers, boot data and gauge
  staging (R365, R371, R381, R420). Reset: 0. -/
  win : Tab Byte
  skn : Skein
  snap : Snap
  /-- The Dexiz cores (R102). -/
  cores : Tab Core
  ple : Ple
  kw : Kwaros
  fab : Fabric
  etu : Etu
  dsl : Dsl
  /-- The loop units (R289). -/
  loops : Tab Loop
  gnb : Gnb
  fge : Fge
  cans : Tab Can
  eths : Tab Eth
  inp : Inputs
  aon : Aon
  boot : Boot
  rpl : Replay
  /-- Draws of free values; the model's own field. Reset: 0. -/
  draws : Nat
  /-- Words returned to the hosts by the last reads of each port, oldest first (R393). Reset: none. -/
  hostData : Tab (List W32)
  /-- Commands that wait, first in, first out; the model's own field. Reset: none. -/
  pending : List Instr
  deriving DecidableEq, Repr

/-- A pose of zeros (R169: no pose yet). (DESIGN CHOICE 13 of notes/assumptions) -/
def Pose.zero : Pose := ⟨0, 0, 0, 0, 0, 0, 0⟩

/-- A FREE queue entry (R193). (DESIGN CHOICE 13 of notes/assumptions) -/
def QEntry.free : QEntry :=
  ⟨0, 0, 0, 0, .free, false, false, false, false, false, 0, false, 0, 0, 0, false, false⟩

/-- A node without history. (DESIGN CHOICE 13; DEDUCED 98 of notes/assumptions) -/
def NodeRt.fresh : NodeRt where
  status := 0
  lastRow := 0
  src := 0
  rate := 0
  srcStamp := none
  srcPrev := none
  disputeRow := none
  yawNow := 0
  yawRate := 0
  hitch := []
  hitchAt := 0
  learnedOn := none
  learnedOff := none
  useOn := none
  useOff := none
  learnN := 0
  miss := 0
  rateNow := 0
  rateNext := none
  membersOn := 0
  cmd := false
  actual := false
  cmd0 := false
  exts := []
  failMode := false
  failHard := false
  staleSeen := false
  line := ⟨false, []⟩
  lastRate := 0
  coverTo := none
  ground := []
  acts := []
  orphan := []

/-- A core after cast-on: every register 0, memories zeroed (R91). (DESIGN CHOICE 13 of notes/assumptions) -/
def Core.fresh : Core where
  gpr := []
  acc := []
  flags := 0
  sticky := 0
  pc := 0
  imem := []
  dmem := []
  run := .idle
  todo := []
  used := 0
  outs := []
  sentTo := []
  entries := 0
  payload := 0
  xfers := 0
  xferIn := 0
  xferOut := 0
  replies := []
  moves := []
  hostMsgs := []
  coreMsgs := []
  mbo := []
  done := false
  reload := false
  stepping := false
  heldSnap := none
  callbacks := []

/-- A stopped carrier group. (DESIGN CHOICE 13 of notes/assumptions) -/
def Group.fresh : Group := ⟨false, none, 0, 0x3E800, [], none, [], none, [], []⟩

/-- A channel that has made no edge. (DESIGN CHOICE 13 of notes/assumptions) -/
def Chan.fresh : Chan := ⟨0, 0, 0, [], false, none, false, 0, none, none, none, false, false, false⟩

/-- An idle slice. (DESIGN CHOICE 13 of notes/assumptions) -/
def Slice.fresh : Slice := ⟨0, none, none, 0, false, 0, false, false, 0, [], none, false, false, none, false, [], none⟩

/-- A loop unit that has not sampled. (DESIGN CHOICE 13 of notes/assumptions) -/
def Loop.fresh : Loop :=
  ⟨0, none, 0, false, 0, 0, 0, 0, none, 0, 0, 0, false, 0, none, 0, [], 0, 0, 0, 0, 0, false, false, [], none⟩

/-- An idle tracking channel. (DESIGN CHOICE 13 of notes/assumptions) -/
def Track.fresh : Track := ⟨0, 0, [], [], 0⟩

/-- A source whose clock model is in INIT. (DESIGN CHOICE 13 of notes/assumptions) -/
def Source.fresh : Source := ⟨0x1999999A, [], [], [], [], [], false⟩

/-- A CAN controller with nothing to do. (DESIGN CHOICE 13 of notes/assumptions) -/
def Can.fresh : Can := ⟨[], none, [], [], [], [], false, false, none, [], []⟩

/-- A MAC with nothing to do. (DESIGN CHOICE 13 of notes/assumptions) -/
def Eth.fresh : Eth := ⟨[], none, [], [], [], 0, 0, [], none, [], []⟩

/-- A pulse input without edges. (DESIGN CHOICE 13 of notes/assumptions) -/
def Pulse.fresh : Pulse := ⟨0, none, none, none, none, none⟩

/-- A skein whose every field has its reset value. -/
def Image.blank : Image := ⟨[], [], [], []⟩

/-- The engine state that RESET_N, ASLEEP and cast-on clear, over a given AON domain, gauge store,
variant and queue of commands (R63, R438). (DESIGN CHOICE 11, 13, 14, 15 of notes/assumptions) -/
def State.cleared (v : Variant) (phase : Phase) (pwren resetN supplies : Bool) (regs : Tab W32)
    (aon : Aon) (gauge : Tab Byte) (draws : Nat) (data : Tab (List W32)) (pending : List Instr) :
    State where
  variant := v
  power := ⟨phase, pwren, resetN, supplies, .none, false, 0, false, false, false, false, 0, [],
    [], []⟩
  time := ⟨0, false, [], 0, 0, 0, none, [], 0⟩
  row := ⟨0, 0, 0, 0, 4, false⟩
  regs := regs
  stage := []
  win := []
  skn := ⟨Image.blank, Image.blank, Image.blank, none, none⟩
  snap := ⟨[], [], [], [], [], [], []⟩
  cores := []
  ple := ⟨[], [], 0, [], [], none, [], false, false, 0, [], []⟩
  kw := ⟨[], [], [], [], []⟩
  fab := ⟨[], [], [], [], none, none, none, none, [], false, [], 0, [], 0, [], [], []⟩
  etu := ⟨[], [], [], []⟩
  dsl := ⟨[], [], [], [], false, [], [], []⟩
  loops := []
  gnb := ⟨[], [], none, none, [], 0, [], 0, false, 0, 0, 0, 0, 0, none, [], 0, 0, [], [], [], []⟩
  fge := ⟨[], [], none, [], 0, 0, none, [], false, false, []⟩
  cans := []
  eths := []
  inp := ⟨[], [], [], [], none, none, 0, false, none, []⟩
  aon := aon
  boot := ⟨gauge, [], none, [], false, [], ⟨false, 0x13, 0, 0, []⟩⟩
  rpl := ⟨false, none, false, 0, 0⟩
  draws := draws
  hostData := data
  pending := pending

/-- The variant the spec's single figures are for (R6): scale 5 with GV, at its first stepping, with
the largest DRAM. (DESIGN CHOICE 12 of notes/assumptions) -/
def Variant.std : Variant := ⟨.s5, true, true, 1, 8⟩

/-- The device while RESET_N is low, with its supplies up and the AON domain as it starts from
zero (R75, R410, R438). (DEDUCED 3; DESIGN CHOICE 11, 12, 16 of notes/assumptions) -/
def State.reset : State :=
  State.cleared Variant.std .held true false true [] ⟨[], false, true, 0, 0⟩ [] 0 [] []

end Sys2Proof.Machine
end

