-- ==== Sys2Proof/Machine/Ops.lean ====
section
/-! DEFINITION. Named operations over the state that every family of commands uses: arithmetic of
stamps and of fixed-point values, register fields, DRAM, raising an event, and the admission
record. -/

namespace Sys2Proof.Machine

/-! ### Arithmetic -/

/-- Signed difference from `a` to `b` (R51). -/
def sdiff (a b : Stamp) : Int := (b - a).toInt

/-- `a` is before `b`, modulo 2^64 (R51). -/
def sBefore (a b : Stamp) : Bool := decide (0 < sdiff a b)

/-- `a` is at or before `b` (R51). -/
def sAtOrBefore (a b : Stamp) : Bool := decide (a = b) || sBefore a b

/-- The later of two stamps. -/
def sMax (a b : Stamp) : Stamp := if sBefore a b then b else a

/-- A stamp from a number of sub-ticks (R14). -/
def subTicks (n : Nat) : Stamp := BitVec.ofNat 64 n

/-- A stamp moved by a signed number of sub-ticks (R15). -/
def sAdd (a : Stamp) (d : Int) : Stamp := a + BitVec.ofInt 64 d

/-- The TCLK cycle of a stamp (R50). -/
def cycle (a : Stamp) : Nat := a.toNat / 64

/-- A stamp rounded up to a whole TCLK cycle (R203). -/
def ceilCycle (a : Stamp) : Stamp := subTicks ((a.toNat + 63) / 64 * 64)

/-- A stamp rounded up to a multiple of `g` sub-ticks. -/
def ceilTo (g : Nat) (a : Stamp) : Stamp :=
  if g = 0 then a else subTicks ((a.toNat + g - 1) / g * g)

/-- A stamp rounded down to a multiple of `g` sub-ticks. -/
def floorTo (g : Nat) (a : Stamp) : Stamp := if g = 0 then a else subTicks (a.toNat / g * g)

/-- The first stamp after `t`, or at it, that is a multiple of `per`. -/
def gridUp (per : Nat) (t : Stamp) : Stamp :=
  if per = 0 then t else subTicks ((t.toNat + per - 1) / per * per)

/-- Sub-ticks in one microsecond (R56). -/
def usTicks : Nat := 25600

/-- Sub-ticks in one millisecond. -/
def msTicks : Nat := 25600000

/-- Quotient rounded to nearest, ties away from zero (R17); the divisor is positive. (DEDUCED 83 of
notes/assumptions) -/
def divRound (a : Int) (b : Nat) : Int :=
  if b = 0 then 0
  else if 0 ≤ a then (2 * a + b) / (2 * b) else -((2 * (-a) + b) / (2 * b))

/-- `x × 2^sh` rounded to nearest, ties away from zero (R109). (DEDUCED 83 of notes/assumptions) -/
def shiftRound (x : Int) (sh : Int) : Int :=
  if 0 ≤ sh then x * 2 ^ sh.toNat else divRound x (2 ^ (-sh).toNat)

/-- Clamp to an interval. (DEDUCED 83 of notes/assumptions) -/
def clampI (lo hi x : Int) : Int := min hi (max lo x)

/-- The range of a signed value of `w` bits. (DEDUCED 83 of notes/assumptions) -/
def satS (w : Nat) (x : Int) : Int := clampI (-(2 ^ (w - 1))) (2 ^ (w - 1) - 1) x

/-- The low `w` bits of a number read as a signed value. -/
def sext (w n : Nat) : Int :=
  let m := n % 2 ^ w
  if m < 2 ^ (w - 1) then (m : Int) else (m : Int) - 2 ^ w

/-- A signed value as an unsigned field of `w` bits. -/
def unsig (w : Nat) (x : Int) : Nat := (x % (2 ^ w : Int)).toNat

/-- Little-endian bytes of a number. -/
def bytesLE : Nat → Nat → List Byte
  | 0, _ => []
  | k + 1, n => BitVec.ofNat 8 n :: bytesLE k (n / 256)

/-- The number of little-endian bytes. -/
def leNat : List Byte → Nat
  | [] => 0
  | b :: t => b.toNat + 256 * leNat t

/-- Bytes `i` to `i + n − 1` of a list, as a little-endian number; missing bytes are 0. -/
def leAt (l : List Byte) (i n : Nat) : Nat := leNat ((l.drop i).take n)

/-- A list filled with zeros to `n` bytes. -/
def padTo (n : Nat) (l : List Byte) : List Byte := l ++ List.replicate (n - l.length) 0

/-- Bit `i` of a number. -/
def bitOf (n i : Nat) : Bool := n / 2 ^ i % 2 == 1

/-- Sets or clears a bit of a number. -/
def withBit (n i : Nat) (b : Bool) : Nat :=
  if bitOf n i == b then n else if b then n + 2 ^ i else n - 2 ^ i

/-- Bits of a number from `lo`, `w` of them. -/
def bitsOf (n lo w : Nat) : Nat := n / 2 ^ lo % 2 ^ w

/-- Inserts into a list kept in the order of `le`. -/
def insertBy {α : Type} (le : α → α → Bool) (x : α) : List α → List α
  | [] => [x]
  | y :: t => if le y x then y :: insertBy le x t else x :: y :: t

/-- Insertion sort, stable. -/
def sortBy {α : Type} (le : α → α → Bool) (l : List α) : List α :=
  l.foldl (fun acc x => insertBy le x acc) []

/-! ### Sub-states -/

/-- Core `n`. -/
def State.core (s : State) (n : Nat) : Core := Tab.get Core.fresh s.cores n

/-- Replaces core `n`. -/
def State.setCore (s : State) (n : Nat) (c : Core) : State :=
  { s with cores := Tab.put Core.fresh s.cores n c }

/-- The runtime state of node `n`. -/
def State.nodeRt (s : State) (n : Nat) : NodeRt := Tab.get NodeRt.fresh s.ple.nodes n

/-- Replaces the runtime state of node `n`. -/
def State.setNodeRt (s : State) (n : Nat) (r : NodeRt) : State :=
  { s with ple := { s.ple with nodes := Tab.put NodeRt.fresh s.ple.nodes n r } }

/-- Queue entry `i`. -/
def State.entry (s : State) (i : Nat) : QEntry := Tab.get QEntry.free s.ple.queue i

/-- Replaces queue entry `i`. -/
def State.setEntry (s : State) (i : Nat) (e : QEntry) : State :=
  { s with ple := { s.ple with queue := Tab.put QEntry.free s.ple.queue i e } }

/-! ### Register fields -/

/-- A live register field. (DESIGN CHOICE 37 of notes/assumptions) -/
def State.live (s : State) (f : Fld) (i : Nat := 0) (j : Nat := 0) : Nat := (f.get s.regs i j).toNat

/-- Sets a live register field. (DESIGN CHOICE 37 of notes/assumptions) -/
def State.setLive (s : State) (f : Fld) (v : Nat) (i : Nat := 0) (j : Nat := 0) : State :=
  { s with regs := f.put s.regs i j v }

/-- A live field is not zero. -/
def State.flag (s : State) (f : Fld) (i : Nat := 0) (j : Nat := 0) : Bool := s.live f i j != 0

/-- A skein-held field of a slot. -/
def Image.fld (m : Image) (f : Fld) (i : Nat := 0) (j : Nat := 0) : Nat := (f.get m.flds i j).toNat

/-- A skein-held field of the ACTIVE slot (R11). -/
def State.conf (s : State) (f : Fld) (i : Nat := 0) (j : Nat := 0) : Nat := s.skn.act.fld f i j

/-- A 64-bit quantity in two live registers (R10). -/
def State.live64 (s : State) (lo hi : Fld) (i : Nat := 0) : Nat :=
  s.live lo i + 2 ^ 32 * s.live hi i

/-- Sets a 64-bit quantity in two live registers (R10). -/
def State.setLive64 (s : State) (lo hi : Fld) (v : Nat) (i : Nat := 0) : State :=
  (s.setLive lo (v % 2 ^ 32) i).setLive hi (v / 2 ^ 32) i

/-- Adds one to a live counter, modulo its width. -/
def State.bump (s : State) (f : Fld) (i : Nat := 0) : State := s.setLive f (s.live f i + 1) i

/-- Adds to a live counter that saturates at its width. -/
def State.bumpSat (s : State) (f : Fld) (n : Nat := 1) (i : Nat := 0) : State :=
  s.setLive f (min (2 ^ f.width - 1) (s.live f i + n)) i

/-- A staging copy of a writer (R396): 0 and 1 for the host ports, 16 + n for core n. -/
def writerCode : Writer → Nat
  | .host p => p.idx
  | .core n => 16 + n
  | .liveSet => 2

/-- Reads a field of a writer's staging copy (R396). (DESIGN CHOICE 37 of notes/assumptions) -/
def State.staged (s : State) (w : Writer) (f : Fld) (i : Nat := 0) (j : Nat := 0) : Nat :=
  (Tab.get 0 s.stage (2 ^ 40 * writerCode w + f.key i j)).toNat

/-- Writes a field of a writer's staging copy (R396). (DESIGN CHOICE 37 of notes/assumptions) -/
def State.setStaged (s : State) (w : Writer) (f : Fld) (v : Nat) (i : Nat := 0) (j : Nat := 0) :
    State :=
  { s with
    stage := Tab.put 0 s.stage (2 ^ 40 * writerCode w + f.key i j)
      (BitVec.ofNat 32 (v % 2 ^ f.width)) }

/-- Draws a free value's index. (DESIGN CHOICE 10 of notes/assumptions) -/
def State.drawn (s : State) : State := { s with draws := s.draws + 1 }

/-! ### The variant -/

/-- Edge channels (R3). -/
def Variant.channels (v : Variant) : Nat :=
  match v.scale with | .s5 => 512 | .s2 => 256 | .s1 => 128

/-- Carrier groups (R3). -/
def Variant.groups (v : Variant) : Nat :=
  match v.scale with | .s5 => 32 | .s2 => 16 | .s1 => 8

/-- Drive slices (R3). -/
def Variant.slices (v : Variant) : Nat :=
  match v.scale with | .s5 => 48 | .s2 => 24 | .s1 => 12

/-- Banks (R3). -/
def Variant.banks (v : Variant) : Nat :=
  match v.scale with | .s5 => 8 | .s2 => 4 | .s1 => 2

/-- Needle-bed nodes (R3). -/
def Variant.nodes (v : Variant) : Nat :=
  match v.scale with | .s5 => 131072 | .s2 => 65536 | .s1 => 32768

/-- Dexiz cores (R3). -/
def Variant.cores (v : Variant) : Nat := match v.scale with | .s1 => 4 | _ => 8

/-- GNSS IF ports (R3). -/
def Variant.ports (v : Variant) : Nat :=
  if v.gnb then (match v.scale with | .s5 => 4 | _ => 2) else 0

/-- GNSS tracking channels (R3). -/
def Variant.tracks (v : Variant) : Nat :=
  if v.gnb then (match v.scale with | .s5 => 256 | .s2 => 128 | .s1 => 64) else 0

/-- Fusion sources (R3). -/
def Variant.sources (v : Variant) : Nat :=
  if v.fge then (match v.scale with | .s5 => 16 | .s2 => 12 | .s1 => 8) else 0

/-- Widest fusion grid (R3). -/
def Variant.gridWidth (v : Variant) : Nat :=
  match v.scale with | .s5 => 1024 | .s2 => 768 | .s1 => 512

/-- DRAM_LOG2 (R9). -/
def Variant.dramLog2 (v : Variant) : Nat :=
  match v.scale with | .s5 => 3 | .s2 => 2 | .s1 => 1

/-- Installed DRAM in bytes. -/
def Variant.dramBytes (v : Variant) : Nat := v.dramGiB * 2 ^ 30

/-- T_CHK in units of 1 ms (R403). -/
def Variant.tChk (v : Variant) : Nat := match v.scale with | .s5 => 4 | .s2 => 2 | .s1 => 1

/-- SYS_ID (R9). -/
def Variant.sysId (v : Variant) : Nat :=
  0x0D86 * 2 ^ 16 + (match v.scale with | .s5 => 5 | .s2 => 2 | .s1 => 1) * 2 ^ 12 +
    ((if v.gnb then 1 else 0) + (if v.fge then 2 else 0)) * 2 ^ 8 + v.stepping.toNat

/-- SYS_FUSE (R9). -/
def Variant.sysFuse (v : Variant) : Nat :=
  v.dramLog2 * 2 ^ 20 + v.groups * 2 ^ 14 + v.ports * 2 ^ 10 + v.cores * 2 ^ 6 + v.banks * 2 ^ 2 +
    (if v.fge then 2 else 0) + (if v.gnb then 1 else 0)

/-! ### Modes and rows -/

/-- SYS_PWRSTAT.CUR names a mode that places edges (R44). -/
def placingMode (cur : Nat) : Bool := decide (cur ≤ 3)

/-- A mode with rows (R44). -/
def rowMode (cur : Nat) : Bool := decide (cur ≤ 4)

/-- The row period in sub-ticks (R21). -/
def State.period (s : State) : Nat := s.row.k * 6400000

/-- Rows run, bind-off and its linger included (R67). -/
def State.rowsRun (s : State) : Bool := decide (s.power.phase = .rows)

/-- The end of step 3 of the current row's boundary (R201). -/
def State.fStamp (s : State) : Stamp := s.row.cur + 25600

/-- The device places edges: a placing mode, no bind-off under way (R45, R67). -/
def State.places (s : State) : Bool :=
  s.rowsRun && placingMode (s.live Reg.SYS_PWRSTAT_CUR) && decide (s.power.bind = .none)

/-- The time engines and programs see: DT, or replay time in a replay (R100). (DESIGN CHOICE 5 of notes/assumptions)
-/
def State.now (s : State) : Stamp :=
  if s.rpl.on then
    s.time.dt - s.time.d0 +
      BitVec.ofNat 64 (s.live64 Reg.DXC_RPL_T0_LO_T0 Reg.DXC_RPL_T0_HI_T0)
  else s.time.dt

/-- Moves device time forward to a stamp; DT only increases (R49). (DESIGN CHOICE 5 of notes/assumptions) -/
def State.advanceTo (s : State) (t : Stamp) : State :=
  if s.time.valid && sBefore s.now t then
    { s with time := { s.time with dt := s.time.dt + (t - s.now) } }
  else s

/-! ### DRAM -/

/-- A byte of DRAM; an offset outside the installed DRAM reads 0 (R223). (DESIGN CHOICE 14 of notes/assumptions) -/
def State.dramByte (s : State) (off : Nat) : Byte :=
  if off < s.variant.dramBytes then Tab.get 0 s.fab.dram off else 0

/-- Writes a byte of DRAM; an offset outside the installed DRAM holds nothing. -/
def State.setDramByte (s : State) (off : Nat) (b : Byte) : State :=
  if off < s.variant.dramBytes then
    { s with fab := { s.fab with dram := Tab.put 0 s.fab.dram off b } }
  else s

/-- Reads `n` bytes of DRAM. -/
def State.dramBytes (s : State) (off n : Nat) : List Byte :=
  (List.range n).map (fun i => s.dramByte (off + i))

/-- Writes bytes of DRAM at rising offsets. -/
def State.setDramBytes (s : State) (off : Nat) : List Byte → State
  | [] => s
  | b :: t => State.setDramBytes (s.setDramByte off b) (off + 1) t

/-- A byte of a window memory. (DESIGN CHOICE 15 of notes/assumptions) -/
def State.winByte (s : State) (a : Nat) : Byte := Tab.get 0 s.win a

/-- Writes bytes of a window memory. -/
def State.setWin (s : State) (a : Nat) : List Byte → State
  | [] => s
  | b :: t => State.setWin { s with win := Tab.put 0 s.win a b } (a + 1) t

/-- Reads bytes of a window memory. -/
def State.winBytes (s : State) (a n : Nat) : List Byte :=
  (List.range n).map (fun i => s.winByte (a + i))

/-! ### Reading the rings -/

/-- Blocks of ring `r` (R96). -/
def State.ringSize (s : State) (r : Nat) : Nat := 2 ^ s.conf Reg.DXC_RING_CFG_LOG2N r

/-- The bytes of `n` blocks from block `i` of ring `r` on (R96). -/
def State.ringBytes (s : State) (r i n : Nat) : List Byte :=
  let size := s.ringSize r
  (List.range n).flatMap (fun j =>
    s.dramBytes (s.conf Reg.DXC_RING_BASE_BASE r * 4096 + 16 * ((i + j) % size)) 16)

/-- The blocks from block `i` to the write index of ring `r`: all of them, from the read index of a full ring on. -/
def State.ringLeft (s : State) (r i : Nat) : Nat :=
  let size := s.ringSize r
  if s.fab.fullRings.contains r && decide (i % size = s.live Reg.DXC_RING_RD_RD r % size) then size
  else (s.live Reg.DXC_RING_WR_WR r % size + size - i % size) % size

/-- An admission-record entry (R40). -/
structure RecEntry where
  stamp : Stamp
  row : W32
  arg : Nat
  kind : Nat
  deriving DecidableEq, Repr

/-- The entry in block `i` of ring 0. -/
def State.recEntry (s : State) (i : Nat) : RecEntry :=
  let b := s.ringBytes 0 i 1
  ⟨BitVec.ofNat 64 (leAt b 0 8), BitVec.ofNat 32 (leAt b 8 4), leAt b 12 3, leAt b 15 1⟩

/-- The entries of ring 0 from block `i` on, with their blocks. -/
def State.recFrom (s : State) (i : Nat) : List (Nat × RecEntry) :=
  (List.range (s.ringLeft 0 i)).map (fun j => (i + j, s.recEntry (i + j)))

/-- The entries of one kind and row that ring 0 holds. -/
def State.recOf (s : State) (kind : Nat) (row : W32) : List RecEntry :=
  ((s.recFrom (s.live Reg.DXC_RING_RD_RD 0)).map Prod.snd).filter (fun e => e.kind == kind && e.row == row)

/-- The record holds a LATE_ENGINE entry of an event source for a row: how many (R40, R42). (DEDUCED 77 of
notes/assumptions) -/
def State.lateCount (s : State) (ev : Nat) (row : W32) : Nat :=
  ((s.recOf 6 row).filter (fun e => e.arg == ev)).length

/-- An input-log entry, with the block after it (R98). -/
structure InEntry where
  next : Nat
  sample : Sample
  deriving DecidableEq, Repr

/-- The input-log entries from block `i` on, `left` blocks at most (R98). -/
def State.inFrom (s : State) : Nat → Nat → Nat → List InEntry
  | 0, _, _ => []
  | fuel + 1, i, left =>
    if left < 2 then []
    else
      let h := s.ringBytes 1 i 2
      let len := leAt h 16 4
      let k := 2 + (len + 15) / 16
      if left < k then []
      else
        let x : Sample := ⟨BitVec.ofNat 24 (leAt h 12 3), BitVec.ofNat 64 (leAt h 0 8), BitVec.ofNat 64 (leAt h 24 8),
          BitVec.ofNat 32 (leAt h 8 4), (s.ringBytes 1 (i + 2) (k - 2)).take len⟩
        ⟨i + k, x⟩ :: State.inFrom s fuel (i + k) (left - k)

/-- The input-log entries from block `i` on. -/
def State.inputsFrom (s : State) (i : Nat) : List InEntry := s.inFrom (s.ringLeft 1 i) i (s.ringLeft 1 i)

/-! ### Turns -/

/-- The record of a replay or its input log brings something with a stamp up to `t` that has not taken effect yet: a
logged live write or a logged input (R42). (DESIGN CHOICE 76 of notes/assumptions) -/
def State.recordFirst (s : State) (t : Stamp) : Bool :=
  s.rpl.on && ((s.recFrom s.rpl.cursor).any (fun x => x.2.kind == 8 && sAtOrBefore x.2.stamp t) ||
    (s.inputsFrom s.rpl.inCursor).any (fun x => sAtOrBefore x.sample.adm t))

/-- Device time does not reach `t` earlier than now. (DESIGN CHOICE 5 of notes/assumptions) -/
def State.reaches (s : State) (t : Stamp) : Bool := s.time.valid && sAtOrBefore s.now t

/-- An event with stamp `t` can still act: device time does not reach `t` earlier than now, or `t` lies in the
microsecond of the boundary, which is one command (R23). (DESIGN CHOICE 5, 76 of notes/assumptions) -/
def State.inTurn (s : State) (t : Stamp) : Bool :=
  !s.recordFirst t && (s.reaches t || (s.time.valid && sAtOrBefore s.row.cur t && sAtOrBefore s.now s.fStamp))

/-! ### Events -/

/-- Sources of engines that the variant lacks are never raised (R424). -/
def eventPresent (v : Variant) (e : Nat) : Bool :=
  if 47 ≤ e ∧ e ≤ 53 then v.gnb
  else if 54 ≤ e ∧ e ≤ 58 then v.fge
  else if 81 ≤ e ∧ e ≤ 95 then false
  else decide (e < 128)

/-- Sets the pending bits that EVT_ROUTE asks for (R426). -/
def State.routeEvent (s : State) (e : Nat) : State :=
  let set := fun (s : State) (p : Nat) =>
    let w := s.live Reg.EVT_PEND_PEND p (e / 32)
    if bitOf w (e % 32) then s else s.setLive Reg.EVT_PEND_PEND (w + 2 ^ (e % 32)) p (e / 32)
  let s := if s.flag Reg.EVT_ROUTE_HPA e then set s 0 else s
  if s.flag Reg.EVT_ROUTE_HPB e then set s 1 else s

/-- In DOZE and ASLEEP no event but clock-loss is raised (R428). -/
def State.eventOpen (s : State) (e : Nat) : Bool :=
  decide (e = 0) || !(decide (s.power.phase = .doze) || decide (s.power.phase = .unpowered))

/-- Raises event source `e` with an argument and a raise stamp; of several raises in one cycle the highest
argument stands (R425). (DEDUCED 53 of notes/assumptions) -/
def State.raise (s : State) (e arg : Nat) (stamp : Stamp) : State :=
  if eventPresent s.variant e && s.eventOpen e then
    let arg := if s.boot.raised.contains (e, stamp) then max arg (s.live Reg.EVT_ARG_ARG e) else arg
    let s := s.bump Reg.EVT_CNT_CNT e
    let s := s.setLive Reg.EVT_ARG_ARG arg e
    let s := s.setLive Reg.EVT_STAMP_LO_STAMP (stamp.toNat % 2 ^ 32) e
    let s := s.setLive Reg.EVT_STAMP_HI_STAMP (stamp.toNat / 2 ^ 32) e
    let s := { s with boot := { s.boot with raised := s.boot.raised ++ [(e, stamp)] } }
    s.routeEvent e
  else s

/-- Raises an event at the TCLK cycle of the present instant (R425). (DEDUCED 53 of notes/assumptions) -/
def State.raiseNow (s : State) (e arg : Nat) : State :=
  s.raise e arg (floorTo 64 s.now)

/-- HPA_INT_N or HPB_INT_N is asserted: any pending bit of the port is set (R426). -/
def State.intAsserted (s : State) (p : Port) : Bool :=
  (List.range 4).any (fun w => s.flag Reg.EVT_PEND_PEND p.idx w)

/-! ### Recording rings -/

/-- The blocks that the entry in block `i` of ring `r` takes: one in the admission record, a header of two and the
payload in the input log, one and the payload of a FRAME in the capture (R40, R98, R99). -/
def State.entryBlocks (s : State) (r i : Nat) : Nat :=
  if r = 0 then 1
  else if r = 1 then 2 + (leAt (s.ringBytes 1 i 2) 16 4 + 15) / 16
  else
    let h := s.ringBytes r i 1
    if leAt h 15 1 = 4 then 1 + (leAt h 12 3 + 15) / 16 else 1

/-- The read index of ring `r` once those of the `left` blocks from block `i` on whose entries `need` further blocks
overwrite are passed; where they are all overwritten, the write index (R97). (DEDUCED 80 of notes/assumptions) -/
def State.ringPast (s : State) (r need : Nat) : Nat → Nat → Nat → Nat
  | 0, _, i => i
  | fuel + 1, left, i =>
    let k := s.entryBlocks r i
    if left + need ≤ s.ringSize r then i
    else if left ≤ k then s.live Reg.DXC_RING_WR_WR r % s.ringSize r
    else State.ringPast s r need fuel (left - k) ((i + k) % s.ringSize r)

/-- Says whether ring `r`, with WR and RD equal, is full or empty. -/
def State.ringFull (s : State) (r : Nat) (full : Bool) : State :=
  let l := s.fab.fullRings.filter (fun x => x != r)
  { s with fab := { s.fab with fullRings := if full then l ++ [r] else l } }

/-- Makes room in ring `r` for an entry of `need` blocks: where the ring has no room for it the oldest entries are
overwritten, RD moves past them, OVF is set and the ring-overflow event is raised, once for the entry that is
written (R97). (DEDUCED 80 of notes/assumptions) -/
def State.ringRoom (s : State) (r need : Nat) : State :=
  let rd := s.live Reg.DXC_RING_RD_RD r % s.ringSize r
  let left := s.ringLeft r rd
  if left + need ≤ s.ringSize r then s
  else
    let s := (s.setLive Reg.DXC_RING_RD_RD (s.ringPast r need (left + 1) left rd) r).ringFull r false
    (s.setLive Reg.DXC_RING_STAT_OVF 1 r).raiseNow 22 r

/-- Writes one 16-byte block of a ring, which wraps; an entry longer than its ring overwrites its own beginning
(R96). -/
def State.ringBlock (s : State) (r : Nat) (b : List Byte) : State :=
  let n := s.ringSize r
  let wr := s.live Reg.DXC_RING_WR_WR r % n
  let s := s.setDramBytes (s.conf Reg.DXC_RING_BASE_BASE r * 4096 + 16 * wr) (padTo 16 (b.take 16))
  let s := if s.fab.fullRings.contains r then s.setLive Reg.DXC_RING_RD_RD ((wr + 1) % n) r else s
  let s := s.setLive Reg.DXC_RING_WR_WR ((wr + 1) % n) r
  s.ringFull r (decide ((wr + 1) % n = s.live Reg.DXC_RING_RD_RD r % n))

/-- Cuts a list of bytes into blocks of 16. -/
def blocks16 : Nat → List Byte → List (List Byte)
  | 0, _ => []
  | k + 1, l => if l.isEmpty then [] else l.take 16 :: blocks16 k (l.drop 16)

/-- Writes an entry of whole blocks into a ring that is in use (R96). (DEDUCED 80 of notes/assumptions) -/
def State.ringWrite (s : State) (r : Nat) (bytes : List Byte) : State :=
  if s.conf Reg.DXC_RING_CFG_EN r = 1 then
    let l := blocks16 (bytes.length + 1) bytes
    l.foldl (fun s b => s.ringBlock r b) (s.ringRoom r l.length)
  else s

/-- Writes an admission-record entry (R40). In replay the host writes this ring (R96). -/
def State.logEntry (s : State) (kind arg : Nat) (stamp : Stamp) (row : W32) : State :=
  if s.rpl.on then s
  else s.ringWrite 0 (bytesLE 8 stamp.toNat ++ bytesLE 4 row.toNat ++ bytesLE 3 arg ++ bytesLE 1 kind)

/-- Logs a host write to a live register: LIVE_WRITE and LIVE_DATA (R40). -/
def State.logLive (s : State) (p : Port) (addr value : Nat) (stamp : Stamp) : State :=
  let s := s.logEntry 0x08 p.idx stamp s.row.num
  s.logEntry 0x09 0 (BitVec.ofNat 64 (addr % 2 ^ 32 + 2 ^ 32 * (value % 2 ^ 32))) s.row.num

/-- Logs LATE_ENGINE with the event source of the engine's LATE event (R40). -/
def State.logLateEngine (s : State) (ev : Nat) : State := s.logEntry 0x06 ev s.row.cur s.row.num

/-- Writes a capture entry, in replay only (R96, R99). (DEDUCED 81 of notes/assumptions) -/
def State.capture (s : State) (kind : Nat) (lo8 mid4 hi3 : Nat) (payload : List Byte := []) : State :=
  if s.rpl.on then
    s.ringWrite 2 (bytesLE 8 lo8 ++ bytesLE 4 mid4 ++ bytesLE 3 hi3 ++ bytesLE 1 kind ++
      padTo ((payload.length + 15) / 16 * 16) payload)
  else s

/-! ### Input samples -/

/-- The samples with a source stamp after `t`, and the latest one not after it, of a list with the newest first. -/
def sinceStamp (t : Stamp) : List Sample → List Sample
  | [] => []
  | x :: l => if sBefore t x.src then x :: sinceStamp t l else [x]

/-- Keeps a sample for the loop units, newest first: with it those of the 4 µs before `t`, and the latest one
before them, so that the newest sample 2 µs before any instant from `t` on is at hand (R294). (DEDUCED 65 of
notes/assumptions) -/
def State.keepRecent (s : State) (x : Sample) (t : Stamp) : State :=
  let l := Tab.get [] s.inp.recent x.id.toNat
  { s with inp := { s.inp with recent := Tab.put [] s.inp.recent x.id.toNat (x :: sinceStamp (t - 102400) l) } }

/-- The number of the first row whose boundary is at or after a stamp: from the boundary under way, whose row has
its number and not yet its next boundary, or else from the next one (R28). -/
def State.rowOf (s : State) (adm : Stamp) : W32 :=
  let first := s.row.num + (if s.row.started && decide (s.row.cur ≠ s.row.next) then 1 else 0)
  if sAtOrBefore adm s.row.next then first
  else first + BitVec.ofNat 32 (((sdiff s.row.next adm).toNat + s.period - 1) / s.period)

/-- The row in which an instant up to now lies: while a boundary is under way, an instant before it lies in the row
that ends there (R40). -/
def State.rowAt (s : State) (t : Stamp) : W32 :=
  if s.row.started && decide (s.row.cur = s.row.next) && sBefore t s.row.cur then s.row.num - 1 else s.row.num

/-- Admits a sample: logs ADMIT, writes the input log, and queues it for its snapshot (R28, R40,
R98). In replay neither ring is written (R96). -/
def State.takeIn (s : State) (id : InputId) (src adm : Stamp) (payload : List Byte) : State :=
  let row := s.rowOf adm
  let s := s.logEntry 0x01 id.toNat src row
  let s :=
    if s.rpl.on then s
    else s.ringWrite 1 (bytesLE 8 src.toNat ++ bytesLE 4 row.toNat ++ bytesLE 3 id.toNat ++ [0] ++
      bytesLE 4 payload.length ++ bytesLE 4 0 ++ bytesLE 8 adm.toNat ++
      padTo ((payload.length + 15) / 16 * 16) payload)
  let x : Sample := ⟨id, src, adm, row, payload⟩
  { s with inp := { s.inp with pend := s.inp.pend ++ [x] } }

/-- Refuses a sample for its age at its admission stamp (R27, R40). -/
def State.refuseAge (s : State) (id : InputId) (src adm : Stamp) : State :=
  s.logEntry 0x02 id.toNat src (s.rowAt adm)

/-- A sample is admitted if its admission stamp is no later than its source stamp plus the maximum
age, in sub-ticks (R27). -/
def inAge (src adm : Stamp) (maxAge : Nat) : Bool := sAtOrBefore adm (src + subTicks maxAge)

/-- Input samples are taken: rows run, and no replay supplies them (R100, R391). -/
def State.takesInput (s : State) : Bool := s.rowsRun && !s.rpl.on

end Sys2Proof.Machine
end

