-- ==== Sys2Proof/Machine/Flags.lean ====
section
/-! DEFINITION. The flag and sticky computations of the Dexiz cores (R105 to R109). -/

namespace Sys2Proof.Machine

/-- FLAGS from its four bits: Z, N, C and V in bits 3 to 0 (R105). -/
def packFlags (z n c v : Bool) : BitVec 4 :=
  BitVec.ofNat 4 (z.toNat * 8 + n.toNat * 4 + c.toNat * 2 + v.toNat)

/-- The Z flag (R105). -/
def Core.z (k : Core) : Bool := k.flags.getLsbD 3

/-- The N flag (R105). -/
def Core.nf (k : Core) : Bool := k.flags.getLsbD 2

/-- The C flag (R105). -/
def Core.cf (k : Core) : Bool := k.flags.getLsbD 1

/-- The V flag (R105). -/
def Core.vf (k : Core) : Bool := k.flags.getLsbD 0

/-- Writes Z and N from a result and keeps C and V (R107). -/
def Core.flagsZN (k : Core) (r : W32) : Core :=
  { k with flags := packFlags (r == 0) r.msb k.cf k.vf }

/-- Writes all four flags from an addition (R108). -/
def Core.flagsAdd (k : Core) (a b : W32) : Core :=
  let r := a + b
  { k with flags :=
      packFlags (r == 0) r.msb (decide (2 ^ 32 ≤ a.toNat + b.toNat)) (a.msb == b.msb && r.msb != a.msb) }

/-- Writes all four flags from a subtraction (R108). -/
def Core.flagsSub (k : Core) (a b : W32) : Core :=
  let r := a - b
  { k with flags :=
      packFlags (r == 0) r.msb (decide (b.toNat ≤ a.toNat)) (a.msb != b.msb && r.msb != a.msb) }

/-- STICKY bits (R105). -/
def stSat : BitVec 4 := 1
/-- STICKY.DIVZ (R105). -/
def stDivz : BitVec 4 := 2
/-- STICKY.ADDR (R105). -/
def stAddr : BitVec 4 := 4
/-- STICKY.LATE (R105). -/
def stLate : BitVec 4 := 8

/-- Sets sticky bits (R106). -/
def Core.stick (k : Core) (b : BitVec 4) : Core := { k with sticky := k.sticky ||| b }

/-- Sets a sticky bit if a condition holds (R106). -/
def Core.stickIf (k : Core) (q : Bool) (b : BitVec 4) : Core := if q then k.stick b else k

/-- `sat32` of an exact value (R109). -/
def sat32 (x : Int) : W32 := BitVec.ofInt 32 (satS 32 x)

/-- `sat32` changes the value (R109). -/
def sats32 (x : Int) : Bool := decide (satS 32 x ≠ x)

/-- `sat64` of an exact value (R109). -/
def sat64 (x : Int) : BitVec 64 := BitVec.ofInt 64 (satS 64 x)

/-- `sat64` changes the value (R109). -/
def sats64 (x : Int) : Bool := decide (satS 64 x ≠ x)

/-- Whether condition code `cc` holds (R120); none where the code is not listed. -/
def condHolds (k : Core) (cc : BitVec 4) : Option Bool :=
  match cc.toNat with
  | 0 => some true
  | 1 => some k.z
  | 2 => some (!k.z)
  | 3 => some (k.nf != k.vf)
  | 4 => some (k.nf == k.vf)
  | 5 => some (k.z || (k.nf != k.vf))
  | 6 => some (!k.z && (k.nf == k.vf))
  | 7 => some (!k.cf)
  | 8 => some k.cf
  | 9 => some (!k.cf || k.z)
  | 10 => some (k.cf && !k.z)
  | 11 => some k.nf
  | 12 => some (!k.nf)
  | 13 => some k.vf
  | 14 => some (!k.vf)
  | _ => none

end Sys2Proof.Machine
end

