-- ==== Sys2Proof/Machine/Operands.lean ====
section
/-! DEFINITION. The operand forms of the Dexiz instructions: general registers and accumulators,
immediates and shifts, data-memory addresses and operand blocks (R102, R110, R111, R117, R121). -/

namespace Sys2Proof.Machine

/-- A general register; s0 reads as zero (R102). -/
def Core.s (k : Core) (r : BitVec 5) : W32 := if r = 0 then 0 else Tab.get 0 k.gpr r.toNat

/-- Writes a general register; a write of s0 is discarded (R102). -/
def Core.put (k : Core) (r : BitVec 5) (v : W32) : Core :=
  if r = 0 then k else { k with gpr := Tab.put 0 k.gpr r.toNat v }

/-- An accumulator (R102). -/
def Core.a (k : Core) (r : BitVec 2) : BitVec 64 := Tab.get 0 k.acc r.toNat

/-- Writes an accumulator (R102). -/
def Core.putA (k : Core) (r : BitVec 2) (v : BitVec 64) : Core :=
  { k with acc := Tab.put 0 k.acc r.toNat v }

/-- The SH field as a signed value (R111). -/
def shVal (sh : BitVec 5) : Int := sh.toInt

/-- An immediate, sign-extended to 32 bits (R110). -/
def immS (imm : BitVec 16) : W32 := imm.signExtend 32

/-- An immediate, zero-extended to 32 bits (R115). -/
def immZ (imm : BitVec 16) : W32 := imm.zeroExtend 32

/-- A range of core addresses lies in data memory and is aligned (R77, R121). -/
def inData (addr len align : Nat) : Bool :=
  decide (0x10000 ≤ addr) && decide (addr + len ≤ 0x40000) && decide (addr % align = 0)

/-- Bytes of data memory (R77). -/
def Core.bytes (k : Core) (addr n : Nat) : List Byte :=
  (List.range n).map (fun i => Tab.get 0 k.dmem (addr + i))

/-- Writes bytes of data memory; bytes outside it are dropped (R77). -/
def Core.putBytes (k : Core) (addr : Nat) : List Byte → Core
  | [] => k
  | b :: t =>
    let k := if 0x10000 ≤ addr ∧ addr < 0x40000 then { k with dmem := Tab.put 0 k.dmem addr b } else k
    Core.putBytes k (addr + 1) t

/-- The host address of a core address in the device register space (R77). -/
def regSpace (a : Nat) : Option Nat :=
  if 0x10000000 ≤ a ∧ a < 0x19000000 ∧ ¬ (0x11000000 ≤ a ∧ a < 0x12000000) then
    some (a - 0x10000000)
  else none

/-- The effective address of a load or store (R117). -/
def Core.ea (k : Core) (f : IFmt) : Nat := (k.s f.ra + immS f.imm).toNat

end Sys2Proof.Machine
end

