-- ==== Sys2Proof/Machine/Cores.lean ====
section
/-! DEFINITION. How a Dexiz core runs its tasks: starting a task, faults, the overrun stop, halting
in bench mode, and the frame that every instruction is executed in (R79 to R83, R94, R103 to R105,
R112, R133, R134). -/

namespace Sys2Proof.Machine

/-- What a meaning answers. -/
abbrev Res := Host.Outcome State Fault Refusal

/-- Discards the outputs of the row under way (R82). -/
def Core.discard (k : Core) : Core :=
  { k with outs := [], sentTo := [], entries := 0, payload := 0, xfers := 0, xferIn := 0, xferOut := 0, done := false }

/-- The core is in bench mode (R93). -/
def State.bench (s : State) (c : Nat) : Bool := s.flag Reg.DXC_CTL_BENCH c

/-- The core is halted (R94). -/
def State.halted (s : State) (c : Nat) : Bool := s.flag Reg.DXC_STAT_HALTED c

/-- Halts a core: its snapshot view stays as it is (R94). -/
def State.haltCore (s : State) (c : Nat) : State :=
  let k := s.core c
  let held := match k.heldSnap with | some h => some h | none => some s.snap
  (s.setCore c { k with heldSnap := held, stepping := false }).setLive Reg.DXC_STAT_HALTED 1 c

/-- The snapshot a core reads (R84, R94). (DEDUCED 59 of notes/assumptions) -/
def State.coreSnap (s : State) (c : Nat) : Snap :=
  match (s.core c).heldSnap with
  | some h => h
  | none => s.snap

/-- The start of a task: PC at its entry, and for an event task the raise count in the first byte of
the mailbox area (R80, R89, R103). -/
def State.startTask (s : State) (c : Nat) (t : Nat) (count : Nat) : State :=
  let k := s.core c
  if t < 8 then
    let area := s.conf Reg.DXC_MBAREA_AREA c * 64
    let k := k.putBytes area [BitVec.ofNat 8 (min 255 count)]
    s.setCore c { k with run := .task t, pc := s.conf Reg.DXC_ETASK_ENTRY c t }
  else s.setCore c { k with run := .task 8, pc := s.conf Reg.DXC_ENTRY_ENTRY c }

/-- Starts the next task of the row: the pending event tasks in ascending index, then the row task
(R79). -/
def State.nextTask (s : State) (c : Nat) : State :=
  let k := s.core c
  match k.todo with
  | (t, n) :: rest => (s.setCore c { k with todo := rest }).startTask c t n
  | [] => s.startTask c 8 0

/-- Ends the core's row: it idles until the next boundary and DXC_USED takes the cycles counted. -/
def State.endRow (s : State) (c : Nat) (done : Bool) : State :=
  let k := s.core c
  (s.setCore c { k with run := .idle, todo := [], done := done }).setLive Reg.DXC_USED_USED k.used c

/-- A fault ends the core's row and discards its outputs; in bench mode it halts the core (R83,
R134). (DEDUCED 58 of notes/assumptions) -/
def State.coreFault (s : State) (c : Nat) (code : Nat) : State :=
  let s := s.setLive Reg.DXC_STAT_FAULT code c
  let s := s.setCore c (s.core c).discard
  let s := s.raiseNow 33 (code * 256 + c)
  if s.bench c then s.haltCore c else s.endRow c false

/-- The overrun stop (R82). (DESIGN CHOICE 55 of notes/assumptions) -/
def State.overrun (s : State) (c : Nat) : State :=
  let s := s.setCore c ((s.core c).discard.stick stLate)
  let s := s.setLive Reg.DXC_STAT_LATE_SEEN 1 c
  let s := s.bumpSat Reg.DXC_LATECNT_CNT 1 c
  let s := s.raiseNow 32 c
  let s := s.logEntry 0x05 c s.row.cur s.row.num
  s.endRow c false

/-- A breakpoint of the core stands at its PC (R94). -/
def State.atBreak (s : State) (c : Nat) : Bool :=
  (List.range 4).any (fun j =>
    s.flag Reg.DXC_BRK_EN c j && decide (s.live Reg.DXC_BRK_ADDR c j = (s.core c).pc))

/-- The core fetches: it runs a task in a row, and is not halted or is single-stepped (R79, R94). -/
def State.fetches (s : State) (c : Nat) : Bool :=
  decide (c < s.variant.cores) && s.rowsRun && decide ((s.core c).run ≠ .idle) &&
    (!s.halted c || (s.core c).stepping)

/-- The frame of one instruction: fetch past the end, halt and breakpoint in bench mode, an illegal
encoding, the budget, and then the effect, which itself may be a fault. (DEDUCED 8, 58; DESIGN CHOICE 55 of
notes/assumptions) -/
def State.dex (s : State) (c : Nat) (legal : Bool) (cycles : Nat) (eff : State → Option Nat × State) :
    State :=
  if s.fetches c then
    let k := s.core c
    if s.bench c && !k.stepping && (s.flag Reg.DXC_CTL_HALT c || s.atBreak c) then s.haltCore c
    else if 0x10000 ≤ k.pc then s.coreFault c 0x03
    else if !legal then s.coreFault c 0x01
    else if !s.bench c && decide (s.conf Reg.DXC_BUDGET_BUDGET c < k.used + cycles) then s.overrun c
    else
      match eff (s.setCore c { k with used := k.used + cycles, stepping := false }) with
      | (some code, _) => s.coreFault c code
      | (none, t) => t
  else s

/-- An instruction that changes only its core and goes on at PC + 4. -/
def State.dexPlain (s : State) (c : Nat) (legal : Bool) (cycles : Nat) (eff : Core → Core) : Res :=
  .next (s.dex c legal cycles (fun t =>
    let k := eff (t.core c)
    (none, t.setCore c { k with pc := k.pc + 4 })))

/-- A control transfer: the effect gives the core after it, or none for the TARGET fault (R133). -/
def State.dexJump (s : State) (c : Nat) (legal : Bool) (cycles : Nat) (eff : Core → Option Core) : Res :=
  .next (s.dex c legal cycles (fun t =>
    match eff (t.core c) with
    | some k => (none, t.setCore c k)
    | none => (some 0x02, t)))

/-- A target that is a multiple of 4 inside instruction memory (R133). -/
def goodTarget (t : Int) : Bool := decide (0 ≤ t) && decide (t ≤ 0xFFFC) && decide (t % 4 = 0)

/-- Adds an output or posted request; once a buffer is full, or has no room for the payload, this and every later
one of the row is discarded, and the first of them sets OUTOVF and raises the event (R86). More than 2,048 entries
mark a row that has overflowed. (DEDUCED 57 of notes/assumptions) -/
def State.pushOut (s : State) (c : Nat) (o : Out) (payload : Nat) : State :=
  let k := s.core c
  if 2048 < k.entries then s
  else if k.entries = 2048 ∨ 8192 ≤ k.payload ∨ 8192 < k.payload + payload then
    let s := s.setCore c { k with entries := 2049 }
    (s.setLive Reg.DXC_STAT_OUTOVF 1 c).raiseNow 23 c
  else s.setCore c { k with outs := k.outs ++ [o], entries := k.entries + 1, payload := k.payload + payload }

/-- A device instruction: refused operands set STICKY.ADDR and produce nothing; else the output is
buffered (R121). -/
def State.dexOut (s : State) (c : Nat) (legal : Bool) (cycles : Nat)
    (build : State → Core → Option (Out × Nat)) (upd : Core → Core := id) : Res :=
  .next (s.dex c legal cycles (fun t =>
    let k := t.core c
    match build t k with
    | none => (none, t.setCore c { k.stick stAddr with pc := k.pc + 4 })
    | some (o, p) => (none, (t.setCore c { upd k with pc := k.pc + 4 }).pushOut c o p)))

end Sys2Proof.Machine
end

