-- ==== Sys2Proof/Machine/Map.lean ====
section
/-! DEFINITION. The host address map: which addresses belong to resources the variant has, and the
windows that hold no register fields (R7, R13). -/

namespace Sys2Proof.Machine

/-- An address inside `[lo, lo + n × stride)` names an index below `cnt`. -/
def arrayPresent (a lo n stride cnt : Nat) : Bool :=
  if lo ≤ a ∧ a < lo + n * stride then decide ((a - lo) / stride < cnt) else true

/-- The address belongs to no absent engine and to no index beyond the variant (R7). (DEDUCED 48 of
notes/assumptions) -/
def busPresent (v : Variant) (a : Nat) : Bool :=
  arrayPresent a 0x00100000 8 0x10000 v.cores &&
  arrayPresent a 0x00010040 8 4 v.cores &&
  arrayPresent a 0x03001000 32 0x10 v.groups &&
  arrayPresent a 0x03004000 512 0x20 v.channels &&
  arrayPresent a 0x03100100 8 0x20 v.banks &&
  arrayPresent a 0x03101000 48 0x40 v.slices &&
  (v.gnb || !(decide (0x04000000 ≤ a) && decide (a < 0x05000000))) &&
  arrayPresent a 0x04000010 4 0x10 v.ports &&
  arrayPresent a 0x04001000 256 0x10 v.tracks &&
  (v.fge || !(decide (0x05000000 ≤ a) && decide (a < 0x06000000) &&
    !(decide (0x05000800 ≤ a) && decide (a < 0x05000900)))) &&
  arrayPresent a 0x05001000 16 0x40 v.sources &&
  arrayPresent a 0x01000000 8 0x40000 v.cores

/-- The CAN receive-ring window at an address: controller and offset (R365). -/
def canRing (a : Nat) : Option (Nat × Nat) :=
  if 0x06010000 ≤ a ∧ a < 0x06030000 then
    let o := (a - 0x06010000) % 0x8000
    if o < 24576 then some ((a - 0x06010000) / 0x8000, o) else none
  else none

/-- The CAN transmit-buffer window at an address: controller and offset (R371). -/
def canTx (a : Nat) : Option (Nat × Nat) :=
  if 0x06030000 ≤ a ∧ a < 0x06034000 then
    let o := (a - 0x06030000) % 0x1000
    if o < 3072 then some ((a - 0x06030000) / 0x1000, o) else none
  else none

/-- The Ethernet program-ring window at an address: MAC and offset (R381). -/
def ethRing (a : Nat) : Option (Nat × Nat) :=
  if 0x06120000 ≤ a ∧ a < 0x06140000 then
    some ((a - 0x06120000) / 0x10000, (a - 0x06120000) % 0x10000)
  else none

/-- The Ethernet transmit-slot window at an address: MAC and offset (R381). -/
def ethTx (a : Nat) : Option (Nat × Nat) :=
  if 0x06140000 ≤ a ∧ a < 0x06150000 then
    some ((a - 0x06140000) / 0x8000, (a - 0x06140000) % 0x8000)
  else none

/-- The runtime state of CAN controller `c`. -/
def State.can (s : State) (c : Nat) : Can := Tab.get Can.fresh s.cans c

/-- Replaces the runtime state of CAN controller `c`. -/
def State.setCan (s : State) (c : Nat) (x : Can) : State := { s with cans := Tab.put Can.fresh s.cans c x }

/-- The runtime state of MAC `e`. -/
def State.eth (s : State) (e : Nat) : Eth := Tab.get Eth.fresh s.eths e

/-- Replaces the runtime state of MAC `e`. -/
def State.setEth (s : State) (e : Nat) (x : Eth) : State := { s with eths := Tab.put Eth.fresh s.eths e x }

/-- The word at an address of a window memory. -/
def State.winWord (s : State) (a : Nat) : Nat := leNat (s.winBytes a 4)

/-- The entry number in `[rd, wr)` that lies in slot `j` of a ring of `n` slots (R369). -/
def ringEntry (n j rd wr : Nat) : Option Nat :=
  let k := rd + (j + n - rd % n) % n
  let len := (wr + 2 ^ 32 - rd) % 2 ^ 32
  if (j + n - rd % n) % n < len then some (k % 2 ^ 32) else none

/-- The word of a ring window that a program load of core `c` reads: as it stands at the load, and in a replay as it
stood at the boundary (R369). -/
def State.ringWord (s : State) (c a : Nat) : Nat :=
  if s.rpl.on then leAt ((List.range 4).map (fun i => Tab.get 0 (s.coreSnap c).rings (a + i))) 0 4 else s.winWord a

/-- A program's load of a word of a CAN ring window, in place (R369). -/
def State.loadCanRing (s : State) (c x o : Nat) : State × Nat :=
  let v := s.ringWord c (0x06010000 + 0x8000 * x + o)
  if o % 96 ≠ 0 then (s, v)
  else
    let sn := s.coreSnap c
    let rd := (Reg.CAN_RXRD_RD.get sn.regs x 0).toNat
    let wr := (Reg.CAN_RXWR_WR.get sn.regs x 0).toNat
    match ringEntry 256 (o / 96) rd wr with
    | none => (s, v)
    | some k =>
      let q := s.can x
      let seen := q.lost.contains (0, BitVec.ofNat 32 k)
      if s.rpl.on then
        (s, if seen then v - v / 2 ^ 16 % 2 * 2 ^ 16 else v)
      else if (v % 2 ^ 16 ≠ k % 2 ^ 16 ∨ bitOf v 16 = false) ∧ ¬ seen then
        let s := s.logEntry 0x03 (0x010000 + x) (Tab.get 0 q.stamps (k % 2 ^ 16)) s.row.num
        (s.setCan x { s.can x with lost := (0, BitVec.ofNat 32 k) :: q.lost }, v)
      else (s, v)

/-- A program's load of a word of an Ethernet ring window, in place (R369, R381). -/
def State.loadEthRing (s : State) (c x o : Nat) : State × Nat :=
  let v := s.ringWord c (0x06120000 + 0x10000 * x + o)
  if o % 2048 ≠ 0 then (s, v)
  else
    let sn := s.coreSnap c
    let rd := (Reg.ETH_RXRD_RD.get sn.regs x 0).toNat
    let wr := (Reg.ETH_RXWR_WR.get sn.regs x 0).toNat
    match ringEntry 32 (o / 2048) rd wr with
    | none => (s, v)
    | some k =>
      let q := s.eth x
      let seen := q.lost.contains (0, BitVec.ofNat 32 k)
      if s.rpl.on then
        (s, if seen then v - v / 2 ^ 16 % 2 * 2 ^ 16 else v)
      else if (v % 2 ^ 16 ≠ k % 2 ^ 16 ∨ bitOf v 16 = false) ∧ ¬ seen then
        let s := s.logEntry 0x03 (0x020000 + x) (Tab.get 0 q.stamps (k % 2 ^ 16)) s.row.num
        (s.setEth x { s.eth x with lost := (0, BitVec.ofNat 32 k) :: q.lost }, v)
      else (s, v)

/-- A field that program loads of core `c` can see (R84). (DEDUCED 51 of notes/assumptions) -/
def Fld.visible (f : Fld) (c i : Nat) : Bool :=
  f.snap || (decide (0x00100000 * 8 ≤ f.base) && decide (f.base < 0x00110000 * 8) && decide (i = c))

/-- The value of a field in a snapshot: skein-held fields as of step 2, the others as of step 1; a write-only field
and a staging register, of which only the writers have copies, read zero (R11, R24, R396). (DEDUCED 38, 51 of
notes/assumptions) -/
def Fld.inSnap (f : Fld) (sn : Snap) (i j : Nat) : Nat :=
  match f.acc with
  | .srw => (f.get sn.conf i j).toNat
  | .lwo => 0
  | _ => (f.get sn.regs i j).toNat

/-- The word a program load of a register address sees in the snapshot; none where the snapshot holds
nothing at that address (R84). (DEDUCED 38 of notes/assumptions) -/
def snapWord (sn : Snap) (c a : Nat) : Option Nat :=
  if 0x04010000 ≤ a ∧ a < 0x04018000 then some (leAt sn.epoch (a - 0x04010000) 4)
  else if 0x05080000 ≤ a ∧ a < 0x050C0000 then
    some (Tab.get 0 sn.tracks ((a - 0x05080000) / 4)).toNat
  else if 0x04000180 ≤ a ∧ a < 0x040001C0 then
    some (Tab.get 0 sn.marks ((a - 0x04000180) / 4)).toNat
  else
    let fs := regFields.flatMap (fun f =>
      (f.inWord a).filterMap (fun e => if f.visible c e.2.1 then some (f, e) else none))
    if fs.isEmpty then none
    else some (fs.foldl (fun v x => v + x.1.inSnap sn x.2.2.1 x.2.2.2 * 2 ^ x.2.1) 0)

/-- A program load of a word of the device register space (R84, R369); the snapshot holds nothing of a resource
that the variant lacks. (DEDUCED 51 of notes/assumptions) -/
def State.loadReg (s : State) (c a : Nat) : State × Option Nat :=
  if !busPresent s.variant a then (s, none)
  else
    match canRing a, ethRing a with
    | some (x, o), _ => let r := s.loadCanRing c x o; (r.1, some r.2)
    | none, some (x, o) => let r := s.loadEthRing c x o; (r.1, some r.2)
    | none, none => (s, snapWord (s.coreSnap c) c a)

end Sys2Proof.Machine
end

