-- ==== Sys2Proof/Machine/HostOps.lean ====
section
/-! DEFINITION. When the device serves a host access, and how a host write to a live register lands
and is logged (R40, R71, R100, R395). -/

namespace Sys2Proof.Machine

/-- Host accesses are served (R66, R71, R101, R428). -/
def State.busUp (s : State) : Bool :=
  match s.power.phase with
  | .rows | .failed | .clockLost | .replayHold | .replayEnded => true
  | _ => false

/-- Live registers a host may write during a replay: the rings, the replay, bench and debug registers
(R100). -/
def replayOpen (a : Nat) : Bool :=
  (decide (0x00180000 ≤ a) && decide (a < 0x00180100)) ||
  (decide (0x00100000 ≤ a) && decide (a < 0x00180000) &&
    (decide (a % 0x10000 = 0) || (decide (0x180 ≤ a % 0x10000) && decide (a % 0x10000 < 0x1C8))))

/-- A host write to a live register at `a` is served: the bus is up, the variant has the resource, and a replay
leaves the register to the hosts (R7, R71, R100). -/
def State.serves (s : State) (a : Nat) : Bool :=
  s.busUp && busPresent s.variant a && !(s.rpl.on && !replayOpen a)

/-- A host write of `v` to a live register at `a`, with the effect `f` of its landing: served only
while the bus is up, ignored for an absent resource and in a replay, and logged (R7, R71, R100, R395). (DEDUCED 46,
48 of notes/assumptions) -/
def State.hostLive (s : State) (p : Port) (a v : Nat) (f : State → State) : State :=
  if s.serves a then
    f (s.logLive p a v (floorTo 64 s.now))
  else s

end Sys2Proof.Machine
end

