-- ==== Sys2Proof/Machine/Kwaros.lean ====
section
/-! DEFINITION. Kwaros frames and their queues (R164 to R166, R375, R382). -/

namespace Sys2Proof.Machine

/-- An array of words of a skein, at a word address: the remote table, the CLE tables, the layer table,
the weights and the neighbour table (R163, R400). -/
def Image.word (m : Image) (a : Nat) : Nat := (Tab.get 0 m.words (a / 4)).toNat

/-- A word of the ACTIVE skein's tables. -/
def State.confWord (s : State) (a : Nat) : Nat := s.skn.act.word a

/-- A remote table entry (R163). -/
structure Remote where
  en : Bool
  port : Nat
  da : Nat
  channel : Nat
  prio : Nat
  ipv4 : Nat
  udp : Nat
  deriving DecidableEq, Repr

/-- Remote table entry `i` of a skein (R163). -/
def Image.remote (m : Image) (i : Nat) : Remote :=
  let w := fun j => m.word (0x02080000 + 16 * i + 4 * j)
  ⟨bitOf (w 0) 7, bitsOf (w 0) 0 4, bitsOf (w 0) 8 8, bitsOf (w 0) 16 16, bitsOf (w 1) 0 3, w 2,
    bitsOf (w 3) 0 16⟩

/-- The queue a PORT code names: 0 to 3 for CAN0 to CAN3, 4 and 5 for ETH0 and ETH1. -/
def kwPort (port : Nat) : Nat := if port < 8 then port else port - 4

/-- Frames a Kwaros queue holds (R375, R382). -/
def kwCap (p : Nat) : Nat := if p < 4 then 16 else 64

/-- The Kwaros queue of a port. -/
def State.kwQueue (s : State) (p : Nat) : List KwFrame := Tab.get [] s.kw.queues p

/-- Replaces a Kwaros queue, with CAN_KWST.QUEUED (R375). -/
def State.setKwQueue (s : State) (p : Nat) (l : List KwFrame) : State :=
  let s := { s with kw := { s.kw with queues := Tab.put [] s.kw.queues p l } }
  if p < 4 then s.setLive Reg.CAN_KWST_QUEUED l.length p else s

/-- The MAC may transmit (R65, R100). -/
def State.ethSends (s : State) (e : Nat) : Bool :=
  s.rowsRun && !s.rpl.on && decide (e < 2) && decide (s.conf Reg.ETH_MACCFG_EN e = 1)

/-- The MAC is a grandmaster: from row 0, in modes with rows, while STATE is LOCKED or HOLDOVER (R383). -/
def State.grandmaster (s : State) (e : Nat) : Bool :=
  let st := s.live Reg.SYS_DISC_STAT_STATE
  s.ethSends e && s.row.started && decide (s.conf Reg.ETH_PTPCFG_GM_EN e = 1) && (decide (st = 1) || decide (st = 2))

/-- The Sync interval of a MAC in sub-ticks: 2^LOGSYNC seconds, LOGSYNC being signed (R383). -/
def State.syncPeriod (s : State) (e : Nat) : Nat :=
  let l := s.conf Reg.ETH_PTPCFG_LOGSYNC e
  if l < 8 then 25600000000 * 2 ^ l else 25600000000 / 2 ^ (16 - l)

/-- The latest multiple of the Sync interval up to `t`, where its Sync is still to be sent (R383). (DEDUCED 126 of
notes/assumptions) -/
def State.syncDue (s : State) (e : Nat) (t : Stamp) : Option Stamp :=
  let g := floorTo (s.syncPeriod e) t
  if s.grandmaster e && sAtOrBefore (s.eth e).syncFrom g then some g else none

/-- No multiple of the Sync interval before `t` has a Sync any more (R383). -/
def State.syncAfter (s : State) (e : Nat) (t : Stamp) : State :=
  s.setEth e { s.eth e with syncFrom := sMax (s.eth e).syncFrom t }

/-- A frame of the 802.1AS engine waits (R381, R383, R384). -/
def State.engineWaits (s : State) (e : Nat) : Bool := !(s.eth e).reqs.isEmpty || (s.syncDue e s.now).isSome

/-- A MAC with no frame in progress starts the next one: while no frame of the 802.1AS engine waits, a Kwaros frame
before the program slots in the order of their requests (R381). (DEDUCED 126 of notes/assumptions) -/
def State.ethNext (s : State) (e : Nat) : State :=
  let q := s.eth e
  if q.active.isSome || !s.ethSends e || s.engineWaits e then s
  else
    match s.kwQueue (4 + e), q.pend with
    | _ :: _, _ => s.setEth e { q with active := some 16 }
    | [], t :: _ => (s.setEth e { q with active := some t }).setLive Reg.ETH_TXST_ST 2 e t
    | [], [] => s

/-- Places a frame in a Kwaros queue; one that finds the queue full is dropped (R375). In replay the
frame is captured and not sent (R99, R100). (DEDUCED 77, 81 of notes/assumptions) -/
def State.kwPush (s : State) (p : Nat) (f : KwFrame) : State :=
  if s.rpl.on then
    s.capture 4 s.row.cur.toNat (if p < 4 then 0x010000 + p else 0x020000 + (p - 4)) f.bytes.length f.bytes
  else if kwCap p ≤ (s.kwQueue p).length then
    let s := if p < 4 then s.bump Reg.CAN_KWST_DROP p else s
    s.raiseNow 61 p
  else
    let s := s.setKwQueue p (s.kwQueue p ++ [f])
    if p < 4 then s else s.ethNext (p - 4)

/-- A Kwaros payload: the 8-byte header and the items (R164). -/
def kwPayload (typ seq da sa : Nat) (items : List (List Byte)) : List Byte :=
  [0x01, BitVec.ofNat 8 typ] ++ bytesLE 2 seq ++ [BitVec.ofNat 8 da, BitVec.ofNat 8 sa,
    BitVec.ofNat 8 items.length, 0] ++ items.flatten

/-- The valid CAN FD data lengths (R165, R371). -/
def fdLengths : List Nat := [0, 1, 2, 3, 4, 5, 6, 7, 8, 12, 16, 20, 24, 32, 48, 64]

/-- The 29-bit identifier of a Kwaros frame on CAN (R165). -/
def KwFrame.canId (f : KwFrame) (sa : Nat) : Nat :=
  f.prio * 2 ^ 26 + 0x35 * 2 ^ 20 + f.typ * 2 ^ 16 + f.da.toNat * 2 ^ 8 + sa

/-- The data field of a Kwaros frame on CAN, padded to the next valid length (R165). -/
def KwFrame.canData (f : KwFrame) : List Byte :=
  padTo ((fdLengths.find? (fun n => decide (f.bytes.length ≤ n))).getD f.bytes.length) f.bytes

/-- The next sequence number of a port's SYNC and FOLLOW_UP frames (R164). (DEDUCED 96 of notes/assumptions) -/
def State.kwNextSeq (s : State) (p : Nat) : Nat × State :=
  let n := Tab.get 0 s.kw.syncSeq p
  (n, { s with kw := { s.kw with syncSeq := Tab.put 0 s.kw.syncSeq p ((n + 1) % 2 ^ 16) } })

/-- KWAROS_SYNC: at each multiple of PERIOD ms one SYNC frame is queued on its port (R166). (DEDUCED 96 of
notes/assumptions) -/
def execKwarosSync (port : Nat) (s : State) : Res :=
  let per := s.conf Reg.KW_SYNC_PERIOD port
  if s.rowsRun && decide (port < 6) && decide (per ≠ 0) && !s.rpl.on then
    let g := gridUp (per * msTicks) s.now
    let t := if Tab.get none s.kw.synced port = some g then g + subTicks (per * msTicks) else g
    let s := s.advanceTo t
    let s := { s with kw := { s.kw with synced := Tab.put none s.kw.synced port (some t) } }
    let (n, s) := s.kwNextSeq port
    let sa := s.conf Reg.KW_CFG_SA
    .next (s.kwPush port ⟨t, 3, 2, 0xFF, none, BitVec.ofNat 16 (s.conf Reg.KW_UDP_PORT),
      kwPayload 3 n 0xFF sa [List.replicate 16 0]⟩)
  else .next s

/-- KWAROS_FOLLOW_UP: once the SYNC's stamp is known its FOLLOW_UP is queued (R166). (DEDUCED 96 of
notes/assumptions) -/
def execKwarosFollowUp (port : Nat) (s : State) : Res :=
  match Tab.get none s.kw.syncWait port with
  | none => .next s
  | some (q, t) =>
    let s := { s with kw := { s.kw with syncWait := Tab.put none s.kw.syncWait port none } }
    let (n, s) := s.kwNextSeq port
    let sa := s.conf Reg.KW_CFG_SA
    .next (s.kwPush port ⟨s.now, 4, 2, 0xFF, none, BitVec.ofNat 16 (s.conf Reg.KW_UDP_PORT),
      kwPayload 4 n 0xFF sa [bytesLE 8 t.toNat ++ bytesLE 2 q ++ List.replicate 6 0]⟩)

/-- A Kwaros frame has been sent on a port with a stamp: a SYNC then awaits its FOLLOW_UP (R166,
R375). -/
def State.kwSent (s : State) (p : Nat) (f : KwFrame) (t : Stamp) : State :=
  if f.typ = 3 then
    { s with kw := { s.kw with syncWait := Tab.put none s.kw.syncWait p (some (leAt f.bytes 2 2, t)) } }
  else s

end Sys2Proof.Machine
end

