-- ==== Sys2Proof/Machine/Disc.lean ====
section
/-! DEFINITION. Device time as the hosts read it, its relation to GNSS time, the rate trim, and the
delay-line tables (R52 to R59). -/

namespace Sys2Proof.Machine

/-- The anchor in force (R54). -/
def State.anchor (s : State) : Stamp :=
  BitVec.ofNat 64 (s.live64 Reg.SYS_DISC_ANCHOR_LO_ANCHOR Reg.SYS_DISC_ANCHOR_HI_ANCHOR)

/-- GPS time at the anchor, in ns (R54). -/
def State.gpsAnchor (s : State) : Nat := s.live64 Reg.SYS_DISC_GPS_LO_GPS Reg.SYS_DISC_GPS_HI_GPS

/-- GPS_ns(DT) (R54). -/
def State.gpsNs (s : State) (t : Stamp) : Int := s.gpsAnchor + divRound (sdiff s.anchor t * 10) 256

/-- PTP(t) in units of 2^−16 ns, without rounding (R383); while STATE is FREE, t / 25.6 (R384). -/
def State.ptpTime (s : State) (t : Stamp) : Int :=
  if s.live Reg.SYS_DISC_STAT_STATE = 0 then (t.toNat : Int) * 2560
  else ((s.gpsAnchor : Int) + 19000000000) * 65536 + sdiff s.anchor t * 2560

/-- Sets SYS_DISC_STAT.STATE; a grandmaster has no Sync for a multiple before it became LOCKED or HOLDOVER (R325,
R383). -/
def State.putDisc (s : State) (v : Nat) : State :=
  let up := fun (x : Nat) => decide (x = 1) || decide (x = 2)
  let t := if s.now = s.row.cur then s.fStamp else s.now
  let s' := if up v && !up (s.live Reg.SYS_DISC_STAT_STATE) then (s.syncAfter 0 t).syncAfter 1 t else s
  s'.setLive Reg.SYS_DISC_STAT_STATE v

/-- Sets the relation in force (R54). -/
def State.setRelation (s : State) (a : Stamp) (g : Nat) : State :=
  (s.setLive64 Reg.SYS_DISC_ANCHOR_LO_ANCHOR Reg.SYS_DISC_ANCHOR_HI_ANCHOR a.toNat).setLive64
    Reg.SYS_DISC_GPS_LO_GPS Reg.SYS_DISC_GPS_HI_GPS g

/-- The low or high word of a 64-bit value replaced. -/
def withWord (x : Stamp) (hi : Bool) (v : Nat) : Stamp :=
  if hi then BitVec.ofNat 64 (x.toNat % 2 ^ 32 + v % 2 ^ 32 * 2 ^ 32)
  else BitVec.ofNat 64 (x.toNat / 2 ^ 32 * 2 ^ 32 + v % 2 ^ 32)

/-- A write of one of the four words of the relation: ignored while SRC is 0; the write of the high GPS
word puts all four into force (R54, R55). -/
def State.discWrite (s : State) (a v : Nat) : State :=
  if s.conf Reg.SYS_DISC_STAT_SRC = 0 then s
  else if a = 0x38 ∨ a = 0x3C then
    { s with time := { s.time with anchorStg := withWord s.time.anchorStg (a == 0x3C) v } }
  else if a = 0x40 then { s with time := { s.time with gpsStg := withWord s.time.gpsStg false v } }
  else
    let g := withWord s.time.gpsStg true v
    ({ s with time := { s.time with gpsStg := g } }).setRelation s.time.anchorStg g.toNat

/-- DISC_RELATION_WRITE: a host write of SYS_DISC_GPS_HI (R54). -/
def execDiscRelationWrite (p : Port) (v : W32) (s : State) : Res :=
  .next (s.hostLive p 0x44 v.toNat (fun s => s.discWrite 0x44 v.toNat))

/-- A new trim takes effect at the first DT multiple of 1 µs after its write; in a replay it does not steer TCLK (R56,
R331). -/
def State.putTrim (s : State) (v : Nat) : State :=
  let s := s.setLive Reg.SYS_TCLK_TRIM_TRIM v
  if s.rpl.on then s else
  let t := gridUp usTicks (s.time.dt + 1)
  { s with time := { s.time with trimNext := some (BitVec.ofNat 24 v, t) } }

/-- A write of SYS_TCLK_TRIM, ignored while SRC is 0 (R55). -/
def State.trimWrite (s : State) (v : Nat) : State :=
  if s.conf Reg.SYS_DISC_STAT_SRC = 0 then s else s.putTrim v

/-- TRIM_TAKES_EFFECT (R56). -/
def execTrimTakesEffect (s : State) : Res :=
  match s.time.trimNext with
  | none => .next s
  | some (v, t) =>
    let s := if sBefore s.time.dt t && s.time.valid then { s with time := { s.time with dt := t } } else s
    .next { s with time := { s.time with trim := v, trimNext := none } }

/-- Words go back to a host as the data of its last read (R393). -/
def State.answer (s : State) (p : Port) (ws : List W32) : State :=
  { s with hostData := Tab.put [] s.hostData p.idx ws }

/-- A read of SYS_DT_LO latches DT for the reading port and returns its low word (R52). -/
def State.readDtLo (s : State) (p : Port) : State × W32 :=
  ({ s with time := { s.time with
      latch := Tab.put 0 s.time.latch p.idx (BitVec.ofNat 32 (s.time.dt.toNat / 2 ^ 32)) } },
    BitVec.ofNat 32 (s.time.dt.toNat % 2 ^ 32))

/-- DT_LATCH_READ: a host read of SYS_DT_LO (R52, R71). -/
def execDtLatchRead (p : Port) (s : State) : Res :=
  if s.busUp then
    let (s, w) := s.readDtLo p
    .next (s.answer p [w])
  else .next s

/-- DL_TAP_REWRITE: the calibrator rewrites a line's tap table (R58, R59). (DEDUCED 130 of notes/assumptions) -/
def execDlTapRewrite (line : Nat) (taps : List Byte) (s : State) : Res :=
  if s.flag Reg.SYS_CLKSTAT_TCLK_LOCK && decide (line < 514) then
    .next { s with time := { s.time with
      taps := ((padTo 64 taps).take 64).zipIdx.foldl (fun t x => Tab.put 0 t (64 * line + x.2) x.1) s.time.taps } }
  else .next s

/-- DL_CAL_DONE: a calibration pass over all lines completes (R59). -/
def execDlCalDone (worst : Byte) (s : State) : Res :=
  if s.flag Reg.SYS_CLKSTAT_TCLK_LOCK then
    let s := (s.setLive Reg.SYS_CLKSTAT_DL_CAL_DONE 1).setLive Reg.ETU_DLSTAT_DONE 1
    .next ((s.bump Reg.ETU_DLSTAT_PASSES).setLive Reg.ETU_DLSTAT_WORST worst.toNat)
  else .next s

end Sys2Proof.Machine
end

