-- ==== Sys2Proof/Machine/Etu.lean ====
section
/-! DEFINITION. The edge timing unit: carriers, windows, gates, complementary pairs, the minimum-pulse
filter and the cut of a group (R239 to R254, R256 to R260). -/

namespace Sys2Proof.Machine

/-- The runtime state of carrier group `g`. -/
def State.group (s : State) (g : Nat) : Group := Tab.get Group.fresh s.etu.groups g

/-- Replaces the runtime state of carrier group `g`. -/
def State.setGroup (s : State) (g : Nat) (x : Group) : State :=
  { s with etu := { s.etu with groups := Tab.put Group.fresh s.etu.groups g x } }

/-- The runtime state of channel `n`. -/
def State.chan (s : State) (n : Nat) : Chan := Tab.get Chan.fresh s.etu.chans n

/-- Replaces the runtime state of channel `n`. -/
def State.setChan (s : State) (n : Nat) (x : Chan) : State :=
  { s with etu := { s.etu with chans := Tab.put Chan.fresh s.etu.chans n x } }

/-- The configuration of a channel. -/
structure ChCfg where
  rgain : Nat
  lu : Nat
  free : Bool
  pair : Bool
  dsrc : Nat
  gmode : Nat
  dtR : Nat
  dtF : Nat
  minp : Nat
  deriving DecidableEq, Repr

/-- ETU_CHCFG, ETU_CHDT and ETU_CHMP of channel `n` in a slot, as words. -/
def Image.chWords (m : Image) (n : Nat) : W32 × W32 × W32 :=
  (BitVec.ofNat 32 (m.fld Reg.ETU_CHCFG_RGAIN n * 2 ^ 16 + m.fld Reg.ETU_CHCFG_LU n * 64 +
      m.fld Reg.ETU_CHCFG_FREE n * 32 + m.fld Reg.ETU_CHCFG_PAIR n * 16 + m.fld Reg.ETU_CHCFG_DSRC n * 4 +
      m.fld Reg.ETU_CHCFG_GMODE n),
    BitVec.ofNat 32 (m.fld Reg.ETU_CHDT_DT_R n * 2 ^ 16 + m.fld Reg.ETU_CHDT_DT_F n),
    BitVec.ofNat 32 (m.fld Reg.ETU_CHMP_MINP n))

/-- The configuration that three words spell; dead times in sub-ticks, MINP in sub-ticks. (DEDUCED 105 of
notes/assumptions) -/
def chCfgOf (w : W32 × W32 × W32) : ChCfg :=
  let a := w.1.toNat
  let d := w.2.1.toNat
  ⟨a / 2 ^ 16, bitsOf a 6 6, bitOf a 5, bitOf a 4, bitsOf a 2 2, bitsOf a 0 2, d / 2 ^ 16 * 16, d % 2 ^ 16 * 16,
    w.2.2.toNat * 64⟩

/-- The configuration of channel `n` in force: a commit's change waits for the next period start
(R250). -/
def State.chCfg (s : State) (n : Nat) : ChCfg :=
  chCfgOf ((Tab.get none s.etu.cfgOld n).getD (s.skn.act.chWords n))

/-- The channel whose fields govern channel `n`: the even one of a pair (R251). -/
def State.chLead (s : State) (n : Nat) : Nat :=
  if (s.chCfg (n / 2 * 2)).pair then n / 2 * 2 else n

/-- The compares in force, with the width of RATE and LOOP: none where the window is the whole period
(R242, R248). -/
def State.window (s : State) (n : Nat) : Option (Nat × Nat) :=
  let q := s.chan n
  let k := s.chCfg n
  let per := (s.group (n / 16)).per
  let cb : Option Nat :=
    if k.dsrc = 0 then some q.cb
    else
      let w := if k.dsrc = 1 then divRound ((per * min (2 ^ 24) (s.live Reg.ETU_CHSTAT_RATE n * k.rgain) : Nat) : Int) (2 ^ 24)
        else divRound ((per : Int) * clampI 0 (2 ^ 30) q.loop) (2 ^ 30)
      if w.toNat = per then none
      else if q.ca + w.toNat < per then some (q.ca + w.toNat) else some (q.ca + w.toNat - per)
  match cb with
  | none => none
  | some cb => if per ≤ q.ca ∨ per ≤ cb then none else some (q.ca, cb)

/-- The reference of channel `n` at carrier value `c`, and the sub-ticks to its next edge, if it has one
(R242, R253). In LEVEL mode the compares are ignored (R247). -/
def State.reference (s : State) (n c : Nat) : Bool × Option Nat :=
  if (s.chCfg n).gmode = 0 then (true, none)
  else
    let per := (s.group (n / 16)).per
    match s.window n with
    | none => (true, none)
    | some (ca, cb) =>
      if ca = cb then (false, none)
      else if ca < cb then
        if ca ≤ c ∧ c < cb then (true, some (cb - c))
        else (false, some (if c < ca then ca - c else per - c + ca))
      else if c < cb then (true, some (cb - c))
      else if ca ≤ c then (true, some (per - c + cb))
      else (false, some (ca - c))

/-- The gate of channel `n` is open (R247). -/
def State.gateOpen (s : State) (n : Nat) : Bool := (s.chCfg n).free || s.flag Reg.ETU_CHSTAT_GATE n

/-- The filter and the pin of one output: `want` is its level before the filter, `width` the scheduled length of a
pulse that rises now. An edge that follows its opposite in one cycle undoes it, so that both are removed: the level at
the end of a cycle is the pin's (R243, R253). (DEDUCED 106 of notes/assumptions) -/
def State.driveOut (s : State) (n : Nat) (t : Stamp) (want : Bool) (width : Option Nat) (minp : Nat) : State :=
  let q := s.chan n
  let s := match q.fallAt with
    | some f =>
      if sAtOrBefore f t then (s.setChan n { q with fallAt := none, fell := some f }).setLive Reg.ETU_CHSTAT_OUT 0 n
      else s
    | none => s
  let q := s.chan n
  let cur := s.flag Reg.ETU_CHSTAT_OUT n
  if want then
    if cur then s.setChan n { q with fallAt := none }
    else if q.removed then s
    else if q.fell.map cycle = some (cycle t) then s.setLive Reg.ETU_CHSTAT_OUT 1 n
    else
      let short := match width with | some w => decide (w < minp) | none => false
      if short then (s.setChan n { q with removed := true }).setLive Reg.ETU_CHSTAT_SUPP 1 n
      else (s.setChan n { q with rise := t }).setLive Reg.ETU_CHSTAT_OUT 1 n
  else if cur then
    let e := q.rise + subTicks minp
    if minp ≠ 0 ∧ sBefore t e = true then
      (s.setChan n { q with fallAt := some e, removed := false }).setLive Reg.ETU_CHSTAT_DEFER 1 n
    else (s.setChan n { q with removed := false, fallAt := none, fell := some t }).setLive Reg.ETU_CHSTAT_OUT 0 n
  else s.setChan n { q with removed := false }

/-- The sub-ticks by which the filter defers a fall of channel `n` at `t` (R253). -/
def State.deferral (s : State) (n : Nat) (t : Stamp) (minp : Nat) : Nat :=
  let e := (s.chan n).rise + subTicks minp
  if s.flag Reg.ETU_CHSTAT_OUT n && sBefore t e then (e - t).toNat else 0

/-- The dead time of a pair at an edge of its reference: `up` is the output that is to rise, `down` the one that
falls, `next` the sub-ticks to the reference's next edge. A deferred fall moves the complement's rise. Where the filter
will remove the pulse of `up`, an output that is on stays on through it; a removed pulse that the filter meets later, at
a gate edge or after a restart, leaves the dead time as it is (R252, R254). (DEDUCED 105, 106 of notes/assumptions)
-/
def State.pairEdge (s : State) (up down : Nat) (t : Stamp) (dt : Nat) (next : Option Nat) (minp : Nat) (gate : Bool) :
    State :=
  if (s.chan down).skip then s.setChan down { s.chan down with skip := false }
  else
    let d := dt + s.deferral down t minp
    let short := match next with | some w => decide (d < w) && decide (w - d < minp) | none => false
    if gate && short && s.flag Reg.ETU_CHSTAT_OUT down then
      (s.setChan up { s.chan up with skip := true }).setLive Reg.ETU_CHSTAT_SUPP 1 up
    else
      let s := s.setChan down { s.chan down with lvl := false, riseAt := none }
      s.setChan up { s.chan up with riseAt := some (t + subTicks d) }

/-- A pending rise after dead time that is due (R252). -/
def State.dueRise (s : State) (n : Nat) (t : Stamp) : State :=
  let q := s.chan n
  match q.riseAt with
  | some x => if sAtOrBefore x t then s.setChan n { q with lvl := true, riseAt := none } else s
  | none => s

/-- Brings the outputs that channel `n` governs to an instant of the current period; an output that falls does so
before its complement rises (R242 to R254). -/
def State.chanAt (s : State) (n : Nat) (t : Stamp) : State :=
  let n := s.chLead n
  let g := s.group (n / 16)
  if !g.run || s.flag Reg.ETU_GSTAT_CUT (n / 16) then s
  else
    let k := s.chCfg n
    let (r, next) := s.reference n (t - g.start).toNat
    let gate := s.gateOpen n
    if k.pair && decide (n % 2 = 0) then
      let s := (s.dueRise n t).dueRise (n + 1) t
      let r0 := (s.chan n).r
      let s :=
        if r && !r0 then s.pairEdge n (n + 1) t k.dtR next k.minp gate
        else if !r && r0 then s.pairEdge (n + 1) n t k.dtF next k.minp gate
        else s
      let s := s.setChan n { s.chan n with r := r }
      let s := (s.dueRise n t).dueRise (n + 1) t
      let s := if (s.chan n).lvl then s else s.driveOut n t false none k.minp
      let s := s.driveOut (n + 1) t (gate && (s.chan (n + 1)).lvl) (if r then none else next) k.minp
      s.driveOut n t (gate && (s.chan n).lvl) (if r then next else none) k.minp
    else
      let s := s.setChan n { s.chan n with r := r, lvl := r }
      s.driveOut n t (gate && r) (if r then next else none) k.minp

/-- Drives a channel low at once and cancels its pending edges (R256, R260). -/
def State.chanLow (s : State) (n : Nat) : State :=
  let q := s.chan n
  (s.setChan n { q with fell := none, fallAt := none, riseAt := none, lvl := false, removed := false, skip := false
                        }).setLive Reg.ETU_CHSTAT_OUT 0 n

/-- The channels of a group. -/
def groupChans (g : Nat) : List Nat := (List.range 16).map (fun i => 16 * g + i)

/-- A channel restarts low at a period start: a pair's outputs rise only after dead time, and restart together with
the even one (R251, R259). -/
def State.chanRestart (s : State) (n : Nat) (t : Stamp) : State :=
  if s.chLead n ≠ n then s
  else
    let s := s.chanLow n
    if n % 2 = 0 ∧ (s.chCfg n).pair = true then
      let s := s.chanLow (n + 1)
      let k := s.chCfg n
      let r := (s.reference n 0).1
      let s := s.setChan n { s.chan n with r := r, riseAt := if r then some (t + subTicks k.dtR) else none }
      s.setChan (n + 1) { s.chan (n + 1) with riseAt := if r then none else some (t + subTicks k.dtF) }
    else s

/-- The compare in force, or the shadow, of a group: 0 the period, 1 + i CA and 17 + i CB of its channel
`i`. (DEDUCED 47, 108 of notes/assumptions) -/
def State.shadow (s : State) (g k : Nat) : Nat :=
  if k = 0 then s.live Reg.ETU_PER_PER g
  else if k ≤ 16 then s.live Reg.ETU_CA_CA (16 * g + k - 1)
  else s.live Reg.ETU_CB_CB (16 * g + k - 17)

/-- The value in force behind a shadow. -/
def State.inForce (s : State) (g k : Nat) : Nat :=
  if k = 0 then (s.group g).per
  else if k ≤ 16 then (s.chan (16 * g + k - 1)).ca
  else (s.chan (16 * g + k - 17)).cb

/-- ETU_GSTAT.PEND: a shadow differs from the value in force (R245). -/
def State.putPend (s : State) (g : Nat) : State :=
  s.setLive Reg.ETU_GSTAT_PEND ((List.range 33).any (fun k => s.shadow g k != s.inForce g k)).toNat g

/-- A write of a shadow that lands at `land` (R244). -/
def State.putShadow (s : State) (g k v : Nat) (land : Stamp) : State :=
  let x := s.group g
  let old := s.shadow g k
  let before := match Tab.get none x.wroteAt k with
    | some (l, b) => if cycle l = cycle land then b else old
    | none => old
  let s := s.setGroup g { x with wroteAt := Tab.put none x.wroteAt k (some (land, before)) }
  let s :=
    if k = 0 then s.setLive Reg.ETU_PER_PER v g
    else if k ≤ 16 then s.setLive Reg.ETU_CA_CA v (16 * g + k - 1)
    else s.setLive Reg.ETU_CB_CB v (16 * g + k - 17)
  s.putPend g

/-- A write of ETU_PER: a value below 1,024 is ignored and sets PER_REJ (R246). (DEDUCED 108 of notes/assumptions)
-/
def State.perWrite (s : State) (g v : Nat) (land : Stamp) : State :=
  if v < 1024 then s.setLive Reg.ETU_GSTAT_PER_REJ 1 g else s.putShadow g 0 v land

/-- The group whose shadow, ETU_PER, ETU_CA or ETU_CB, stands at `a` (R244). -/
def shadowGroup (a : Nat) : Option Nat :=
  if 0x03001000 ≤ a ∧ a < 0x03001200 ∧ a % 16 = 8 then some ((a - 0x03001000) / 16)
  else if 0x03004000 ≤ a ∧ a < 0x03008000 ∧ (a % 32 = 0 ∨ a % 32 = 4) then some ((a - 0x03004000) / 512)
  else none

/-- A host write of a shadow is logged with the stamp of the reload that takes it, so it waits for that reload; one
that is ignored is logged at its landing (R40, R244, R246). (DEDUCED 47 of notes/assumptions) -/
def State.hostShadow (s : State) (p : Port) (g a v : Nat) (f : State → State) : State :=
  if a < 0x03004000 ∧ v < 1024 then s.hostLive p a v f
  else if s.serves a then
    let x := s.group g
    f (s.setGroup g { x with
      writes := x.writes ++ [(p, BitVec.ofNat 32 a, BitVec.ofNat 32 v, floorTo 64 s.now)] })
  else s

/-- PERIOD_WRITE: a host write of ETU_PER (R244, R246). -/
def execPeriodWrite (p : Port) (g : Nat) (v : W32) (s : State) : Res :=
  let a := 0x03001008 + 0x10 * g
  if g < 32 then .next (s.hostShadow p g a v.toNat (fun s => s.perWrite g v.toNat (floorTo 64 s.now)))
  else .next s

/-- A write of ETU_LOCK that lands at `land` (R245). -/
def State.lockWrite (s : State) (v : Nat) (land : Stamp) : State :=
  let old := s.live Reg.ETU_LOCK_LOCK
  let s := (List.range s.variant.groups).foldl (fun s g =>
    if bitOf old g == bitOf v g then s
    else
      let x := s.group g
      let before := match x.lockAt with
        | some (l, b) => if cycle l = cycle land then b else bitOf old g
        | none => bitOf old g
      s.setGroup g { x with lockAt := some (land, before) }) s
  s.setLive Reg.ETU_LOCK_LOCK v

/-- LOCK_WRITE: a host write of ETU_LOCK (R245). -/
def execLockWrite (p : Port) (v : W32) (s : State) : Res :=
  .next (s.hostLive p 0x03000010 v.toNat (fun s => s.lockWrite v.toNat s.now))

/-- At a reload the shadows written before its cycle come into force, and the host writes among them are logged
with its stamp, unless the group is locked (R40, R244, R245). (DEDUCED 47, 108 of notes/assumptions) -/
def State.copyShadows (s : State) (g : Nat) (p : Stamp) : State :=
  let x := s.group g
  let locked := match x.lockAt with
    | some (l, b) => if cycle p ≤ cycle l then b else bitOf (s.live Reg.ETU_LOCK_LOCK) g
    | none => bitOf (s.live Reg.ETU_LOCK_LOCK) g
  let late := x.wroteAt.filter (fun e => match e.2 with | some (l, _) => decide (cycle p ≤ cycle l) | none => false)
  let value := fun k => match Tab.get none late k with | some (_, b) => b | none => s.shadow g k
  if locked then s
  else
    let taken := x.writes.filter (fun w => decide (cycle w.2.2.2 < cycle p))
    let s := s.setGroup g { x with
      per := value 0, wroteAt := late, lockAt := none
      writes := x.writes.filter (fun w => !decide (cycle w.2.2.2 < cycle p)) }
    let s := taken.foldl (fun (s : State) (w : Port × W32 × W32 × Stamp) =>
      s.logLive w.1 w.2.1.toNat w.2.2.1.toNat (floorTo 64 p)) s
    let s := (List.range 16).foldl (fun s i =>
      s.setChan (16 * g + i) { s.chan (16 * g + i) with ca := value (1 + i), cb := value (17 + i) }) s
    s.putPend g

/-- Enabled trips that hold a group at a reload: CYCLE trips that are active, and LATCH trips that are
latched or whose clear landed in the reload cycle (R257, R258). -/
def State.holders (s : State) (g : Nat) (p : Stamp) : List Nat :=
  (List.range 16).filter (fun t =>
    s.conf Reg.ETU_TRIPCFG_EN t == 1 && bitOf (s.conf Reg.ETU_TRIPMAP_MAP t) g &&
    (if s.conf Reg.ETU_TRIPCFG_MODE t = 1 then
      bitOf (s.live Reg.ETU_TRIPSTAT_LATCHED) t ||
        (match Tab.get none s.etu.clearedAt t with | some l => decide (cycle p ≤ cycle l) | none => false)
    else bitOf (s.live Reg.ETU_TRIPSTAT_ACTIVE) t))

/-- Marks a group as cut or not (R256). -/
def State.setCut (s : State) (g : Nat) (b : Bool) : State :=
  (s.setLive Reg.ETU_GSTAT_CUT b.toNat g).setLive Reg.ETU_GCUT_CUT (withBit (s.live Reg.ETU_GCUT_CUT) g b)

/-- Cuts a group: its channels go low and their pending edges are cancelled (R256). -/
def State.cutGroup (s : State) (g t : Nat) : State :=
  let x := s.group g
  let s := s.setGroup g { x with holders := if x.holders.contains t then x.holders else x.holders ++ [t] }
  (groupChans g).foldl (fun s n => s.chanLow n) (s.setCut g true)

/-- The channels of group `g` that a commit's change reaches at this period start: a channel of its own by its own
fields, and both channels of a pair, before the change or after it, by those of the even one (R250, R251). (DEDUCED
105 of notes/assumptions) -/
def State.changedChans (s : State) (g : Nat) : List Nat :=
  (List.range 8).flatMap (fun j =>
    let n := 16 * g + 2 * j
    let pair := (s.chCfg n).pair || (chCfgOf (s.skn.act.chWords n)).pair
    let new := fun (k : Nat) => (Tab.get none s.etu.cfgOld k).isSome
    if pair then (if new n then [n, n + 1] else []) else [n, n + 1].filter new)

/-- The output of loop unit `n` that a reload at `p` takes: the one that became valid in an earlier cycle (R249). -/
def State.loopIn (s : State) (n : Nat) (p : Stamp) : Int :=
  let x := Tab.get Loop.fresh s.loops n
  match x.outAt with
  | some a => if cycle p ≤ cycle a then x.outOld else sext 32 (s.live Reg.CLE_OUT_U n)
  | none => sext 32 (s.live Reg.CLE_OUT_U n)

/-- What a channel takes at a reload: a new configuration, whose FREE holds the gate open, its loop output, a rate that
has landed, and a SYNC gate edge (R247, R249, R250). (DEDUCED 107 of notes/assumptions) -/
def State.chanReload (s : State) (n : Nat) (p : Stamp) (changed : Bool) : State :=
  let s := { s with etu := { s.etu with cfgOld := Tab.put none s.etu.cfgOld n none } }
  let s := if (s.chCfg n).free && decide (s.chLead n = n) then s.setLive Reg.ETU_CHSTAT_GATE 1 n
    else if changed then s.setLive Reg.ETU_CHSTAT_GATE (s.chan n).gate.toNat n else s
  let q := s.chan n
  let landed := fun (x : BitVec 16 × Stamp) => decide (cycle x.2 < cycle p)
  let s := match (q.rateNext.filter landed).getLast? with
    | some (r, _) => s.setLive Reg.ETU_CHSTAT_RATE r.toNat n
    | none => s
  let q := { q with
    loop := s.loopIn (s.chCfg n).lu p, rateNext := q.rateNext.filter (fun x => !landed x) }
  match q.gateNext with
  | some (b, t) =>
    if sAtOrBefore t p then
      (s.setChan n { q with gateNext := none, gate := b }).setLive Reg.ETU_CHSTAT_GATE b.toNat n
    else s.setChan n q
  | none => s.setChan n q

/-- The carrier of group `g` stops and its channels are low; the outputs that were on are kept for what its last
microsecond still holds (R241). -/
def State.stopGroup (s : State) (g : Nat) : State :=
  let x := s.group g
  let on := (groupChans g).filter (fun n => s.flag Reg.ETU_CHSTAT_OUT n)
  let s := s.setGroup g { x with run := false, outs := on }
  let s := on.foldl (fun (s : State) (n : Nat) => s.setLive Reg.ETU_CHSTAT_OUT 0 n) s
  (s.setLive Reg.ETU_GSTAT_RUN 0 g).setLive Reg.ETU_GSTAT_PCOUNT 0 g

/-- The carriers that a commit has disabled stop at F, the end of step 3 (R241). -/
def State.stopCarriers (s : State) : State :=
  (List.range s.variant.groups).foldl (fun (s : State) (g : Nat) =>
    let x := s.group g
    if x.stopAt == some s.fStamp then s.stopGroup g else s) s

/-- What happens to group `g` at `t`: a carrier that has stopped at F ran until then, so in the microsecond of the
boundary, which is one command, it still reaches what lies before F, and stops again (R23, R241). (DESIGN CHOICE 76
of notes/assumptions) -/
def State.untilStop (s : State) (g : Nat) (t : Stamp) (f : State → State) : State :=
  let x := s.group g
  match (if x.run then none else x.stopAt) with
  | none => f s
  | some e =>
    if sBefore t e then
      let s := s.setGroup g { x with run := true }
      (f (x.outs.foldl (fun (s : State) (n : Nat) => s.setLive Reg.ETU_CHSTAT_OUT 1 n) s)).stopGroup g
    else s

/-- The next period start of group `g`, while its carrier runs or is about to: a carrier that a commit stops runs to
the end of step 3 (R240, R241). -/
def State.nextPeriod (s : State) (g : Nat) : Option Stamp :=
  let x := s.group g
  let p := x.start + subTicks x.per
  if s.variant.groups ≤ g then none
  else match x.startAt with
    | some t => some t
    | none =>
      if x.run then some p
      else match x.stopAt with
        | some f => if sBefore p f then some p else none
        | none => none

/-- The carrier of group `g` reaches its period start `p` (R240, R244 to R250, R257). -/
def State.startPeriod (s : State) (g : Nat) (p : Stamp) : State :=
  let first := (s.group g).startAt.isSome
  let changed := s.changedChans g
  let s := s.copyShadows g p
  let s := s.setGroup g { s.group g with run := true, startAt := none, start := p }
  let s := (groupChans g).foldl (fun s n => s.chanReload n p (changed.contains n)) s
  let s := s.bump Reg.ETU_GSTAT_PCOUNT g
  let s := changed.foldl (fun s n => s.chanRestart n p) s
  let cut := s.flag Reg.ETU_GSTAT_CUT g
  let hs := if cut then s.holders g p else []
  let s := s.setGroup g { s.group g with holders := hs }
  if !hs.isEmpty then s
  else
    let s := s.setCut g false
    let s := if cut || first then (groupChans g).foldl (fun s n => s.chanRestart n p) s else s
    (groupChans g).foldl (fun s n => s.chanAt n p) s

/-- COMPARE_MATCH: a window edge, the end of a dead time, or a deferred fall of channel `ch` is reached
(R242, R252, R253). -/
def execCompareMatch (ch : Nat) (at_ : Stamp) (s : State) : Res :=
  let x := s.group (ch / 16)
  if (x.run || x.stopAt.isSome) && decide (ch < s.variant.channels) && s.inTurn at_ && sAtOrBefore x.start at_ &&
      sBefore at_ (x.start + subTicks x.per) then
    .next ((s.advanceTo at_).untilStop (ch / 16) at_ (fun (s : State) => s.chanAt ch at_))
  else .next s

/-- A placement gate edge of an issued entry acts on a channel at its stamp (R188, R247, R249). (DEDUCED 107 of
notes/assumptions) -/
def State.gateEdge (s : State) (n : Nat) (on : Bool) (rate : Nat) (t : Stamp) : State :=
  let k := s.chCfg n
  if k.free then s
  else
    let s := s.setLive Reg.ETU_CHSTAT_RATE rate n
    let x := s.group (n / 16)
    let s :=
      if k.gmode = 2 ∧ ¬ (x.run = true ∧ x.start = t) then
        s.setChan n { s.chan n with gateNext := some (on, t) }
      else (s.setChan n { s.chan n with gate := on }).setLive Reg.ETU_CHSTAT_GATE on.toNat n
    s.chanAt n t

/-- RATE_NOW of an on node loads at step 3 and acts at the next reload, so of two that have landed the later one
stands (R188, R249). -/
def State.loadRate (s : State) (n : Nat) (rate : BitVec 16) (land : Stamp) : State :=
  let q := s.chan n
  s.setChan n { q with rateNext := q.rateNext.drop (q.rateNext.length - 1) ++ [(rate, land)] }

/-- The carrier of group `g` starts at `b`; its first period starts PHASE later, and until then its channels stay low
(R241). -/
def State.startCarrier (s : State) (g : Nat) (b : Stamp) : State :=
  let x := s.group g
  let s := s.setGroup g { x with
    run := false, stopAt := none, startAt := some (b + subTicks (s.conf Reg.ETU_GPHASE_PHASE g)) }
  (s.setLive Reg.ETU_GSTAT_RUN 1 g).setLive Reg.ETU_GSTAT_PCOUNT 0 g

/-- The carriers after a commit at boundary `b`: a group enabled there starts, and one disabled there is to stop at F,
where it is driven low (R241); what holds a cut group holds it still (R257, R258); a changed channel keeps its old configuration until its next period start (R250). -/
def State.etuCommit (s : State) (old : Image) (b : Stamp) : State :=
  let s := (List.range s.variant.groups).foldl (fun s g =>
    let e0 := old.fld Reg.ETU_GCFG_EN g
    let e1 := s.conf Reg.ETU_GCFG_EN g
    if e0 = 0 ∧ e1 = 1 then s.startCarrier g b
    else if e0 = 1 ∧ e1 = 0 then
      let x := s.group g
      let f := b + 25600
      s.setGroup g { x with startAt := x.startAt.filter (fun t => sBefore t f), stopAt := some f }
    else s) s
  (List.range s.variant.channels).foldl (fun s n =>
    let w0 := old.chWords n
    if w0 = s.skn.act.chWords n ∨ (Tab.get none s.etu.cfgOld n).isSome then s
    else { s with etu := { s.etu with cfgOld := Tab.put none s.etu.cfgOld n (some w0) } }) s

/-- Every carrier stands, with its outputs as they are: the clock of the edge timing unit is gated (R61). (DEDUCED
34 of notes/assumptions) -/
def State.carriersStand (s : State) : State :=
  (List.range s.variant.groups).foldl (fun s g =>
    (s.setGroup g { s.group g with run := false, startAt := none, stopAt := none }).setLive Reg.ETU_GSTAT_RUN 0 g) s

/-- Every channel is driven low and every carrier stops (R48, R65). -/
def State.channelsLow (s : State) : State :=
  let s := (List.range s.variant.groups).foldl (fun s g =>
    (s.setGroup g { s.group g with run := false, startAt := none, stopAt := none, holders := [] }).setLive Reg.ETU_GSTAT_RUN 0 g) s
  (List.range s.variant.channels).foldl (fun s n => s.chanLow n) s

end Sys2Proof.Machine
end

