-- ==== Sys2Proof/Machine/Sensors.lean ====
section
/-! DEFINITION. Admission of input samples, and the sensor inputs: pulse inputs, quadrature pairs, ADC
channels, the IMU port and the die temperatures (R27, R28, R385 to R391, R454). -/

namespace Sys2Proof.Machine

/-- An input identifier (R41). -/
def inputId (cls idx : Nat) : InputId := BitVec.ofNat 24 (cls * 2 ^ 16 + idx)

/-- The maximum age of an input of the classes that pass through SAMPLE_ADMISSION, in sub-ticks (R285,
R339, R387). -/
def State.maxAge (s : State) (id : InputId) : Nat :=
  match id.toNat / 2 ^ 16 with
  | 0x03 => s.conf Reg.FGE_STIME_MAXAGE (id.toNat % 2 ^ 16) * msTicks
  | 0x08 => 10 * msTicks
  | _ => msTicks

/-- Queues a completed sample for its admission instant (R27). (DESIGN CHOICE 64 of notes/assumptions) -/
def State.complete (s : State) (id : InputId) (src adm : Stamp) (payload : List Byte) : State :=
  let x : Sample := ⟨id, src, adm, 0, payload⟩
  { s with inp := { s.inp with done := s.inp.done ++ [x] } }

/-- The admission or refusal of one completed sample (R27, R40). (DESIGN CHOICE 64 of notes/assumptions) -/
def State.settle (s : State) (x : Sample) : State :=
  if inAge x.src x.adm (s.maxAge x.id) then s.takeIn x.id x.src x.adm x.payload else s.refuseAge x.id x.src x.adm

/-- SAMPLE_ADMISSION: a completed sample is admitted or refused by its maximum age (R27). (DESIGN CHOICE 64 of
notes/assumptions) -/
def execSampleAdmission (id : InputId) (src : Stamp) (s : State) : Res :=
  match s.inp.done.find? (fun x => x.id == id && x.src == src) with
  | none => .next s
  | some x =>
    let s := s.advanceTo x.adm
    .next (({ s with inp := { s.inp with done := s.inp.done.erase x } }).settle x)

/-- Every completed sample whose admission instant is at or before a boundary is admitted or refused,
in the order of admission stamps (R28). (DESIGN CHOICE 64 of notes/assumptions) -/
def State.admitDue (s : State) (b : Stamp) : State :=
  let due := sortBy (fun x y => sAtOrBefore x.adm y.adm)
    (s.inp.done.filter (fun x => sAtOrBefore x.adm b))
  let s := { s with inp := { s.inp with done := s.inp.done.filter (fun x => !sAtOrBefore x.adm b) } }
  due.foldl (fun s x => s.settle x) s

/-- The runtime state of pulse input `i`. -/
def State.pulse (s : State) (i : Nat) : Pulse := Tab.get Pulse.fresh s.inp.pulses i

/-- Replaces the runtime state of pulse input `i`. -/
def State.setPulse (s : State) (i : Nat) (q : Pulse) : State :=
  { s with inp := { s.inp with pulses := Tab.put Pulse.fresh s.inp.pulses i q } }

/-- The period since an earlier edge in TCLK counts; 0xFFFF_FFFF for the first (R132). -/
def periodOf (prev : Option Stamp) (t : Stamp) : Nat :=
  match prev with
  | none => 0xFFFFFFFF
  | some p => min 0xFFFFFFFF ((t - p).toNat / 64)

/-- Input `i` is a line of a quadrature pair (R386). -/
def State.inQuad (s : State) (i : Nat) : Bool :=
  decide (s.conf Reg.SIN_PCFG_QUAD (i / 2 * 2) = 1)

/-- Delivers a pulse sample: it awaits admission 2 µs after its source stamp (R387), and loop units see
it (R294). (DEDUCED 66 of notes/assumptions) -/
def State.pulseSample (s : State) (i : Nat) (t : Stamp) (payload : List Byte) : State :=
  let id := inputId 4 i
  let s := s.complete id t (t + 51200) payload
  s.keepRecent ⟨id, t, t + 51200, 0, payload⟩ t

/-- The stamp of the last edge of a line and polarity. -/
def Pulse.last (q : Pulse) (onA level : Bool) : Option Stamp :=
  match onA, level with
  | true, true => q.riseA
  | true, false => q.fallA
  | false, true => q.riseB
  | false, false => q.fallB

/-- An edge at `t` becomes the last of its line and polarity; one that has an edge before it is timed (R132, R293,
R386). -/
def Pulse.step (q : Pulse) (onA level : Bool) (t : Stamp) : Pulse :=
  let q := if q.timed.isNone && (q.last onA level).isSome then { q with timed := some t } else q
  match onA, level with
  | true, true => { q with riseA := some t }
  | true, false => { q with fallA := some t }
  | false, true => { q with riseB := some t }
  | false, false => { q with fallB := some t }

/-- The input filters follow their pins: the device is powered and clocked, and no replay ignores the pins (R100,
R391). The rules give the filtered level no other condition. (DEDUCED 66 of notes/assumptions) -/
def State.pinsFollowed (s : State) : Bool :=
  !s.rpl.on &&
    (match s.power.phase with
     | .rows | .doze | .waitRow0 => true
     | .castOn _ => true
     | _ => false)

/-- Input `i` delivers an edge at `t`: it is enabled, and was so at the boundary before (R391). -/
def State.delivers (s : State) (i : Nat) (t : Stamp) : Bool :=
  s.takesInput && decide (s.conf Reg.SIN_PCFG_EN i = 1) && sAtOrBefore (s.pulse i).from_ t

/-- PULSE_EDGE: an accepted edge changes the filtered level, whether or not the input is enabled; it starts the period
of its polarity, and of a selected polarity delivers a sample (R132, R385, R391). -/
def execPulseEdge (i : Nat) (at_ : Stamp) (level : Bool) (s : State) : Res :=
  let t := floorTo 64 at_
  if s.pinsFollowed && decide (i < 24) && !s.inQuad i && s.flag Reg.SIN_PSTAT_LEVEL i != level then
    let s := s.advanceTo (t + subTicks (64 * s.conf Reg.SIN_PCFG_GLITCH i))
    let s := s.setLive Reg.SIN_PSTAT_LEVEL level.toNat i
    if s.delivers i t then
      let q := s.pulse i
      let per := periodOf (q.last true level) t
      let s := s.setPulse i (q.step true level t)
      if bitOf (s.conf Reg.SIN_PCFG_EDGE i) (if level then 0 else 1) then
        let s := s.bump Reg.SIN_PCNT_CNT i
        .next (s.pulseSample i t
          (bytesLE 4 per ++ bytesLE 4 (s.live Reg.SIN_PCNT_CNT i) ++ bytesLE 1 level.toNat))
      else .next s
    else .next s
  else .next s

/-- QUAD_EDGE: the levels of lines A and B after a step of the pair on even input `i`; the filtered levels follow them
whether or not the pair is enabled (R386, R391). -/
def execQuadEdge (i : Nat) (at_ : Stamp) (a b : Bool) (s : State) : Res :=
  let t := floorTo 64 at_
  if s.pinsFollowed && decide (i < 24) && decide (i % 2 = 0) && s.inQuad i then
    let a0 := s.flag Reg.SIN_PSTAT_LEVEL i
    let b0 := s.flag Reg.SIN_PSTAT_LEVEL (i + 1)
    let onA := a != a0
    if !onA && b == b0 then .next s
    else
      let s := s.advanceTo (t + subTicks (64 * s.conf Reg.SIN_PCFG_GLITCH (if onA then i else i + 1)))
      let s := (s.setLive Reg.SIN_PSTAT_LEVEL a.toNat i).setLive Reg.SIN_PSTAT_LEVEL b.toNat (i + 1)
      if !s.delivers i t then .next s
      else if onA && b != b0 then .next (s.setLive Reg.SIN_PSTAT_QERR 1 i)
      else
        let level := if onA then a else b
        let fwd := if onA then a != b else a == b
        let q := s.pulse i
        let per := periodOf (q.last onA level) t
        let s := s.setPulse i (q.step onA level t)
        let cnt := unsig 32 ((s.live Reg.SIN_PCNT_CNT i : Int) + (if fwd then 1 else -1))
        let s := s.setLive Reg.SIN_PCNT_CNT cnt i
        .next (s.pulseSample i t (bytesLE 4 per ++ bytesLE 4 cnt ++ bytesLE 1 (level.toNat + 2 * fwd.toNat)))
  else .next s

/-- The first stamp at or after `t` with remainder `ph` modulo `per`. -/
def gridFrom (per ph : Nat) (t : Stamp) : Stamp :=
  if per = 0 then t
  else subTicks (t.toNat + (ph % per + per - t.toNat % per) % per)

/-- The instant from which grid instants are still to come: in the microsecond of a boundary, which is one command, the
boundary itself (R23). (DESIGN CHOICE 76 of notes/assumptions) -/
def State.gridNow (s : State) : Stamp :=
  if sAtOrBefore s.row.cur s.now && sAtOrBefore s.now s.fStamp then s.row.cur else s.now

/-- The next grid stamp from now that is not the last one served. -/
def State.nextGrid (s : State) (per ph : Nat) (last : Option Stamp) : Stamp :=
  let t := gridFrom per ph s.gridNow
  if last = some t then gridFrom per ph (t + 1) else t

/-- A word of the gauge store as loaded at cast-on (R413, R414). -/
def State.gauge (s : State) (off n : Nat) : Nat :=
  leNat ((List.range n).map (fun i => Tab.get 0 s.boot.loaded (off + i)))

/-- The corrected conversion of ADC channel `c` (R388). -/
def State.adcValue (s : State) (c : Nat) (raw : BitVec 12) : Nat :=
  let off := sext 16 (s.gauge (32 + 4 * c) 2)
  let gain := s.gauge (34 + 4 * c) 2
  (clampI 0 4095 (divRound ((16 * raw.toNat + off) * gain) (2 ^ 19))).toNat

/-- ADC_CONVERSION: channel `ch` samples at its next grid instant and delivers a corrected conversion
(R387, R388). -/
def execAdcConversion (ch : Nat) (raw : BitVec 12) (s : State) : Res :=
  if s.takesInput && decide (ch < 16) && decide (s.conf Reg.SIN_ACFG_EN ch = 1) then
    let t := s.nextGrid (s.conf Reg.SIN_ATIME_APER ch * 256000) (s.conf Reg.SIN_ATIME_APH ch * 256000)
      (Tab.get none s.inp.adcLast ch)
    let s := s.advanceTo t
    let s := { s with inp := { s.inp with adcLast := Tab.put none s.inp.adcLast ch (some t) } }
    let payload := bytesLE 2 (s.adcValue ch raw)
    let id := inputId 5 ch
    let s := s.complete id t (t + 51200) payload
    .next (s.keepRecent ⟨id, t, t + 51200, 0, payload⟩ t)
  else .next s

/-- The NCMD command bytes of SIN_ICMD, byte 0 first (R389). -/
def State.imuCmd (s : State) : List Byte :=
  (bytesLE 4 (s.conf Reg.SIN_ICMD_CMD)).take (s.conf Reg.SIN_ICFG_NCMD)

/-- IMU_DRDY: an accepted edge of the polarity DRPOL starts a burst, which sends its command bytes first, or counts an
overlap (R389, R391). -/
def execImuDrdy (edge : DrdyEdge) (s : State) : Res :=
  let t := floorTo 64 edge.at_
  if s.takesInput && decide (s.conf Reg.SIN_ICFG_EN = 1) && decide (s.conf Reg.SIN_ICFG_DRPOL = (!edge.rising).toNat) &&
      sAtOrBefore s.inp.imuFrom t then
    let s := s.advanceTo (t + 256)
    match s.inp.burst with
    | none => .next { s with inp := { s.inp with burst := some ⟨t, s.imuCmd⟩ } }
    | some _ => .next (s.bump Reg.SIN_ISTAT_OVLP)
  else .next s

/-- IMU_BURST_END: the 16 bytes form a sample, or it is refused for its age; IMU_CS_N is released one SCK period later.
The bytes are those that the SCK edges of CPHA sampled (R389). (DEDUCED 129 of notes/assumptions) -/
def execImuBurstEnd (at_ : Stamp) (bytes : List Byte) (s : State) : Res :=
  match s.inp.burst with
  | none => .next s
  | some ⟨src, _⟩ =>
    let s := s.advanceTo at_
    let sck := subTicks (128 * (s.conf Reg.SIN_ICFG_DIV + 1))
    let s := { s with inp := { s.inp with burst := none, csUntil := some (at_ + sck) } }
    let id := inputId 6 0
    if inAge src at_ (s.conf Reg.SIN_ICFG_WIN * usTicks) then
      .next (s.takeIn id src at_ ((padTo 16 bytes).take 16))
    else .next ((s.refuseAge id src at_).bump Reg.SIN_ISTAT_LATE)

/-- IMU_SYNC_PULSE: IMU_SYNC goes high at the next sync instant (R390). -/
def execImuSyncPulse (s : State) : Res :=
  if s.takesInput && decide (s.conf Reg.SIN_ISYNC_EN = 1) && !s.inp.sync then
    let t := s.nextGrid (s.conf Reg.SIN_ISYNC_SPER * 256000) 0 s.inp.syncLast
    .next { s.advanceTo t with inp := { (s.advanceTo t).inp with sync := true, syncLast := some t } }
  else .next s

/-- IMU_SYNC_PULSE_END: IMU_SYNC returns low WIDTH µs after its sync instant (R390). -/
def execImuSyncPulseEnd (s : State) : Res :=
  if s.inp.sync then
    let t := s.inp.syncLast.getD s.now
    let s := s.advanceTo (t + subTicks (s.conf Reg.SIN_ISYNC_WIDTH * usTicks))
    .next { s with inp := { s.inp with sync := false } }
  else .next s

/-- The sensor inputs at rest, as before row 0 and in DOZE (R391). -/
def State.restInputs (s : State) : State :=
  { s with inp := { s.inp with burst := none, csUntil := none, sync := false } }

/-- Enabled inputs deliver their edges from boundary `b` on (R391). -/
def State.inputsOn (s : State) (b : Stamp) : State :=
  let s := (List.range 24).foldl (fun (s : State) (i : Nat) =>
    if s.conf Reg.SIN_PCFG_EN i = 1 then s.setPulse i { s.pulse i with from_ := b } else s) s
  { s with inp := { s.inp with imuFrom := b } }

/-- TEMPERATURE_UPDATE: the two sensors' values appear in SYS_TEMP (R454). (DEDUCED 129 of notes/assumptions) -/
def execTemperatureUpdate (drive logic : BitVec 16) (s : State) : Res :=
  if s.power.phase = .unpowered ∨ s.power.phase = .held then .next s
  else .next ((s.setLive Reg.SYS_TEMP_DRIVE drive.toNat).setLive Reg.SYS_TEMP_LOGIC logic.toNat)

end Sys2Proof.Machine
end

