-- ==== Sys2Proof/Machine/Loops.lean ====
section
/-! DEFINITION. The control loop engine: samples, measurements, the control law, modes, min-select groups
and the following error (R289 to R309). -/

namespace Sys2Proof.Machine

/-- Loop unit `n`. -/
def State.loop (s : State) (n : Nat) : Loop := Tab.get Loop.fresh s.loops n

/-- Replaces loop unit `n`. -/
def State.setLoop (s : State) (n : Nat) (x : Loop) : State := { s with loops := Tab.put Loop.fresh s.loops n x }

/-- The skein whose settings unit `n` uses: a commit's change waits for a sample of the new grid (R292). -/
def State.loopImg (s : State) (n : Nat) : Image :=
  match (s.loop n).cfgOld with
  | some (m, _) => m
  | none => s.skn.act

/-- The skein whose settings unit `n` uses at a sample at `t`: the new one from the first sample instant of the new
grid at or after the boundary of the commit (R292). (DEDUCED 113 of notes/assumptions) -/
def State.loopImgAt (s : State) (n : Nat) (t : Stamp) : Image :=
  match (s.loop n).cfgOld with
  | none => s.skn.act
  | some (m, b) =>
    let new := gridFrom (s.skn.act.fld Reg.CLE_LTIME_SPER n * 256000) (s.skn.act.fld Reg.CLE_LTIME_SPH n * 256000) b
    if sAtOrBefore new t then s.skn.act else m

/-- Bits of CLE_LFLG. -/
def lfSat : Nat := 0
/-- OLIM. -/
def lfOlim : Nat := 1
/-- ILIM. -/
def lfIlim : Nat := 2
/-- STALE. (DEDUCED 114 of notes/assumptions) -/
def lfStale : Nat := 3
/-- FE. -/
def lfFe : Nat := 4
/-- XCLAMP. -/
def lfXclamp : Nat := 5
/-- MODE_REJ. -/
def lfModeRej : Nat := 6

/-- A value with the flags that computing it has set. -/
abbrev Flagged := Int × Nat

/-- sat32, which sets SAT when it changes the value (R296). -/
def sat32F (fl : Nat) (x : Int) : Flagged :=
  let y := satS 32 x
  (y, if y = x then fl else withBit fl lfSat true)

/-- A clamp that sets flag `bit` when it changes the value. -/
def limF (bit : Nat) (lo hi : Int) (fl : Nat) (x : Int) : Flagged :=
  let y := min hi (max lo x)
  (y, if y = x then fl else withBit fl bit true)

/-- term(c, x, SH) (R297). -/
def termF (fl : Nat) (c x sh : Int) : Flagged := sat32F fl (shiftRound (c * x) (sh - 16))

/-- A signed 32-bit field of a unit. -/
def Image.int (m : Image) (f : Fld) (n : Nat) : Int := sext f.width (m.fld f n)

/-- The signed halfword at byte `o` of unit `n`'s tables (R299). -/
def Image.loopHalf (m : Image) (n o : Nat) : Int :=
  sext 16 (m.word (0x03208000 + 0x200 * n + o / 4 * 4) / 2 ^ (8 * (o % 4)))

/-- The proportional gain of |e| (R298). -/
def Image.loopGain (m : Image) (n : Nat) (e : Nat) : Int :=
  let kp := fun i => sext 32 (m.word (0x03208000 + 0x200 * n + 4 * i))
  let step := 2 ^ m.fld Reg.CLE_SH_ESTEP n
  let i := e / step
  if 31 ≤ i then kp 31
  else kp i + divRound ((kp (i + 1) - kp i) * ((e % step : Nat) : Int)) step

/-- The latest sample of an input whose source stamp is 2 µs or more before `t` (R294). (DESIGN CHOICE 67 of
notes/assumptions) -/
def State.loopInput (s : State) (id : InputId) (t : Stamp) : Option Sample :=
  (Tab.get [] s.inp.recent id.toNat).find? (fun x => sAtOrBefore x.src (t - 51200))

/-- The signed position count of pulse input `i` for a sample at `t`; 0 before its first edge (R299). -/
def State.loopPos (s : State) (i : Nat) (t : Stamp) : Int :=
  match s.loopInput (inputId 4 i) t with
  | some x => sext 32 (leAt x.payload 4 4)
  | none => 0

/-- A raw value as an exact number `num × 2^−sh`, the source stamp of the sample used, and whether the
source has nothing to give (R293, R295). -/
structure Raw where
  num : Int
  sh : Nat
  src : Option Stamp
  none_ : Bool
  /-- The largest sample age does not apply to the source (R295). -/
  ageless : Bool
  deriving DecidableEq, Repr

/-- PI_PERIOD of pulse input `i` at `t` with the source stamp, and whether a first period is known: of two edges of
one polarity, on one line of a pair (R293, R386). (DEDUCED 114 of notes/assumptions) -/
def State.loopPeriod (s : State) (i : Nat) (t : Stamp) : Option (Nat × Stamp × Bool) :=
  match s.loopInput (inputId 4 i) t with
  | none => none
  | some x =>
    let per := leAt x.payload 0 4
    let known := match (s.pulse i).timed with
      | some f => sAtOrBefore f x.src
      | none => false
    some (min 0xFFFFFFFF (max per ((t - x.src).toNat / 64)), x.src, decide (per ≠ 0xFFFFFFFF) || known)

/-- The raw NODE setpoint of node `k`: RATE_NOW × |speed| / 2^16, exact, as a numerator over 2^16 (R293). -/
def State.loopNode (s : State) (k : Nat) : Int :=
  let spd : Int := match s.ple.hist with | (_, q) :: _ => q.spd | [] => 0
  ((s.nodeRt k).rateNow.toNat : Int) * (spd.natAbs : Int)

/-- The raw value of a source (R293). A converter that has made no conversion has no value the spec states. (DESIGN
CHOICE 67; DEDUCED 114 of notes/assumptions) -/
def State.loopRaw (s : State) (n typ idx : Nat) (reg : Nat) (t : Stamp) : Raw :=
  match typ with
  | 0 => ⟨sext 32 reg, 0, none, false, true⟩
  | 1 =>
    match s.loopInput (inputId 5 idx) t with
    | some x => ⟨leAt x.payload 0 2, 0, some x.src, false, false⟩
    | none => ⟨(Config.freeWord s.draws).toNat % 4096, 0, none, false, false⟩
  | 2 =>
    match s.loopPeriod idx t with
    | some (v, src, _) => ⟨v, 0, some src, false, true⟩
    | none => ⟨0xFFFFFFFF, 0, none, true, true⟩
  | 3 =>
    match s.loopPeriod idx t with
    | some (v, src, known) => ⟨if known then divRound 102400000000 v else 0, 0, some src, false, true⟩
    | none => ⟨0, 0, none, true, true⟩
  | 4 => ⟨s.loopPos idx t, 0, (s.loopInput (inputId 4 idx) t).map (·.src), false, false⟩
  | 5 => ⟨sext 32 (s.live Reg.CLE_OUT_U idx), 0, none, false, true⟩
  | _ =>
    match (s.loop n).rawOld.find? (fun x => x.1 == idx) with
    | some (_, v, f) => ⟨if cycle t ≤ cycle f then v else s.loopNode idx, 16, none, false, true⟩
    | none => ⟨s.loopNode idx, 16, none, false, true⟩

/-- A raw value scaled by a gain and a shift (R296). -/
def Raw.scaled (r : Raw) (gain sh off : Int) (fl : Nat) : Flagged :=
  sat32F fl (shiftRound (r.num * gain) (sh - 16 - r.sh) + off)

/-- The live writes of unit `n` that act at a sample at `t`, in the order in which they landed, and those
that wait (R291). -/
def State.loopDue (s : State) (n : Nat) (t : Stamp) : List (Nat × W32) × List (Nat × W32 × Stamp) :=
  let w := (s.loop n).writes
  let due := fun (x : Nat × W32 × Stamp) => decide (cycle x.2.2 < cycle t)
  ((w.filter due).map (fun x => (x.1, x.2.1)), w.filter (fun x => !due x))

/-- What the application of writes has decided for a sample. (DEDUCED 115 of notes/assumptions) -/
structure LoopApply where
  /-- AUTO was entered from MANUAL (R302). -/
  fromManual : Bool
  /-- AUTO was entered from OFF (R301). -/
  fromOff : Bool
  deriving DecidableEq, Repr

/-- A write of CLE_MODE (R301). -/
def Loop.modeWrite (x : Loop) (n v : Nat) (a : LoopApply) : Loop × LoopApply :=
  let rej := ({ x with flags := withBit x.flags lfModeRej true }, a)
  if x.mode = 3 ∨ v = 3 ∨ (v = 2 ∧ 8 ≤ n) then rej
  else if v = 1 then
    if x.mode = 0 then ({ x with mode := 1, integ := 0, df := 0, fe := 0 }, { a with fromOff := true })
    else if x.mode = 2 then ({ x with mode := 1, fe := 0 }, { a with fromManual := true })
    else (x, a)
  else ({ x with mode := v }, ⟨false, false⟩)

/-- Applies one live write to unit `n` at a sample (R291, R301, R303). -/
def State.loopWriteAct (n : Nat) (acc : State × LoopApply) (w : Nat × W32) : State × LoopApply :=
  let s := acc.1
  let a := acc.2
  let x := s.loop n
  match w.1 with
  | 0x50 => let r := x.modeWrite n (w.2.toNat % 4) a; (s.setLoop n r.1, r.2)
  | 0x54 => (s.setLive Reg.CLE_SP_SP w.2.toNat n, a)
  | 0x58 => (s.setLoop n { x with man := sext 32 w.2.toNat }, a)
  | 0x5C => (s.setLive Reg.CLE_MREG_M w.2.toNat n, a)
  | _ => (if w.2.toNat % 2 = 1 ∧ x.mode = 3 then s.setLoop n { x with mode := 0 } else s, a)

/-- A live write to a CLE register at offset `o` of unit `n` that lands at `land` (R291). (DEDUCED 115 of
notes/assumptions) -/
def State.loopWrite (s : State) (n o : Nat) (v : W32) (land : Stamp) : State :=
  s.setLoop n { s.loop n with writes := (s.loop n).writes ++ [(o, v, land)] }

/-- The units that share the group of unit `n` at the sample instant `t`, itself included: each by the settings that it
uses there (R292, R304). (DEDUCED 113 of notes/assumptions) -/
def State.loopGroup (s : State) (n : Nat) (t : Stamp) : List Nat :=
  let m := s.loopImgAt n t
  if m.fld Reg.CLE_LCFG_GEN n = 1 then
    (List.range 64).filter (fun k =>
      let mk := s.loopImgAt k t
      mk.fld Reg.CLE_LCFG_EN k == 1 && mk.fld Reg.CLE_LCFG_GEN k == 1 &&
        mk.fld Reg.CLE_LCFG_GRP k == m.fld Reg.CLE_LCFG_GRP n)
  else [n]

/-- The next sample instant of unit `n` on the grid of a skein, from an instant on and after its latest sample
(R289). -/
def State.loopNext (s : State) (m : Image) (n : Nat) (from_ : Stamp) : Stamp :=
  let per := m.fld Reg.CLE_LTIME_SPER n * 256000
  let ph := m.fld Reg.CLE_LTIME_SPH n * 256000
  let t := gridFrom per ph from_
  match (s.loop n).at_ with
  | some a => if sAtOrBefore t a then gridFrom per ph (a + 1) else t
  | none => t

/-- The control law of unit `n` at a sample that is not stale (R297, R300, R302). -/
def State.loopLaw (s : State) (m : Image) (n : Nat) (a : LoopApply) (y sp : Int) (fl : Nat) : State :=
  let x := s.loop n
  let i := m.int
  let (e, fl) := sat32F fl (sp - y)
  let mag := min (2 ^ 31 - 1) e.natAbs
  let (p, fl) := termF fl (m.loopGain n mag) e (i Reg.CLE_SH_SH_P n)
  let (ff, fl) := termF fl (i Reg.CLE_KF_K n) sp (i Reg.CLE_SH_SH_F n)
  let comp := x.comp
  let clamp := limF lfOlim (i Reg.CLE_OMIN_LIM n) (i Reg.CLE_OMAX_LIM n)
  let imin := i Reg.CLE_IMIN_LIM n
  let imax := i Reg.CLE_IMAX_LIM n
  let law := fun (p i d ff : Int) (fl : Nat) =>
    let (ul, fl) := sat32F fl (p + i + d + ff)
    let (w, fl) := sat32F fl (ul + comp)
    (ul, w, fl)
  let x := { x with err := e, p := p, ff := ff, d := 0, yPrev := y, open_ := true, stale := false }
  let x :=
    if x.mode = 2 then
      let (w, fl) := sat32F fl (x.man + comp)
      let (u, fl) := clamp fl w
      { x with u := u, flags := fl }
    else if x.mode = 1 ∧ a.fromManual = true then
      let (z, fl) := sat32F fl (x.man - p - ff)
      let (iv, fl) := limF lfXclamp imin imax fl z
      let fl := if z = x.man - p - ff then fl else withBit fl lfXclamp true
      let (ul, w, fl) := law p iv 0 ff fl
      let (u, fl) := clamp fl w
      { x with df := 0, integ := iv, uLaw := ul, u := u, flags := fl }
    else if x.mode = 1 then
      let yPrev := if a.fromOff then y else (s.loop n).yPrev
      let (d, df, fl) :=
        if m.fld Reg.CLE_LCFG_DEN n = 1 then
          let (r, fl) := termF fl (i Reg.CLE_KD_K n) (y - yPrev) (i Reg.CLE_SH_SH_D n)
          let df := x.df + shiftRound (-r - x.df) (-(m.fld Reg.CLE_LCFG_DFILT n : Int))
          (df, df, fl)
        else (0, x.df, fl)
      let (di, fl) := termF fl (i Reg.CLE_KI_K n) e (i Reg.CLE_SH_SH_I n)
      let (z, fl) := sat32F fl (x.integ + di)
      let (cand, fl) := limF lfIlim imin imax fl z
      let (_, w', fl) := law p cand d ff fl
      let keep := (i Reg.CLE_OMAX_LIM n < w' ∧ 0 < di) ∨ (w' < i Reg.CLE_OMIN_LIM n ∧ di < 0)
      let iv := if keep then x.integ else cand
      let (ul, w, fl) := law p iv d ff fl
      let (u, fl) := clamp fl w
      { x with d := d, df := df, integ := iv, uLaw := ul, u := u, flags := fl }
    else { x with u := i Reg.CLE_FAILOUT_OUT n, flags := fl }
  s.setLoop n x

/-- The compensation of unit `n` at `t`, and the position it has seen (R299). -/
def State.loopComp (s : State) (m : Image) (n : Nat) (t : Stamp) : State :=
  let x := s.loop n
  let pos := s.loopPos (m.fld Reg.CLE_POS_PI n) t
  let sign := match x.pos with
    | some q => if q < pos then 1 else if pos < q then -1 else x.sign
    | none => x.sign
  let k := (pos / (2 ^ m.fld Reg.CLE_POS_PSHIFT n : Int) % 64).toNat
  let sc : Int := 2 ^ m.fld Reg.CLE_POS_CSH n
  let cog := if m.fld Reg.CLE_POS_COG_EN n = 1 then m.loopHalf n (256 + 2 * k) * sc else 0
  let fric := if m.fld Reg.CLE_POS_FRIC_EN n = 1 then m.loopHalf n (128 + 2 * k) * sc * sign else 0
  s.setLoop n { x with pos := some pos, sign := sign, comp := fric + cog }

/-- One unit's own part of a sample at `t` (R291 to R302). -/
def State.loopSelf (s : State) (n : Nat) (t : Stamp) : State :=
  let m := s.loopImg n
  let (due, wait) := s.loopDue n t
  let s := s.setLoop n { s.loop n with writes := wait, at_ := some t }
  let (s, a) := due.foldl (State.loopWriteAct n) (s, ⟨false, false⟩)
  let s := s.loopComp m n t
  let fl := (s.loop n).flags
  let raw := s.loopRaw n (m.fld Reg.CLE_MSRC_TYPE n) (m.fld Reg.CLE_MSRC_INDEX n) (s.live Reg.CLE_MREG_M n) t
  let set := s.loopRaw n (m.fld Reg.CLE_SSRC_TYPE n) (m.fld Reg.CLE_SSRC_INDEX n) (s.live Reg.CLE_SP_SP n) t
  let s := s.drawn
  let (y, fl) := raw.scaled (m.int Reg.CLE_MSCL_MGAIN n) (m.int Reg.CLE_MSCL_MSH n) (m.int Reg.CLE_MOFF_MOFF n) fl
  let (sp, fl) := set.scaled (m.int Reg.CLE_SSCL_SGAIN n) (m.int Reg.CLE_SSCL_SSH n) 0 fl
  let age := m.fld Reg.CLE_MSRC_MAXAGE n
  let old := match raw.src with
    | some src => !sAtOrBefore t (src + subTicks (age * msTicks))
    | none => true
  let stale := raw.none_ || (!raw.ageless && age != 0 && old)
  if stale then
    let x := s.loop n
    let u := if x.mode = 0 ∨ x.mode = 3 then m.int Reg.CLE_FAILOUT_OUT n else x.u
    s.setLoop n { x with
      u := u, stale := true, open_ := true, flags := withBit fl lfStale true,
      yPrev := if a.fromOff then y else x.yPrev }
  else s.loopLaw m n a y sp fl

/-- Min-select and loser tracking over the members that have sampled; a member that offers nothing has not lost
(R305). (DEDUCED 113 of notes/assumptions) -/
def State.loopSelect (s : State) (ns : List Nat) : State :=
  let offering := fun (n : Nat) => (s.loop n).mode == 1 || (s.loop n).mode == 2
  let offers := ns.filter offering
  let s := (ns.filter (fun n => !offering n)).foldl (fun (s : State) (n : Nat) =>
    s.setLoop n { s.loop n with loser := false }) s
  match sortBy (fun (a b : Nat × Int) => decide (a.2 ≤ b.2)) (offers.map (fun n => (n, (s.loop n).u))) with
  | [] => s
  | (w, uw) :: _ =>
    offers.foldl (fun s n =>
      let x := s.loop n
      let m := s.loopImg n
      if n = w then s.setLoop n { x with loser := false }
      else if x.mode = 1 ∧ x.stale = false then
        let (z, fl) := sat32F x.flags (uw - x.comp - x.p - x.d - x.ff)
        let (iv, fl) := limF lfIlim (m.int Reg.CLE_IMIN_LIM n) (m.int Reg.CLE_IMAX_LIM n) fl z
        let (ul, fl) := sat32F fl (x.p + iv + x.d + x.ff)
        s.setLoop n { x with u := uw, loser := true, integ := iv, uLaw := ul, flags := fl }
      else s.setLoop n { x with u := uw, loser := true }) s

/-- What follows the group step: MAN in AUTO, and the following-error count (R303, R307). (DEDUCED 115 of
notes/assumptions) -/
def State.loopClose (s : State) (n : Nat) (t : Stamp) : State :=
  let m := s.loopImg n
  let x := s.loop n
  let x := if x.mode = 1 ∧ n < 8 ∧ x.stale = false then { x with man := x.uLaw } else x
  let lim := m.fld Reg.CLE_FELIM_LIM n
  let fe :=
    if x.mode ≠ 1 ∨ x.loser = true then x.fe
    else if lim = 0 then 0
    else if x.stale = true ∨ lim < min (2 ^ 31 - 1) x.err.natAbs then x.fe + 1
    else 0
  let x := { x with fe := fe, open_ := false, due := true }
  if x.mode = 1 ∧ lim ≠ 0 ∧ m.fld Reg.CLE_FETIME_N n ≤ fe then
    (s.setLoop n { x with mode := 3, u := m.int Reg.CLE_FAILOUT_OUT n, flags := withBit x.flags lfFe true }).raise
      46 n (floorTo 64 t)
  else s.setLoop n x

/-- Unit `n` has formed its own output at `t` and waits for its group. -/
def State.loopOpen (s : State) (n : Nat) (t : Stamp) : Bool := (s.loop n).open_ && (s.loop n).at_ == some t

/-- The group step of unit `n`, where every member of its group has formed its own output at its sample instant; a unit
that is alone behaves as one without a group (R304, R305). (DEDUCED 113 of notes/assumptions) -/
def State.loopStep (s : State) (n : Nat) : State :=
  match (s.loop n).at_ with
  | none => s
  | some t =>
    let ns := s.loopGroup n t
    if (s.loop n).open_ && ns.all (fun k => s.loopOpen k t) then
      let s := if ns.length ≤ 1 then s.setLoop n { s.loop n with loser := false } else s.loopSelect ns
      ns.foldl (fun s k => s.loopClose k t) s
    else s

/-- The group steps that are due: a unit that joins or leaves a group may complete it for the others (R292, R305).
(DEDUCED 113 of notes/assumptions) -/
def State.loopSteps (s : State) : State :=
  (List.range 64).foldl (fun (s : State) (n : Nat) => if (s.loop n).open_ then s.loopStep n else s) s

/-- The unit takes its new settings, on the first sample instant of the new grid; one that stays disabled shows a new
FAILOUT (R292, R301). (DEDUCED 115 of notes/assumptions) -/
def State.loopSwitch (s : State) (n : Nat) : State :=
  match (s.loop n).cfgOld with
  | none => s
  | some (old, _) =>
    let x := { s.loop n with cfgOld := none }
    let m := s.skn.act
    let en := old.fld Reg.CLE_LCFG_EN n != m.fld Reg.CLE_LCFG_EN n
    let grp := fun (q : Image) => (q.fld Reg.CLE_LCFG_GEN n, q.fld Reg.CLE_LCFG_GRP n)
    let x := if grp old = grp m then x else { x with loser := false }
    let x := if en || m.fld Reg.CLE_LCFG_EN n != 1 then
        { x with mode := 0, u := m.int Reg.CLE_FAILOUT_OUT n, due := true, open_ := false }
      else x
    s.setLoop n x

/-- LOOP_SAMPLE: unit `n` reaches its next sample instant. When every member of its group has sampled, the
group step follows (R289, R292, R297, R304, R305, R307). (DEDUCED 113 of notes/assumptions) -/
def execLoopSample (n : Nat) (s : State) : Res :=
  if !s.rowsRun || decide (64 ≤ n) then .next s
  else
    let x := s.loop n
    let m := s.loopImg n
    let peer := (List.range 64).find? (fun k =>
      match (s.loop k).at_ with
      | some a =>
        let behind := match x.at_ with | some b => sBefore b a | none => true
        (s.loop k).open_ && behind && (s.loopGroup k a).contains n
      | none => false)
    let own := match peer with
      | some k => ((s.loop k).at_).getD s.now
      | none => s.loopNext m n s.gridNow
    let switch := match x.cfgOld with
      | some (_, b) =>
        let t := s.loopNext s.skn.act n (sMax s.gridNow b)
        if m.fld Reg.CLE_LCFG_EN n ≠ 1 ∨ sAtOrBefore t own = true then some t else none
      | none => none
    let (q, t) := match switch with
      | some t => (s.loopSwitch n, t)
      | none => (s, own)
    if s.recordFirst t then .next s
    else if (q.loopImg n).fld Reg.CLE_LCFG_EN n ≠ 1 then
      .next (match switch with
        | some t => ((q.advanceTo t).setLoop n { q.loop n with at_ := some t }).loopSteps
        | none => q)
    else .next ((q.advanceTo t).loopSelf n t).loopSteps

/-- The CLE registers of unit `n` show from `t` on what its latest sample left; of the output before, the value is kept
that was in force before the cycle of `t` (R249, R290, R308). -/
def State.loopShow (s : State) (n : Nat) (t : Stamp) : State :=
  let x := s.loop n
  let same := match x.outAt with | some a => decide (cycle a = cycle t) | none => false
  let x := { x with outAt := some t, outOld := if same then x.outOld else sext 32 (s.live Reg.CLE_OUT_U n) }
  let s := s.setLive Reg.CLE_OUT_U (unsig 32 x.u) n
  let s := s.setLive Reg.CLE_ERR_E (unsig 32 x.err) n
  let s := s.setLive Reg.CLE_INT_I (unsig 32 x.integ) n
  let s := s.setLive Reg.CLE_MAN_MAN (unsig 32 x.man) n
  let s := s.setLive Reg.CLE_MODE_MODE x.mode n
  let s := s.setLive Reg.CLE_LSTAT_FECNT x.fe n
  let s := s.setLive Reg.CLE_LSTAT_LOSER x.loser.toNat n
  let one := fun (s : State) (f : Fld) (b : Nat) => if bitOf x.flags b then s.setLive f 1 n else s
  let s := one s Reg.CLE_LFLG_SAT lfSat
  let s := one s Reg.CLE_LFLG_OLIM lfOlim
  let s := one s Reg.CLE_LFLG_ILIM lfIlim
  let s := one s Reg.CLE_LFLG_STALE lfStale
  let s := one s Reg.CLE_LFLG_FE lfFe
  let s := one s Reg.CLE_LFLG_XCLAMP lfXclamp
  let s := one s Reg.CLE_LFLG_MODE_REJ lfModeRej
  s.setLoop n { x with due := false, flags := 0 }

/-- LOOP_OUTPUT: the output of the latest sample becomes valid 4 µs after its sample instant (R290). (DEDUCED 113 of
notes/assumptions) -/
def execLoopOutput (n : Nat) (s : State) : Res :=
  let x := s.loop n
  match x.at_ with
  | some t => if x.due && s.rowsRun && decide (n < 64) && !s.recordFirst (t + 102400) then
      .next ((s.advanceTo (t + 102400)).loopShow n (t + 102400))
    else .next s
  | none => .next s

/-- A host write of CLE_MODE. -/
def State.hostMode (s : State) (p : Port) (n v : Nat) : Res :=
  if n < 64 then
    .next (s.hostLive p (0x03201050 + 0x80 * n) v (fun s => s.loopWrite n 0x50 (BitVec.ofNat 32 v) s.now))
  else .next s

/-- LOOP_MODE_OFF (R291, R301). -/
def execLoopModeOff (p : Port) (n : Nat) (s : State) : Res := s.hostMode p n 0

/-- LOOP_MODE_AUTO (R291, R301). -/
def execLoopModeAuto (p : Port) (n : Nat) (s : State) : Res := s.hostMode p n 1

/-- LOOP_MODE_MANUAL (R291, R301). -/
def execLoopModeManual (p : Port) (n : Nat) (s : State) : Res := s.hostMode p n 2

/-- LOOP_CLEAR: a host write of CLE_LCLR (R291, R301). -/
def execLoopClear (p : Port) (n : Nat) (s : State) : Res :=
  if n < 64 then
    .next (s.hostLive p (0x03201074 + 0x80 * n) 1 (fun s => s.loopWrite n 0x74 1 s.now))
  else .next s

/-- The settings of unit `n` in a slot: its registers and its tables. -/
def Image.loopPart (m : Image) (n : Nat) : Tab W32 × Tab W32 :=
  (Tab.range m.flds ((0x03201000 + 0x80 * n) * 8) ((0x03201080 + 0x80 * n) * 8),
    Tab.range m.words ((0x03208000 + 0x200 * n) / 4) ((0x03208200 + 0x200 * n) / 4))

/-- The units whose settings a commit at boundary `b` changes keep the old ones for now (R292). (DEDUCED 115 of
notes/assumptions) -/
def State.loopCommit (s : State) (old : Image) (b : Stamp) : State :=
  let s := (List.range 64).foldl (fun s n =>
    if old.loopPart n = s.skn.act.loopPart n ∨ (s.loop n).cfgOld.isSome = true then s
    else s.setLoop n { s.loop n with cfgOld := some (⟨(old.loopPart n).1, [], (old.loopPart n).2, []⟩, b) }) s
  s.loopSteps

/-- Every unit goes to OFF and outputs FAILOUT at the boundary: at row 0, and at bind-off step 4 (R67, R301). -/
def State.loopsFail (s : State) : State :=
  (List.range 64).foldl (fun s n =>
    let s := s.setLoop n { s.loop n with mode := 0, u := s.skn.act.int Reg.CLE_FAILOUT_OUT n, due := false, open_ := false }
    s.loopShow n s.row.cur) s

/-- Before step 3 applies a new pose and new rates, the NODE setpoints keep their old raw values for samples
up to F, by the settings the unit still uses and by those a commit gives it (R291, R292). -/
def State.loopKeepRaw (s : State) (f : Stamp) : State :=
  (List.range 64).foldl (fun s n =>
    let nodes := ([s.loopImg n, s.skn.act].filter (fun m => m.fld Reg.CLE_SSRC_TYPE n == 6)).map
      (fun m => m.fld Reg.CLE_SSRC_INDEX n)
    let old := nodes.map (fun k => (k, s.loopNode k, f))
    if (s.loop n).rawOld = old then s else s.setLoop n { s.loop n with rawOld := old }) s

end Sys2Proof.Machine
end

