-- ==== Sys2Proof/Machine/Nodes.lean ====
section
/-! DEFINITION. The needle bed: node records, the tree and its groups, reference frames, leads, windows
and the record a host or a program reads (R135 to R152, R172). -/

namespace Sys2Proof.Machine

/-- A node record with the fields of both layouts (R140). Lengths are in 0.1 mm. -/
structure NodeRec where
  parent : Nat
  kind : Nat
  divisor : Nat
  phase : Nat
  tx : Int
  ty : Int
  yaw0 : Nat
  tsrc : Nat
  maxage : Nat
  yawlim : Nat
  hl : Nat
  pax : Int
  pay : Int
  cax : Int
  cay : Int
  fx : Int
  fy : Int
  fw : Nat
  fl : Nat
  endpoint : Nat
  leadOn : Nat
  leadOff : Nat
  margin : Nat
  leadMax : Nat
  rules : Nat
  cov : Nat
  rx : Nat
  compose : Nat
  gateAnd : Bool
  learnEn : Bool
  learnW : Nat
  k : Nat
  fail : Nat
  ovlThr : Nat
  rateFix : Nat
  deriving DecidableEq, Repr

/-- Word `j` of the record of node `i` in a slot. -/
def Image.nodeWord (m : Image) (i j : Nat) : Nat := (Tab.get 0 m.nodes (16 * i + j)).toNat

/-- The record of node `i` in a slot (R140). -/
def Image.node (m : Image) (i : Nat) : NodeRec :=
  let w := m.nodeWord i
  let c := fun j => sext 32 (w j)
  { parent := bitsOf (w 0) 0 17, kind := bitsOf (w 0) 24 2, divisor := bitsOf (w 1) 0 8 + 1
    phase := bitsOf (w 1) 8 8
    tx := c 2, ty := c 3, yaw0 := w 5, tsrc := bitsOf (w 6) 0 8, maxage := bitsOf (w 6) 8 8
    yawlim := bitsOf (w 6) 16 16, hl := w 7, pax := c 8, pay := c 9, cax := c 10, cay := c 11
    fx := c 2, fy := c 3, fw := bitsOf (w 4) 0 16, fl := bitsOf (w 4) 16 16, endpoint := w 5
    leadOn := w 6, leadOff := w 7, margin := bitsOf (w 8) 0 16, leadMax := bitsOf (w 8) 16 16
    rules := bitsOf (w 9) 0 8, cov := bitsOf (w 9) 8 2, rx := bitsOf (w 9) 12 3
    compose := bitsOf (w 9) 16 3, gateAnd := bitOf (w 9) 20, learnEn := bitOf (w 9) 24
    learnW := bitsOf (w 9) 25 3
    k := bitsOf (w 10) 0 16, fail := bitsOf (w 10) 16 2, ovlThr := bitsOf (w 10) 24 8
    rateFix := bitsOf (w 11) 0 16 }

/-- Kinds of node (R135). -/
def kFrame : Nat := 1
/-- A GROUP. -/
def kGroup : Nat := 2
/-- A LEAF. -/
def kLeaf : Nat := 3

/-- The endpoint type of a record (R159). -/
def NodeRec.etype (r : NodeRec) : Nat := r.endpoint / 2 ^ 28
/-- The endpoint index of a record (R159). -/
def NodeRec.eidx (r : NodeRec) : Nat := r.endpoint % 2 ^ 28
/-- GROUP or LEAF. -/
def NodeRec.isEnd (r : NodeRec) : Bool := decide (2 ≤ r.kind)
/-- A GROUP composed from its members (R138, R146). -/
def NodeRec.composing (r : NodeRec) : Bool := decide (r.kind = kGroup) && decide (r.compose < 3)
/-- A GROUP that decides on its own footprint (R147). -/
def NodeRec.own (r : NodeRec) : Bool := decide (r.kind = kGroup) && decide (r.compose = 3)
/-- The node has an actuator (R149). -/
def NodeRec.actuated (r : NodeRec) : Bool := r.isEnd && decide (r.etype ≠ 15)
/-- A slice or a slice pair: it only switches (R183). -/
def NodeRec.switching (r : NodeRec) : Bool := decide (r.etype = 1) || decide (r.etype = 2)
/-- Bits of RULES (R140). -/
def NodeRec.rule (r : NodeRec) (b : Nat) : Bool := bitOf r.rules b

/-- RULES.BOUNDARY. -/
def ruBoundary : Nat := 0
/-- RULES.OVERLAP. -/
def ruOverlap : Nat := 1
/-- RULES.TARGET. -/
def ruTarget : Nat := 2
/-- RULES.RX. -/
def ruRx : Nat := 3
/-- RULES.STRICT. -/
def ruStrict : Nat := 4
/-- RULES.UNKNOWN_COVERED. -/
def ruUnknown : Nat := 5
/-- RULES.EXT_AND. -/
def ruExtAnd : Nat := 6

/-- The record of node `i` in the ACTIVE skein. -/
def State.node (s : State) (i : Nat) : NodeRec := s.skn.act.node i

/-- Rising keys divided by 16, without repeats. -/
def nodeKeys : Nat → Tab W32 → List Nat
  | _, [] => []
  | last, (k, _) :: t => if k / 16 + 1 = last then nodeKeys last t else k / 16 :: nodeKeys (k / 16 + 1) t

/-- The nodes of a slot that are not FREE, in ascending index (R135). -/
def Image.defined (m : Image) : List Nat := (nodeKeys 0 m.nodes).filter (fun i => decide ((m.node i).kind ≠ 0))

/-- The non-FREE nodes of the ACTIVE skein. -/
def State.defined (s : State) : List Nat := s.skn.act.defined

/-- The ancestors of node `i`, nearest first, up to the root. -/
def Image.ancestors (m : Image) : Nat → Nat → List Nat
  | 0, _ => []
  | fuel + 1, i =>
    if i = 0 then [] else let p := (m.node i).parent; if p < i then p :: Image.ancestors m fuel p else []

/-- The ancestors of node `i` in the ACTIVE skein, nearest first. -/
def State.above (s : State) (i : Nat) : List Nat := s.skn.act.ancestors i i

/-- The group above a node that has it as a member: FRAMEs are looked through (R137). -/
def State.groupOf (s : State) (i : Nat) : Option Nat :=
  (s.above i).find? (fun a => decide ((s.node a).kind = kGroup))

/-- The members of a group, in ascending index (R137). -/
def State.members (s : State) (g : Nat) : List Nat :=
  s.defined.filter (fun j => (s.node j).isEnd && decide (s.groupOf j = some g))

/-- The node and its descendants, in ascending index. -/
def State.subtree (s : State) (i : Nat) : List Nat :=
  s.defined.filter (fun j => decide (j = i) || (s.above j).contains i)

/-- The frames from the root down to the reference frame of node `i`, itself included when it is a FRAME
(R137). -/
def State.frameChain (s : State) (i : Nat) : List Nat :=
  ((i :: s.above i).filter (fun a => decide ((s.node a).kind = kFrame))).reverse

/-- The node bound to an endpoint of the ACTIVE skein, the lowest one of a callback's (R124, R159). -/
def State.boundTo (s : State) (ep : Nat) : Option Nat :=
  s.defined.find? (fun i => (s.node i).isEnd && decide ((s.node i).endpoint = ep))

/-! ### Leads and windows -/

/-- The lead of a direction by R150, in TCLK counts. (DEDUCED 86 of notes/assumptions) -/
def State.leadNow (s : State) (i : Nat) (on : Bool) : Nat :=
  let r := s.node i
  let x := s.nodeRt i
  let cfg := if on then r.leadOn else r.leadOff
  if r.learnEn = false ∨ x.learnN < 4 then cfg else (if on then x.learnedOn else x.learnedOff).getD cfg

/-- The lead in use: as of the node's last evaluation, the configured one before its first (R150). -/
def State.lead (s : State) (i : Nat) (on : Bool) : Nat :=
  let r := s.node i
  let x := s.nodeRt i
  if on then x.useOn.getD r.leadOn else x.useOff.getD r.leadOff

/-- Takes the leads in use for an evaluation (R150). (DEDUCED 86 of notes/assumptions) -/
def State.takeLeads (s : State) (i : Nat) : State :=
  s.setNodeRt i { s.nodeRt i with useOn := some (s.leadNow i true), useOff := some (s.leadNow i false) }

/-- One measurement of a lead (R151): `m` in TCLK counts. A node with LEARN.EN clear learns nothing. -/
def State.learn (s : State) (i : Nat) (on : Bool) (m : Int) : State :=
  let r := s.node i
  let x := s.nodeRt i
  if r.learnEn then
    let step := fun (l : Option Nat) =>
      match l with
      | none => some m.toNat
      | some l => some ((l : Int) + divRound (m - l) (2 ^ r.learnW)).toNat
    s.setNodeRt i { x with
      learnN := min 255 (x.learnN + 1)
      learnedOn := if on then step x.learnedOn else x.learnedOn
      learnedOff := if on then x.learnedOff else step x.learnedOff }
  else s

/-- A lead in use exceeds LEAD_MAX (R152, R158). -/
def State.overLead (s : State) (i : Nat) : Bool :=
  decide ((s.node i).leadMax * 400000 < max (s.lead i true) (s.lead i false))

/-- The own window of an endpoint node at boundary `b` (R172). -/
def State.ownWindow (s : State) (i : Nat) (b : Stamp) : Stamp × Stamp :=
  let on := s.lead i true
  let off := s.lead i false
  (b + subTicks (64 * min on off), b + subTicks (64 * max on off + (s.node i).margin * msTicks))

/-- The span over which node `i` is predicted (R139, R172). (DEDUCED 87 of notes/assumptions) -/
def State.span (s : State) (i : Nat) (b : Stamp) : Stamp × Stamp :=
  let up := (s.above i).filter (fun a => (s.node a).composing)
  let down := if (s.node i).own then s.members i else []
  (up ++ down).foldl (fun w j =>
    let v := s.ownWindow j b
    (if sBefore v.1 w.1 then v.1 else w.1, sMax w.2 v.2)) (s.ownWindow i b)

/-! ### Status and records -/

/-- STATUS bits (R140). -/
def stStale : Nat := 0
/-- STATUS.DISPUTE. -/
def stDispute : Nat := 1
/-- STATUS.FAIL. -/
def stFail : Nat := 2
/-- STATUS.EXCLUDED. -/
def stExcluded : Nat := 3
/-- STATUS.QSTARVED. -/
def stStarved : Nat := 4
/-- STATUS.CARRIED. -/
def stCarried : Nat := 5
/-- STATUS.CLAMPED. -/
def stClamped : Nat := 6

/-- A STATUS bit of a node. -/
def State.nodeSt (s : State) (i b : Nat) : Bool := bitOf (s.nodeRt i).status.toNat b

/-- Sets or clears a STATUS bit of a node. -/
def State.setNodeSt (s : State) (i b : Nat) (v : Bool) : State :=
  let x := s.nodeRt i
  s.setNodeRt i { x with status := BitVec.ofNat 8 (withBit x.status.toNat b v) }

/-- The node is in its fail state (R156). -/
def NodeRt.failing (x : NodeRt) : Bool := bitOf x.status.toNat stFail

/-- The external state that applies to target stamp `t`: none where none is held (R153). -/
def NodeRt.extFor (x : NodeRt) (t : Stamp) : Option Bool :=
  x.exts.foldl (fun a p => if sAtOrBefore p.1 t then p.2 else a) none

/-- The external state held by the latest command (R140, R153). -/
def NodeRt.extHeld (x : NodeRt) : Option Bool := (x.exts.getLast?.map Prod.snd).join

/-- STATE.ACTUAL at a stamp: the latest resolved actual instant that has passed (R210). -/
def NodeRt.actualAt (x : NodeRt) (t : Stamp) : Bool :=
  x.acts.foldl (fun a p => if sAtOrBefore p.1 t then p.2 else a) x.actual

/-- A baseline value of a frame of node `i` was discarded for its length in this row (R143). -/
def State.baselineDispute (s : State) (i : Nat) : Bool :=
  (s.frameChain i).any (fun f => decide ((s.nodeRt f).disputeRow = some s.row.num))

/-- The STATUS byte of node `i`; the dispute of a discarded baseline value lasts for its row (R140, R143). -/
def State.statusOf (s : State) (i : Nat) : Nat :=
  let v := (s.nodeRt i).status.toNat
  if s.baselineDispute i then withBit v stDispute true else v

/-- Word `j` of the record of node `i` as the ACTIVE view shows it: the skein-held bytes with the bytes the
device writes (R140). A FREE record has none. -/
def State.nodeWord (s : State) (i j : Nat) : Nat :=
  let w := s.skn.act.nodeWord i j
  let r := s.node i
  let x := s.nodeRt i
  if r.kind = 0 then w
  else if j = 1 then w % 2 ^ 16 + 2 ^ 16 * s.statusOf i + 2 ^ 24 * x.lastRow.toNat
  else if r.kind = kFrame then
    if j = 12 then x.yawNow.toNat
    else if j = 13 then unsig 32 (satS 32 x.yawRate)
    else if j = 14 then (x.srcStamp.getD 0).toNat % 2 ^ 32
    else if j = 15 then (x.srcStamp.getD 0).toNat / 2 ^ 32
    else w
  else if j = 12 then s.lead i true % 2 ^ 32
  else if j = 13 then s.lead i false % 2 ^ 32
  else if j = 14 then x.rateNow.toNat + 2 ^ 16 * min 65535 x.membersOn
  else if j = 15 then
    x.cmd.toNat + 2 * (x.actualAt s.now).toNat + 4 * x.extHeld.isSome.toNat + 8 * (x.extHeld.getD false).toNat +
      2 ^ 8 * x.learnN + 2 ^ 16 * min 255 x.miss
  else w

end Sys2Proof.Machine
end

