-- ==== Sys2Proof/Machine/Trig.lean ====
section
/-! DEFINITION. Square roots and angles in fixed point. Angles are binary angles with 2^32 to the turn;
sines and cosines carry 48 fraction bits. The spec states exact results with a single rounding; these
functions keep far more bits than any stated result has. -/

namespace Sys2Proof.Machine

/-- Integer square root, rounded down: decides `k` bits from the highest. -/
def isqrtGo (n : Nat) : Nat → Nat → Nat
  | 0, r => r
  | k + 1, r =>
    let c := r + 2 ^ k
    if c * c ≤ n then isqrtGo n k c else isqrtGo n k r

/-- Integer square root, rounded down. -/
def isqrt (n : Nat) : Nat := isqrtGo n (n.log2 / 2 + 1) 0

/-- Square root rounded to nearest. (UNVERIFIED 82 of notes/assumptions) -/
def isqrtRound (n : Nat) : Nat :=
  let r := isqrt n
  if r * r + r < n then r + 1 else r

/-- The scale of sines and cosines. -/
def trigOne : Int := 2 ^ 48

/-- π with 48 fraction bits. -/
def piQ : Int := 884279719003555

/-- Product with 48 fraction bits. -/
def mulQ (a b : Int) : Int := a * b / 2 ^ 48

/-- The terms of an alternating power series: each is the last times `sq / (k (k + 1))`, sign changed. (UNVERIFIED
82 of notes/assumptions) -/
def trigSeries (sq : Int) : Nat → Nat → Int → Int
  | 0, _, _ => 0
  | fuel + 1, k, t => t + trigSeries sq fuel (k + 2) (-(mulQ t sq) / ((k * (k + 1) : Nat) : Int))

/-- Sine of an angle within an eighth of a turn of 0. (UNVERIFIED 82 of notes/assumptions) -/
def sinSmall (x : Int) : Int := trigSeries (mulQ x x) 9 2 x

/-- Cosine of an angle within an eighth of a turn of 0. (UNVERIFIED 82 of notes/assumptions) -/
def cosSmall (x : Int) : Int := trigSeries (mulQ x x) 9 1 trigOne

/-- Sine and cosine of a binary angle, which may carry `fr` fraction bits. (UNVERIFIED 82 of notes/assumptions) -/
def sinCos (fr : Nat) (a : Int) : Int × Int :=
  let quarter : Int := 2 ^ (30 + fr)
  let q := ((a + quarter / 2) / quarter) % 4
  let r := a - ((a + quarter / 2) / quarter) * quarter
  let x := r * piQ / (2 * quarter)
  let s := sinSmall x
  let c := cosSmall x
  if q = 0 then (s, c) else if q = 1 then (c, -s) else if q = 2 then (-s, -c) else (-c, s)

/-- Arctangent series for |t| < 0.42. (UNVERIFIED 82 of notes/assumptions) -/
def atanSeries (sq : Int) : Nat → Nat → Int → Int
  | 0, _, _ => 0
  | fuel + 1, k, t => t / (k : Int) + atanSeries sq fuel (k + 2) (-(mulQ t sq))

/-- Arctangent of a ratio from 0 to 1, in radians with 48 fraction bits. -/
def atanUnit (t : Int) : Int :=
  if 116590752822204 < t then piQ / 4 + (let u := (t - trigOne) * trigOne / (t + trigOne); atanSeries (mulQ u u) 22 1 u)
  else atanSeries (mulQ t t) 22 1 t

/-- The angle whose tangent is y / x, in its quadrant, as a binary angle from 0 to 2^32 − 1; 0 for the zero
vector. (UNVERIFIED 82 of notes/assumptions) -/
def atan2B (y x : Int) : Nat :=
  let ax : Int := x.natAbs
  let ay : Int := y.natAbs
  if ax = 0 ∧ ay = 0 then 0
  else
    let a := if ay ≤ ax then atanUnit (ay * trigOne / ax) else piQ / 2 - atanUnit (ax * trigOne / ay)
    let a := if x < 0 then piQ - a else a
    let a := if y < 0 then -a else a
    unsig 32 (divRound (a * 2 ^ 31) 884279719003555)

end Sys2Proof.Machine
end

