-- ==== Sys2Proof/Machine/Motion.lean ====
section
/-! DEFINITION. The pose, the predicted motion of the machine and of its frames, and the instants at which a
distance is reached (R142 to R145, R167 to R171, R182, R341). Lengths carry 32 fraction bits below 0.1 mm,
and angles are in 2^−48 turn. -/

namespace Sys2Proof.Machine

/-- Sub-ticks in one second. -/
def secTicks : Nat := 25600000000

/-- The fraction bits of a length. -/
def lenOne : Int := 2 ^ 32

/-- The pose in force, from its registers (R167). -/
def State.pose (s : State) : Pose :=
  ⟨BitVec.ofNat 64 (s.live64 Reg.PLE_POSE_T_LO_T Reg.PLE_POSE_T_HI_T), sext 32 (s.live Reg.PLE_POSE_E_E),
    sext 32 (s.live Reg.PLE_POSE_N_N), BitVec.ofNat 32 (s.live Reg.PLE_POSE_HDG_HDG), sext 32 (s.live Reg.PLE_POSE_SPD_SPD),
    sext 32 (s.live Reg.PLE_POSE_ACC_ACC), sext 32 (s.live Reg.PLE_POSE_YR_YR)⟩

/-- The staged pose of a writer (R168). -/
def State.stagedPose (s : State) (w : Writer) : Pose :=
  ⟨BitVec.ofNat 64 (s.staged w Reg.PLE_POSE_T_LO_T + 2 ^ 32 * s.staged w Reg.PLE_POSE_T_HI_T),
    sext 32 (s.staged w Reg.PLE_POSE_E_E), sext 32 (s.staged w Reg.PLE_POSE_N_N),
    BitVec.ofNat 32 (s.staged w Reg.PLE_POSE_HDG_HDG), sext 32 (s.staged w Reg.PLE_POSE_SPD_SPD),
    sext 32 (s.staged w Reg.PLE_POSE_ACC_ACC), sext 32 (s.staged w Reg.PLE_POSE_YR_YR)⟩

/-- The limits of the prediction (R170, R208). -/
structure Lim where
  /-- AMAX in 2^−16 m/s². -/
  amax : Int
  /-- VMIN in 2^−16 m/s. -/
  vmin : Int
  deriving DecidableEq, Repr

/-- PLE_PRED (R170). -/
def State.lim (s : State) : Lim := ⟨(s.conf Reg.PLE_PRED_AMAX : Int) * 256, s.conf Reg.PLE_PRED_VMIN⟩

/-- Acceleration after its clamp (R170). -/
def Lim.acc (l : Lim) (p : Pose) : Int := clampI (-l.amax) l.amax p.acc

/-- The speed reaches 0 at a later instant of the prediction (R170). -/
def stops (v a : Int) : Bool := (decide (0 < v) && decide (a < 0)) || (decide (v < 0) && decide (0 < a))

/-- Past the stop: v0 + a τ has changed sign or is 0. -/
def stopped (v a tau : Int) : Bool :=
  stops v a && decide (0 < tau) && (if 0 < v then decide (v * secTicks + a * tau ≤ 0) else decide (0 ≤ v * secTicks + a * tau))

/-- v(τ) in 2^−16 m/s × sub-ticks per second (R170): τ in sub-ticks. -/
def speedAt (v a tau : Int) : Int := if stopped v a tau then 0 else v * secTicks + a * tau

/-- s(τ) in lengths with 32 fraction bits (R170). -/
def arcAt (v a tau : Int) : Int :=
  if stopped v a tau then -(655360000 * v * v) / (2 * a)
  else 655360000 * (2 * v * tau * secTicks + a * tau * tau) / (2 * (secTicks : Int) * secTicks)

/-- The heading change along an arc length, in 2^−48 turn (R170). -/
def Lim.turn (l : Lim) (p : Pose) (s : Int) : Int :=
  if (p.spd.natAbs : Int) < l.vmin then 0
  else if p.spd = 0 then Config.headingAtRest p.yr s
  else divRound (p.yr * s * (if 0 < p.spd then 1 else -1)) (10000 * p.spd.natAbs)

/-- The yaw rate along the arc at τ, in 2^−48 turn per second. -/
def Lim.turnRate (l : Lim) (p : Pose) (tau : Int) : Int :=
  if (p.spd.natAbs : Int) < l.vmin ∨ p.spd = 0 then 0
  else p.yr * 2 ^ 16 * speedAt p.spd (l.acc p) tau / (p.spd * secTicks)

/-- sin x / x with 48 fraction bits, for x in radians with 48 fraction bits whose sine is given. -/
def sincQ (x sine : Int) : Int :=
  if (x.natAbs : Int) < 2 ^ 40 then trigOne - mulQ x x / 6 else sine * trigOne / x

/-- Where a point is, where it points, and how both change. Velocities are per second. -/
structure Kin where
  e : Int
  n : Int
  yaw : Int
  ve : Int
  vn : Int
  w : Int
  deriving DecidableEq, Repr

/-- The reference point τ sub-ticks after the stamp of a pose (R170); before it with `tau < 0`, where no
stop applies (R171). (DESIGN CHOICE 84 of notes/assumptions) -/
def Lim.predict (l : Lim) (p : Pose) (tau : Int) : Kin :=
  let a := l.acc p
  let s := arcAt p.spd a tau
  let v := speedAt p.spd a tau
  let psi0 : Int := (p.hdg.toNat : Int) * 65536
  let d := l.turn p s
  let half := sinCos 16 (psi0 + d / 2)
  let x := d * piQ / 2 ^ 48
  let chord := s * sincQ x (sinCos 17 d).1 / trigOne
  let yaw := psi0 + d
  let now := sinCos 16 yaw
  let speed := v * 655360000 / secTicks
  ⟨p.e * lenOne + mulQ chord half.2, p.n * lenOne + mulQ chord half.1, yaw, mulQ speed now.2, mulQ speed now.1,
    l.turnRate p tau⟩

/-- An angle difference taken the short way round, in 2^−48 turn. -/
def shortWay (d : Int) : Int := (d + 2 ^ 47) % 2 ^ 48 - 2 ^ 47

/-- Between two poses in force at successive boundaries (R341). -/
def between (p q : Pose) (t : Stamp) : Kin :=
  let span := sdiff p.t q.t
  let f := sdiff p.t t
  let lin := fun (x y : Int) => x + (y - x) * f / span
  let h0 : Int := (p.hdg.toNat : Int) * 65536
  let dh := shortWay ((q.hdg.toNat : Int) * 65536 - h0)
  let rate := fun (d : Int) => d * secTicks / span
  ⟨lin (p.e * lenOne) (q.e * lenOne), lin (p.n * lenOne) (q.n * lenOne), h0 + dh * f / span,
    rate ((q.e - p.e) * lenOne), rate ((q.n - p.n) * lenOne), rate dh⟩

/-- The machine at an instant before the stamp of the pose in force: from the pose history, newest first
(R171, R341). -/
def Lim.past (l : Lim) (t : Stamp) : List Pose → Option Kin
  | q :: p :: rest =>
    if sAtOrBefore p.t t && sBefore p.t q.t && sAtOrBefore t q.t then some (between p q t)
    else Lim.past l t (p :: rest)
  | [p] => some (l.predict p (sdiff p.t t))
  | [] => none

/-- The machine frame at instant `t` (R170, R171). (DEDUCED 123 of notes/assumptions) -/
def State.machineAt (s : State) (t : Stamp) : Kin :=
  let p := s.pose
  if sAtOrBefore p.t t then s.lim.predict p (sdiff p.t t)
  else (s.lim.past t (p :: s.ple.hist.map Prod.snd)).getD (s.lim.predict p (sdiff p.t t))

/-- A vector turned by an angle. -/
def turned (yaw x y : Int) : Int × Int :=
  let q := sinCos 16 yaw
  (mulQ x q.2 - mulQ y q.1, mulQ x q.1 + mulQ y q.2)

/-- 2^−48 turn per second to radians per second with 48 fraction bits. -/
def radRate (w : Int) : Int := 2 * w * piQ / 2 ^ 48

/-- A point at `(x, y)` of a frame; lengths with 32 fraction bits. The yaw and its rate stay the frame's. -/
def Kin.at (k : Kin) (x y : Int) : Kin :=
  let r := turned k.yaw x y
  let w := radRate k.w
  { k with e := k.e + r.1, n := k.n + r.2, ve := k.ve - mulQ w r.2, vn := k.vn + mulQ w r.1 }

/-- The age of a frame's source value exceeds MAXAGE at boundary `b`, or it has none (R145, R162). -/
def State.frameStale (s : State) (i : Nat) (b : Stamp) : Bool :=
  let r := s.node i
  if r.tsrc < 2 then false
  else match (s.nodeRt i).srcStamp with
    | none => true
    | some t => decide (((r.maxage * msTicks : Nat) : Int) < sdiff t b)

/-- The relative yaw of a hitch at `t`: between the instants kept, and held outside them (R171). -/
def NodeRt.hitchYaw (x : NodeRt) (t : Stamp) : Int :=
  let per : Int := 80 * msTicks
  let d := max 0 (sdiff x.hitchAt t)
  let k := (d / per).toNat
  let last := x.hitch.getLastD 0
  match x.hitch[k]?, x.hitch[k + 1]? with
  | some a, some b => a + (b - a) * (d % per) / per
  | _, _ => last

/-- The source term S(t) and its rate before the limit, in 2^−48 turn (R142). (DEDUCED 91 of notes/assumptions) -/
def State.sourceTerm (s : State) (i : Nat) (b t : Stamp) : Int × Int :=
  let r := s.node i
  let x := s.nodeRt i
  if r.tsrc = 2 ∨ r.tsrc = 3 then
    let rate := if s.frameStale i b then 0 else x.rate * 65536
    (shortWay (x.src * 65536) + rate * sdiff (x.srcStamp.getD 0) t / secTicks, rate)
  else if r.tsrc = 4 then
    let y := x.hitchYaw t - (r.yaw0 : Int) * 65536
    (shortWay y, (x.hitchYaw (t + subTicks msTicks) - x.hitchYaw t) * 1000)
  else (0, 0)

/-- The source term within ±YAWLIM, its rate, and whether the limit acts (R142). -/
def State.limited (s : State) (i : Nat) (b t : Stamp) : Int × Int × Bool :=
  let q := s.sourceTerm i b t
  let lim : Int := ((s.node i).yawlim : Int) * 2 ^ 32
  if lim = 0 ∨ ((q.1.natAbs : Int) ≤ lim) then (q.1, q.2, false) else (clampI (-lim) lim q.1, 0, true)

/-- The frames below the root, composed one by one (R137, R171). -/
def State.compose (s : State) (b t : Stamp) : List Nat → Kin → Kin
  | [], k => k
  | f :: rest, k =>
    let r := s.node f
    let o := k.at (r.tx * lenOne) (r.ty * lenOne)
    let q := s.limited f b t
    State.compose s b t rest { o with yaw := o.yaw + (r.yaw0 : Int) * 65536 + q.1, w := o.w + q.2.1 }

/-- The reference frame of node `i` at `t`, in the row of boundary `b` (R171). -/
def State.frameAt (s : State) (i : Nat) (b t : Stamp) : Kin :=
  s.compose b t (s.frameChain i).tail (s.machineAt t)

/-- A footprint point of node `i` at `t` (R171). -/
def State.pointAt (s : State) (i : Nat) (x y : Int) (b t : Stamp) : Kin :=
  (s.frameAt i b t).at (x * lenOne) (y * lenOne)

/-! ### The hitch -/

/-- dψ/dt of a hitch frame in 2^−48 turn per second (R144): `h` is the hitch point, ψ the field yaw. (DEDUCED 91 of
notes/assumptions) -/
def hitchRate (h : Kin) (hl : Nat) (psi : Int) : Int :=
  let q := sinCos 16 psi
  let cross := mulQ h.vn q.2 - mulQ h.ve q.1
  if hl = 0 then 0 else cross * 2 ^ 48 * 2 ^ 48 / (2 * piQ * hl * lenOne)

/-- The hitch point: the origin of frame `i` in its parent (R144). -/
def State.hitchPoint (s : State) (i : Nat) (b t : Stamp) : Kin :=
  let r := s.node i
  (s.frameAt r.parent b t).at (r.tx * lenOne) (r.ty * lenOne)

/-- One midpoint step of the field yaw, over `d` sub-ticks from `t` (R171). (DEDUCED 91 of notes/assumptions) -/
def State.hitchStep (s : State) (i : Nat) (b t : Stamp) (d : Nat) (psi : Int) : Int :=
  let hl := (s.node i).hl
  let mid := psi + hitchRate (s.hitchPoint i b t) hl psi * d / (2 * secTicks)
  psi + hitchRate (s.hitchPoint i b (t + subTicks (d / 2))) hl mid * d / secTicks

/-- The field yaw at boundary `b`, carried on from ψ at `t` in steps of at most 20 ms (R144, R171). (DEDUCED 91 of
notes/assumptions) -/
def State.hitchCarry (s : State) (i : Nat) (b : Stamp) : Nat → Stamp → Int → Int
  | 0, _, psi => psi
  | n + 1, t, psi =>
    let d := min (20 * msTicks) (sdiff t b).toNat
    State.hitchCarry s i b n (t + subTicks d) (s.hitchStep i b t d psi)

/-- The relative yaws at instants `j × 80 ms` after `b`, from field yaw ψ on (R171). (DEDUCED 91 of
notes/assumptions) -/
def State.hitchRun (s : State) (i : Nat) (b : Stamp) : Nat → Nat → Int → List Int
  | 0, _, _ => []
  | n + 1, j, psi =>
    let rel := psi - (s.hitchPoint i b (b + subTicks (j * 80 * msTicks))).yaw
    let psi' := (List.range 4).foldl (fun q k =>
      s.hitchStep i b (b + subTicks ((4 * j + k) * 20 * msTicks)) (20 * msTicks) q) psi
    rel :: State.hitchRun s i b n (j + 1) psi'

/-- Evaluates a hitch at boundary `b`: its relative yaw is carried on to `b` from the instant it is known at, and
predicted at 33 instants from there (R144, R145, R171). (DEDUCED 91 of notes/assumptions) -/
def State.evalHitch (s : State) (i : Nat) (b : Stamp) : State :=
  let x := s.nodeRt i
  let t := if x.hitch.isEmpty then b else x.hitchAt
  let psi := (s.hitchPoint i b t).yaw + x.hitch.headD 0
  let psi := s.hitchCarry i b (((sdiff t b).toNat + 20 * msTicks - 1) / (20 * msTicks)) t psi
  s.setNodeRt i { x with hitch := s.hitchRun i b 33 0 psi, hitchAt := b }

/-! ### Instants -/

/-- A stamp of `x / 16` sub-ticks rounded to the nearest TCLK cycle, ties to the later (R182). (UNVERIFIED 82 of
notes/assumptions) -/
def roundCycle (x : Int) : Stamp := BitVec.ofInt 64 ((x + 512) / 1024 * 64)

/-- Sixteenths of a sub-tick after the stamp of the pose at which the arc length `s1` is reached (R182). -/
def timeOfArc (v a s1 : Int) : Int :=
  let q := s1 * 2 * secTicks * secTicks / 655360000
  let vd := v * secTicks
  let fwd := 0 < v ∨ (v = 0 ∧ 0 < a)
  let root : Int := isqrt (vd * vd + a * q).toNat
  let den := if fwd then vd + root else vd - root
  if den = 0 then 0 else 16 * q / den

/-- The instant at which the machine has run arc length `s1` from its pose, kept to an interval (R182). (UNVERIFIED
82 of notes/assumptions) -/
def State.solveArc (s : State) (s1 : Int) (lo hi : Stamp) : Stamp :=
  let p := s.pose
  let t := roundCycle (16 * (p.t.toNat : Int) + timeOfArc p.spd (s.lim.acc p) s1)
  if sBefore t lo then lo else if sBefore hi t then hi else t

/-- The arc length of the prediction at a stamp at or after the pose's; 0 before it. -/
def State.arcTo (s : State) (t : Stamp) : Int :=
  let p := s.pose
  let tau := sdiff p.t t
  if tau < 0 then 0 else arcAt p.spd (s.lim.acc p) tau

end Sys2Proof.Machine
end

