-- ==== Sys2Proof/Machine/Probe.lean ====
section
/-! DEFINITION. The fabric as probes see it, and what a probe reports along a chord (R31, R173 to R178,
R218 to R226). -/

namespace Sys2Proof.Machine

/-! ### DRAM as the row's probes see it -/

/-- A byte of DRAM as the probes of this row see it (R31). (DEDUCED 104 of notes/assumptions) -/
def State.probeByte (s : State) (off : Nat) : Byte :=
  match Tab.get none s.fab.before off with
  | some b => if off < s.variant.dramBytes then b else 0
  | none => s.dramByte off

/-- Bytes of DRAM as the probes of this row see them. -/
def State.probeNat (s : State) (off n : Nat) : Nat := leNat ((List.range n).map (fun i => s.probeByte (off + i)))

/-- A byte of a tile or directory of layer `l` as the probes of this row see it (R31, R234). (DEDUCED 43 of
notes/assumptions) -/
def State.seenByte (s : State) (l off : Nat) : Byte :=
  if s.fab.spoiled.contains l then Config.spoiled s.now.toNat off else s.probeByte off

/-- Bytes of a tile or directory of layer `l` as the probes of this row see them. -/
def State.seenNat (s : State) (l off n : Nat) : Nat := leNat ((List.range n).map (fun i => s.seenByte l (off + i)))

/-- A byte of a tile or directory of layer `l` as it stands now (R234). (DEDUCED 43 of notes/assumptions) -/
def State.layerByte (s : State) (l off : Nat) : Byte :=
  if s.fab.spoiled.contains l then Config.spoiled s.now.toNat off else s.dramByte off

/-! ### The tile cache -/

/-- Lines that the tile cache holds (R235). -/
def cacheLines : Nat := 512

/-- An access brings its line to the front of the cache; a miss takes the place of the least recently used one, which
is written back (R235). (DEDUCED 132 of notes/assumptions) -/
def State.touch (s : State) (off : Nat) : State :=
  let n := off / 4096
  match s.fab.cache.find? (fun x => x.line == n) with
  | some x => { s with fab := { s.fab with cache := x :: s.fab.cache.filter (fun y => y.line != n) } }
  | none =>
    { s with fab := { s.fab with
      cache := (⟨n, []⟩ :: s.fab.cache).take cacheLines, misses := s.fab.misses + 1 } }

/-- An access of a pass: a line that the prefetch has brought in is no miss (R191, R235). (DESIGN CHOICE 85; DEDUCED
132 of notes/assumptions) -/
def State.touchAhead (s : State) (n : Nat) : State :=
  let t := s.touch (4096 * n)
  { t with fab := { t.fab with misses := if Config.prefetched s.draws n then s.fab.misses else t.fab.misses } }

/-- Accesses that FAB_CMISS does not count: those of copies (R235). (DEDUCED 132 of notes/assumptions) -/
def State.touchAll (s : State) (off size : Nat) : State :=
  let t := (List.range (size / 4096)).foldl (fun (s : State) (k : Nat) => s.touch (off + 4096 * k)) s
  { t with fab := { t.fab with misses := s.fab.misses } }

/-- The line at the front keeps what DRAM holds under a byte that is written into it (R235). -/
def State.dirty (s : State) (off : Nat) : State :=
  match s.fab.cache with
  | [] => s
  | x :: t =>
    match Tab.get none x.back off with
    | some _ => s
    | none =>
      { s with fab := { s.fab with cache := { x with back := Tab.put none x.back off (some (s.dramByte off)) } :: t } }

/-- The device fills a line of the cache with zeros: the bytes of DRAM under it that differ stay until it is written back
(R228, R235). -/
def State.zeroLine (s : State) (n : Nat) : State :=
  let s := s.touch (4096 * n)
  let under := s.fab.dram.range (4096 * n) (4096 * n + 4096)
  match s.fab.cache with
  | [] => s
  | x :: t =>
    let back := under.foldl (fun (b : Tab (Option Byte)) (p : Nat × Byte) =>
      match Tab.get none b p.1 with
      | some _ => b
      | none => Tab.put none b p.1 (some p.2)) x.back
    { s with fab := { s.fab with
      cache := { x with back := back } :: t, dram := Tab.clearRange s.fab.dram (4096 * n) (4096 * n + 4096) } }

/-- Every dirty line is written back (R236). -/
def State.writeBack (s : State) : State :=
  { s with fab := { s.fab with cache := s.fab.cache.map (fun (x : CacheLine) => { x with back := [] }) } }

/-- The lines of a released tile are dropped without write-back (R235). (DEDUCED 132 of notes/assumptions) -/
def State.dropLines (s : State) (off size : Nat) : State :=
  let gone := fun (x : CacheLine) => decide (off / 4096 ≤ x.line) && decide (x.line < (off + size) / 4096)
  let t := (s.fab.cache.filter gone).foldl (fun (s : State) (x : CacheLine) =>
    x.back.foldl (fun (s : State) (p : Nat × Option Byte) => s.setDramByte p.1 (p.2.getD 0)) s) s
  { t with fab := { t.fab with cache := t.fab.cache.filter (fun x => !gone x) } }

/-- The misses of the last pass and its trailing write (R235). (DEDUCED 132 of notes/assumptions) -/
def State.showMisses (s : State) : State := s.setLive Reg.FAB_CMISS_CNT (min (2 ^ 32 - 1) s.fab.misses)

/-- The device writes a byte of a tile or directory: probes of this row keep the value before (R31, R235). (DEDUCED
63, 104 of notes/assumptions) -/
def State.fabByte (s : State) (off : Nat) (b : Byte) : State :=
  let s := (s.touch off).dirty off
  let s := match Tab.get none s.fab.before off with
    | some _ => s
    | none => { s with fab := { s.fab with before := Tab.put none s.fab.before off (some (s.dramByte off)) } }
  s.setDramByte off b

/-- Writes a number of bytes of a tile or directory. -/
def State.fabBytes (s : State) (off : Nat) (l : List Byte) : State :=
  (l.foldl (fun (q : State × Nat) b => (q.1.fabByte q.2 b, q.2 + 1)) (s, off)).1

/-! ### Layers, directories and cells -/

/-- The shape of a layer slot (R218, R220, R222). -/
structure Layer where
  en : Bool
  /-- Cell size in mm. -/
  c : Nat
  cols : Nat
  rows : Nat
  tx0 : Int
  ty0 : Int
  /-- DRAM offset of the directory. -/
  dir : Nat
  cover : Bool
  deriving DecidableEq, Repr

/-- Layer slot `l` of a skein. -/
def Image.layer (m : Image) (l : Nat) : Layer :=
  ⟨decide (m.fld Reg.FAB_LCFG_EN l = 1), 2 ^ m.fld Reg.FAB_LCFG_CELL l, m.fld Reg.FAB_LCFG_COLS_M1 l + 1,
    m.fld Reg.FAB_LCFG_ROWS_M1 l + 1, sext 16 (m.fld Reg.FAB_LORG_TX0 l), sext 16 (m.fld Reg.FAB_LORG_TY0 l),
    m.fld Reg.FAB_LDIR_LDIR l * 4096, decide (l < 4)⟩

/-- Layer slot `l` of the ACTIVE skein. -/
def State.layer (s : State) (l : Nat) : Layer := s.skn.act.layer l

/-- The directory entry index of a global tile, inside the extent (R222). -/
def Layer.entry (y : Layer) (ti tj : Int) : Option Nat :=
  let c := ti - y.tx0
  let r := tj - y.ty0
  if 0 ≤ c ∧ c < y.cols ∧ 0 ≤ r ∧ r < y.rows then some (r.toNat * y.cols + c.toNat) else none

/-- A directory entry names an allocated tile: VALID and no reserved bit (R222, R224). (DEDUCED 102 of
notes/assumptions) -/
def entryGood (w : Nat) : Bool := bitOf w 31 && decide (bitsOf w 28 3 = 0)

/-- A directory entry is VALID with a reserved bit set (R224). (DEDUCED 102 of notes/assumptions) -/
def entryBad (w : Nat) : Bool := bitOf w 31 && decide (bitsOf w 28 3 ≠ 0)

/-- The DRAM offset of the tile of an entry (R222); a prescription tile is 128 KiB aligned. -/
def Layer.tileOff (y : Layer) (w : Nat) : Nat :=
  if y.cover then bitsOf w 0 28 * 32768 else bitsOf w 2 26 * 131072

/-- The bytes of a tile (R219). -/
def Layer.tileSize (y : Layer) : Nat := if y.cover then 32768 else 131072

/-- The tile of a cell, and the place of the cell in it (R221). -/
def tileOf (i j : Int) : Int × Int × Nat := (i / 256, j / 256, (256 * (j % 256) + i % 256).toNat)

/-- A cell as probes of the row see it: none where it is UNKNOWN, and the entry met if its reserved bits
fault (R220 to R224). -/
def State.probeCell (s : State) (l : Nat) (i j : Int) : Option Nat × Option Nat :=
  let y := s.layer l
  let (ti, tj, k) := tileOf i j
  match y.entry ti tj with
  | none => (none, none)
  | some e =>
    let w := s.seenNat l (y.dir + 4 * e) 4
    if entryBad w then (none, some e)
    else if !bitOf w 31 then (none, none)
    else if y.cover then
      let b := (s.seenByte l (y.tileOff w + k / 2)).toNat
      (some (if k % 2 = 0 then b % 16 else b / 16), none)
    else (some (s.seenNat l (y.tileOff w + 2 * k) 2), none)

/-- The cache lines that a probe of a cell reaches: that of its directory entry and that of its tile (R235). -/
def State.cellLines (s : State) (l : Nat) (i j : Int) : List Nat :=
  let y := s.layer l
  let (ti, tj, k) := tileOf i j
  match y.entry ti tj with
  | none => []
  | some e =>
    let w := s.seenNat l (y.dir + 4 * e) 4
    let d := (y.dir + 4 * e) / 4096
    if entryGood w then [d, (y.tileOff w + (if y.cover then k / 2 else 2 * k)) / 4096] else [d]

/-- Adds a line to the lines reached, newest first; the newest two stand once. -/
def reachLine (l : List Nat) (n : Nat) : List Nat :=
  match l with
  | a :: b :: t => if a = n then l else if b = n then b :: a :: t else n :: l
  | [a] => if a = n then l else [n, a]
  | [] => [n]

/-- Raises the directory-fault event once for each entry (R224). (DEDUCED 102 of notes/assumptions) -/
def State.dirFault (s : State) (l e : Nat) : State :=
  let key := l * 2 ^ 20 + e
  if s.fab.dirFaults.contains key then s
  else
    let s := { s with fab := { s.fab with dirFaults := key :: s.fab.dirFaults } }
    (s.setLive Reg.FAB_STAT_DIR_FAULT 1).raiseNow 21 key

/-! ### Along a chord -/

/-- Cell classes (R174). -/
def clFree : Nat := 0
/-- COVERED. -/
def clCovered : Nat := 1
/-- EXCL. -/
def clExcl : Nat := 2
/-- UNKNOWN. -/
def clUnknown : Nat := 3

/-- The class of a coverage cell (R174, R225). -/
def classOf : Option Nat → Nat
  | none => clUnknown
  | some 0 => clFree
  | some 15 => clExcl
  | some _ => clCovered

/-- The scale of a fraction of a chord. -/
def fracOne : Int := 2 ^ 48

/-- The fractions of a chord coordinate from `p` to `q` at which it crosses a multiple of `u`, with the step
of the cell index (R220). -/
def crossings (u p q : Int) : List (Int × Int) :=
  if u ≤ 0 then []
  else
    let a := p / u
    let b := q / u
    if a < b then
      (List.range (b - a).toNat).map (fun k => ((((a + 1 + k) * u) - p) * fracOne / (q - p), 1))
    else if b < a then
      (List.range (a - b).toNat).map (fun k => ((((a - k) * u) - p) * fracOne / (q - p), -1))
    else []

/-- Merges two rising lists of crossings, as changes of the column or of the row. -/
def mergeCross : Nat → List (Int × Int) → List (Int × Int) → List (Int × Int × Int)
  | 0, _, _ => []
  | _ + 1, [], ys => ys.map (fun y => (y.1, 0, y.2))
  | _ + 1, xs, [] => xs.map (fun x => (x.1, x.2, 0))
  | n + 1, x :: xs, y :: ys =>
    if x.1 < y.1 then (x.1, x.2, 0) :: mergeCross n xs (y :: ys)
    else if y.1 < x.1 then (y.1, 0, y.2) :: mergeCross n (x :: xs) ys
    else (x.1, x.2, y.2) :: mergeCross n xs ys

/-- The cells a chord passes, each from a fraction on: columns and rows (R174, R220). -/
def cellsOn (u : Int) (p q : Int × Int) : List (Int × Int × Int) :=
  let xs := crossings u p.1 q.1
  let ys := crossings u p.2 q.2
  let start : Int × Int × Int := (0, p.1 / u, p.2 / u)
  start :: ((mergeCross (xs.length + ys.length) xs ys).foldl (fun (acc : List (Int × Int × Int) × Int × Int) c =>
    let i := acc.2.1 + c.2.1
    let j := acc.2.2 + c.2.2
    ((c.1, i, j) :: acc.1, i, j)) ([], start.2.1, start.2.2)).1.reverse

/-- A value along a chord or a line: it holds from each position on. -/
abbrev Runs := List (Int × Nat)

/-- Adds a value from a position on; a run without length gives way to the next. -/
def pushRun (l : Runs) (x : Int) (v : Nat) : Runs :=
  let l := match l with
    | (y, _) :: t => if x ≤ y then t else l
    | [] => []
  match l with
  | (_, w) :: _ => if w = v then l else (x, v) :: l
  | [] => [(x, v)]

/-- The first 8 changes; from the 8th on `over` replaces the value (R175). -/
def truncRuns (ovf : Option Nat) (l : Runs) : Runs × Bool :=
  if l.length ≤ 9 then (l, false)
  else
    let k := l.take 9
    match ovf, k.getLast? with
    | some v, some (x, _) => (k.dropLast ++ [(x, v)], true)
    | _, _ => (k, true)

/-- What the probes of one evaluation have met: truncation, too many discs, directory faults. -/
structure Met where
  /-- The probes that were truncated, and those that met too many discs: each raises its event (R175, R178). -/
  trunc : Nat
  ovf : Nat
  faults : List Nat
  /-- The cache lines reached, newest first (R235). -/
  lines : List Nat
  deriving DecidableEq, Repr

/-- A probe of layer `l` along a chord, in fractions of the chord (R174, R175). (DEDUCED 88 of notes/assumptions) -/
def State.probeChord (s : State) (l : Nat) (value : Option Nat → Nat) (ovf : Option Nat) (p q : Int × Int) (m : Met) :
    Runs × Met :=
  let u : Int := 10 * (s.layer l).c * lenOne
  let r := (cellsOn u p q).foldl (fun (acc : Runs × List Nat × List Nat) c =>
    let v := s.probeCell l c.2.1 c.2.2
    (pushRun acc.1 c.1 (value v.1), (match v.2 with | some e => e :: acc.2.1 | none => acc.2.1),
      (s.cellLines l c.2.1 c.2.2).foldl reachLine acc.2.2)) ([], m.faults, m.lines)
  let t := truncRuns ovf r.1.reverse
  (t.1, { m with trunc := m.trunc + t.2.toNat, faults := r.2.1, lines := r.2.2 })

/-- A target disc in the field frame: centre and radius as lengths (R178). -/
abbrev Disc := Int × Int × Int

/-- The part of a chord inside a disc, as fractions of the chord (R178). -/
def discOn (p q : Int × Int) (d : Disc) : Option (Int × Int) :=
  let dx := q.1 - p.1
  let dy := q.2 - p.2
  let ex := d.1 - p.1
  let ey := d.2.1 - p.2
  let l2 := dx * dx + dy * dy
  let r2 := d.2.2 * d.2.2
  if l2 = 0 then (if ex * ex + ey * ey ≤ r2 then some (0, fracOne) else none)
  else
    let b := ex * dx + ey * dy
    let disc := b * b - l2 * (ex * ex + ey * ey - r2)
    if disc < 0 then none
    else
      let root : Int := isqrt disc.toNat
      let f0 := (b - root) * fracOne / l2
      let f1 := (b + root) * fracOne / l2
      if f1 < 0 ∨ fracOne < f0 then none else some (max 0 f0, min fracOne f1)

/-- Joins rising intervals into runs of 0 and 1 from 0 on. -/
def discRuns (l : List (Int × Int)) : Runs :=
  let l := sortBy (fun (a b : Int × Int) => decide (a.1 ≤ b.1)) l
  let r := l.foldl (fun (acc : Runs × Int) x =>
    if x.1 ≤ acc.2 then (acc.1, max acc.2 x.2)
    else (pushRun (pushRun acc.1 acc.2 0) x.1 1, x.2)) ([(0, 0)], 0)
  match l with
  | [] => [(0, 0)]
  | x :: _ =>
    let runs := if x.1 ≤ 0 then
        (l.foldl (fun (acc : Runs × Int) y =>
          if y.1 ≤ acc.2 then (acc.1, max acc.2 y.2)
          else (pushRun (pushRun acc.1 acc.2 0) y.1 1, y.2)) ([(0, 1)], x.2))
      else r
    (if runs.2 < fracOne then pushRun runs.1 runs.2 0 else runs.1).reverse

/-- The target test of a coverage probe: 1 over a target (R178). (DEDUCED 88 of notes/assumptions) -/
def targetChord (ds : List Disc) (p q : Int × Int) (m : Met) : Runs × Met :=
  let l := ds.filterMap (fun d => discOn p q d)
  if 8 < l.length then ([(0, 1)], { m with ovf := m.ovf + 1 }) else (discRuns l, m)

/-! ### Along the whole line -/

/-- The knots of a line: position of the point at each, and the arc length of the machine there. -/
structure Knot where
  t : Stamp
  pos : Int × Int
  arc : Int
  deriving DecidableEq, Repr

/-- A line across the span: for each segment its start along the line, its length, and its end knots. -/
def segments : Int → List Knot → List (Int × Int × Knot × Knot)
  | _, [] => []
  | _, [_] => []
  | from_, a :: b :: rest =>
    let still := decide (a.arc = b.arc)
    let dx := b.pos.1 - a.pos.1
    let dy := b.pos.2 - a.pos.2
    let len : Int := if still then 0 else isqrt (dx * dx + dy * dy).toNat
    (from_, len, a, b) :: segments (from_ + len) (b :: rest)

/-- One line probed over all its segments: the runs where its point moves, its length, each time in which the point
stands still with the value of the one cell it stands in, and what the probes have met (R173, R174). -/
structure Line where
  runs : Runs
  total : Int
  stills : List (Stamp × Stamp × Nat)
  met : Met
  deriving DecidableEq, Repr

/-- Probes one line over all its segments (R173, R174). -/
def lineRuns (probe : Int × Int → Int × Int → Met → Runs × Met) (segs : List (Int × Int × Knot × Knot)) (m : Met) : Line :=
  let r := segs.foldl (fun (acc : Line) g =>
    let a := g.2.2.1
    let b := g.2.2.2
    if a.arc = b.arc then
      let o := probe a.pos a.pos acc.met
      { acc with stills := acc.stills ++ [(a.t, b.t, (o.1.headD (0, 0)).2)], met := o.2 }
    else
      let o := probe a.pos b.pos acc.met
      { acc with
        runs := o.1.foldl (fun l x => pushRun l (g.1 + g.2.1 * x.1 / fracOne) x.2) acc.runs
        total := g.1 + g.2.1, met := o.2 }) ⟨[], 0, [], m⟩
  { r with runs := r.runs.reverse }

/-- Narrows the runs of class `c` by `h` at each end inside the line; what they give up goes to the
neighbour on that side, and a run that vanishes between two is shared at its middle (R176). `st` is where the
first run now starts. (DEDUCED 88 of notes/assumptions) -/
def narrow (c : Nat) (h total : Int) : Bool → Int → Runs → Runs
  | _, _, [] => []
  | first, st, (a, v) :: t =>
    let b := match t with | (x, _) :: _ => x | [] => total
    let last := t.isEmpty
    if v = c ∧ (first && last) = false then
      let a' := if first then st else a + h
      let b' := if last then total else b - h
      if b' ≤ a' then narrow c h total false (if first then st else (a + b) / 2) t
      else (a', v) :: narrow c h total false b' t
    else (st, v) :: narrow c h total false b t

/-- The intervals of class `c` widened by `h` at each end inside the line (R176). (DEDUCED 88 of notes/assumptions)
-/
def widened (c : Nat) (h total : Int) : Bool → Runs → List (Int × Int)
  | _, [] => []
  | first, (a, v) :: t =>
    let b := match t with | (x, _) :: _ => x | [] => total
    let rest := widened c h total false t
    if v = c then (if first then a else a - h, if t.isEmpty then b + 1 else b + h) :: rest else rest

/-- The value of runs at a position. -/
def runAt (l : Runs) (x : Int) : Nat := l.foldl (fun v r => if r.1 ≤ x then r.2 else v) ((l.headD (0, 0)).2)

/-- Runs from cut positions and a value at each. -/
def fromCuts (cuts : List Int) (f : Int → Nat) : Runs :=
  ((sortBy (fun (a b : Int) => decide (a ≤ b)) cuts).foldl (fun l x => pushRun l x (f x)) []).reverse

/-- A line of coverage classes adjusted for the footprint length: COVERED narrowed, EXCL widened (R176). (DEDUCED 88
of notes/assumptions) -/
def adjustLine (h total : Int) (l : Runs) : Runs :=
  if total ≤ 0 then l
  else
    let base := narrow clCovered h total true 0 l
    let wide := widened clExcl h total true l
    let cuts := (base.map Prod.fst) ++ wide.flatMap (fun w => [max 0 w.1, w.2])
    fromCuts (0 :: cuts.filter (fun x => decide (0 ≤ x) && decide (x < total)))
      (fun x => if wide.any (fun w => decide (w.1 ≤ x) && decide (x < w.2)) then clExcl else runAt base x)

/-- A line of target tests adjusted for the footprint length (R176, R178). (DEDUCED 88 of notes/assumptions) -/
def adjustTarget (h total : Int) (l : Runs) : Runs :=
  if total ≤ 0 then l
  else
    let wide := widened 1 h total true l
    let cuts := wide.flatMap (fun w => [max 0 w.1, w.2])
    fromCuts (0 :: cuts.filter (fun x => decide (0 ≤ x) && decide (x < total)))
      (fun x => if wide.any (fun w => decide (w.1 ≤ x) && decide (x < w.2)) then 1 else 0)

/-- The instant at which a point reaches a position of its line (R173, R182). -/
def State.timeOnLine (s : State) (segs : List (Int × Int × Knot × Knot)) (x : Int) : Stamp :=
  match (segs.filter (fun g => decide (g.1 ≤ x) && decide (0 < g.2.1))).getLast? with
  | some (from_, len, a, b) =>
    s.solveArc (a.arc + (b.arc - a.arc) * (min len (x - from_)) / len) a.t b.t
  | none => match segs with | g :: _ => g.2.2.1.t | [] => 0

/-- A value in time over a span: it holds from each stamp on. -/
abbrev Steps := List (Stamp × Nat)

/-- The value of steps at a stamp: the last whose stamp is not after it, else the first. -/
def stepAt (l : Steps) (t : Stamp) : Nat :=
  l.foldl (fun v r => if sAtOrBefore r.1 t then r.2 else v) ((l.headD (0, 0)).2)

/-- Steps that take one value from a stamp to another, whatever they held there: a time in which the point of a line
stands still and no run is moved. At the end of the span, `last`, they keep it (R173, R176). (DEDUCED 88 of
notes/assumptions) -/
def holdStill (last : Stamp) (l : Steps) (x : Stamp × Stamp × Nat) : Steps :=
  l.filter (fun r => sBefore r.1 x.1) ++ (x.1, x.2.2) ::
    (if x.2.1 = last then [] else (x.2.1, stepAt l x.2.1) :: l.filter (fun r => sBefore x.2.1 r.1))

/-- Steps without those that change nothing. -/
def joinSteps (l : Steps) : Steps :=
  l.foldr (fun x acc => match acc with | y :: t => if x.2 = y.2 then x :: t else x :: acc | [] => [x]) []

/-- A line with adjusted runs as steps in time; while its point stands still the cell it stands in counts (R173,
R176). (DEDUCED 88 of notes/assumptions) -/
def State.lineSteps (s : State) (segs : List (Int × Int × Knot × Knot)) (q : Line) (l : Runs) : Steps :=
  let start := match segs with | g :: _ => g.2.2.1.t | [] => 0
  let last := match segs.getLast? with | some g => g.2.2.2.t | none => 0
  let moving := match l with
    | [] => []
    | (_, v) :: t => (start, v) :: t.map (fun r => (s.timeOnLine segs r.1, r.2))
  joinSteps (q.stills.foldl (holdStill last) moving)

end Sys2Proof.Machine
end

