-- ==== Sys2Proof/Machine/Decide.lean ====
section
/-! DEFINITION. What the placement engine decides for one endpoint node: the lines it probes, the decision at
each instant, the crossings, the candidate edges and the rate setpoint (R172 to R187, R206 to R208). -/

namespace Sys2Proof.Machine

/-- The state of a timeline at a stamp. -/
def Timeline.on (l : Timeline) (t : Stamp) : Bool :=
  l.changes.foldl (fun v c => if sAtOrBefore c.1 t then c.2 else v) l.init

/-- The first candidate's stamp rounded to the nearest TCLK cycle, ties to the later. -/
def nearCycle (t : Stamp) : Stamp := roundCycle (16 * (t.toNat : Int))

/-- What the probes of an evaluation show over its span: the coverage class of each lateral line, the target
test of each, and the prescription along the centre line (R173, R174, R178). -/
structure Sight where
  covers : List Steps
  targets : List Steps
  rx : Option Steps
  knots : List Stamp
  met : Met
  deriving DecidableEq, Repr

/-- The confirmed target tracks held, enlarged by PLE_TGT.PAD (R178, R354). -/
def State.discs (s : State) : List Disc :=
  let w := fun i j => (Tab.get 0 s.fge.tracks (8 * i + j)).toNat
  let is := ((s.fge.tracks.map (fun p => p.1 / 8)).foldl (fun (l : List Nat) k => if l.head? = some k then l else k :: l) []).reverse
  is.filterMap (fun i =>
    if bitsOf (w i 2) 16 8 = 2 then
      some (sext 32 (w i 0) * lenOne, sext 32 (w i 1) * lenOne,
        ((bitsOf (w i 2) 0 16 + s.conf Reg.PLE_TGT_PAD : Nat) : Int) * 10 * lenOne)
    else none)

/-- The lateral positions of the lines, with 32 fraction bits (R173). -/
def NodeRec.lines (r : NodeRec) (kl : Nat) : List Int :=
  (List.range kl).map (fun i =>
    if kl ≤ 1 then r.fy * lenOne else r.fy * lenOne - r.fw * 5 * lenOne + i * r.fw * 10 * lenOne / ((kl : Int) - 1))

/-- Kl (R173). -/
def State.lineCount (s : State) (r : NodeRec) : Nat :=
  let c := (s.layer r.cov).c
  min 16 ((r.fw + c - 1) / c + 1)

/-- The knots of a span (R173). -/
def knotStamps (lo hi : Stamp) (ks : Nat) : List Stamp :=
  let d := sdiff lo hi
  (List.range (ks + 1)).map (fun k => roundCycle (16 * (lo.toNat : Int) + 16 * k * d / ks))

/-- Probes the span of node `i` (R173 to R178). -/
def State.look (s : State) (i : Nat) (b : Stamp) (lo hi : Stamp) : Sight :=
  let r := s.node i
  let kl := s.lineCount r
  let rx := r.rule ruRx
  let ks := min 16 (64 / (kl + rx.toNat))
  let ts := knotStamps lo hi ks
  let kins := ts.map (fun t => (t, s.frameAt i b t, s.arcTo t))
  let segs := fun (y : Int) => segments 0 (kins.map (fun (q : Stamp × Kin × Int) =>
    let p := q.2.1.at (r.fx * lenOne) y
    ⟨q.1, (p.e, p.n), q.2.2⟩))
  let ds := s.discs
  let h : Int := (r.fl : Int) * 5 * lenOne
  let m0 : Met := ⟨0, 0, [], []⟩
  let one := fun (acc : List Steps × List Steps × Met) (y : Int) =>
    let g := segs y
    let c := lineRuns (s.probeChord r.cov classOf (some clExcl)) g acc.2.2
    let t := lineRuns (targetChord ds) g c.met
    (s.lineSteps g c (adjustLine h c.total c.runs) :: acc.1,
      s.lineSteps g t (adjustTarget h t.total t.runs) :: acc.2.1, t.met)
  let o := (r.lines kl).foldl one ([], [], m0)
  if rx then
    let g := segs (r.fy * lenOne)
    let q := lineRuns (s.probeChord (4 + r.rx) (fun v => v.getD r.rateFix) none) g { o.2.2 with faults := [] }
    let s1 := (o.2.2.faults.map (fun e => r.cov * 2 ^ 20 + e)) ++ (q.met.faults.map (fun e => (4 + r.rx) * 2 ^ 20 + e))
    ⟨o.1.reverse, o.2.1.reverse, some (s.lineSteps g q q.runs), ts, { q.met with faults := s1 }⟩
  else ⟨o.1.reverse, o.2.1.reverse, none, ts, { o.2.2 with faults := o.2.2.faults.map (fun e => r.cov * 2 ^ 20 + e) }⟩

/-! ### The decision -/

/-- excl(t) (R177, R179). -/
def State.exclAt (s : State) (r : NodeRec) (v : Sight) (t : Stamp) : Bool :=
  r.rule ruBoundary && v.covers.any (fun l =>
    let c := stepAt l t
    decide (c = clExcl) || (decide (c = clUnknown) && decide (s.conf Reg.PLE_CFG_UNK_EXCL = 1)))

/-- share(t) in units of 1/256 (R177, R179). -/
def shareAt (r : NodeRec) (v : Sight) (t : Stamp) : Nat :=
  let c := (v.covers.filter (fun l =>
    let c := stepAt l t
    decide (c = clCovered) || (decide (c = clUnknown) && r.rule ruUnknown))).length
  if v.covers.length = 0 then 0 else 256 * c / v.covers.length

/-- tgt(t) (R179). -/
def tgtAt (v : Sight) (t : Stamp) : Bool := v.targets.any (fun l => decide (stepAt l t = 1))

/-- Down(t) of a node with a footprint (R180). -/
def downAt (r : NodeRec) (v : Sight) (t : Stamp) : Bool :=
  (!r.rule ruTarget || tgtAt v t) && (!r.rule ruOverlap || decide (shareAt r v t < max r.ovlThr 1))

/-- The speed is below STOP_V: `v` a velocity squared with lengths per second (R208). (DEDUCED 89 of
notes/assumptions) -/
def State.belowStop (s : State) (v2 : Int) : Bool :=
  let lim : Int := (s.conf Reg.PLE_STOP_STOP_V : Int) * 655360000
  decide (v2 < lim * lim)

/-- The sense in which R208 takes speeds and components: forwards, and backwards while a reversing machine is
placed. (DEDUCED 89 of notes/assumptions) -/
def State.travel (s : State) : Int := if s.live Reg.PLE_MOTION_STATE = 3 then -1 else 1

/-- The sharp-turn case of R208. (DEDUCED 89 of notes/assumptions) -/
def State.sharp (s : State) (i : Nat) (b t : Stamp) : Bool :=
  let r := s.node i
  let k := s.pointAt i r.fx r.fy b t
  let q := sinCos 16 (s.machineAt t).yaw
  let along := mulQ k.ve q.2 + mulQ k.vn q.1
  s.belowStop (k.ve * k.ve + k.vn * k.vn) || decide (s.travel * along ≤ 0)

/-- Order 2 of R180: the node is forced off at `t` (R208). -/
def State.forcedOff (s : State) (i : Nat) (b t : Stamp) : Bool :=
  let st := s.live Reg.PLE_MOTION_STATE
  let p := s.pose
  let v := speedAt p.spd (s.lim.acc p) (sdiff p.t t)
  decide (st = 2) || (decide (st = 3) && decide (s.conf Reg.PLE_STOP_REV = 0)) ||
    (decide (s.conf Reg.PLE_STOP_PRED_CUT = 1) && decide (s.travel * v < s.conf Reg.PLE_STOP_STOP_V * secTicks)) ||
    (decide (s.conf Reg.PLE_STOP_TURN_CUT = 1) && s.sharp i b t)

/-- The instant at which the predicted speed passes STOP_V (R182, R208). (DEDUCED 89 of notes/assumptions) -/
def State.stopInstants (s : State) : List Stamp :=
  let p := s.pose
  let a := s.lim.acc p
  let v : Int := s.conf Reg.PLE_STOP_STOP_V
  if a = 0 then [] else [roundCycle (16 * (p.t.toNat : Int) + 16 * (s.travel * v - p.spd) * secTicks / a)]

/-- The cycle in `(lo, hi]` at which a condition known to differ at both ends changes, by halving. -/
def changeCycle (f : Stamp → Bool) (v : Bool) : Nat → Stamp → Stamp → Stamp
  | 0, _, hi => hi
  | n + 1, lo, hi =>
    let d := (sdiff lo hi).toNat / 128 * 64
    if d = 0 then hi
    else
      let mid := lo + subTicks d
      if f mid = v then changeCycle f v n mid hi else changeCycle f v n lo mid

/-- The instants at which a condition sampled at the knots changes. -/
def sampled (f : Stamp → Bool) : List Stamp → List Stamp
  | a :: b :: rest =>
    if f a = f b then sampled f (b :: rest) else changeCycle f (f a) 40 a b :: sampled f (b :: rest)
  | _ => []

/-- What D of a node rests on at one evaluation. -/
structure Ground where
  i : Nat
  b : Stamp
  lo : Stamp
  hi : Stamp
  sight : Sight
  /-- The members' timelines of a composing group. -/
  members : List Timeline
  /-- The timeline of an OWN group above the node. -/
  owner : Option Timeline
  deriving DecidableEq, Repr

/-- Down combined with the external state (R153, R180). -/
def combined (r : NodeRec) (x : NodeRt) (t : Stamp) (down : Bool) : Bool :=
  match x.extFor t with
  | none => down
  | some e => if r.rule ruExtAnd then down && e else e

/-- D at `t`, and whether order 2 or 3 forces it off (R180). -/
def State.decisionAt (s : State) (g : Ground) (t : Stamp) : Bool × Bool :=
  let r := s.node g.i
  let x := s.nodeRt g.i
  if r.composing then
    let n := (g.members.filter (fun l => l.on t)).length
    let down :=
      if r.compose = 0 then decide (1 ≤ n)
      else if r.compose = 1 then decide (n = g.members.length)
      else decide (r.k ≤ n)
    match g.owner with
    | some l => (l.on t && (!r.gateAnd || combined r x t down), false)
    | none => (combined r x t down, false)
  else if s.forcedOff g.i g.b t then (false, true)
  else if s.exclAt r g.sight t then (false, true)
  else
    let dx := combined r x t (downAt r g.sight t)
    match g.owner with
    | some l => (l.on t && (!r.gateAnd || dx), false)
    | none => (dx, false)

/-- The instants inside the span at which D can change; the end of the span is inside it, so that the pass of a row places
an edge whose lifeline is the next boundary (R153, R182). (DEDUCED 89 of notes/assumptions) -/
def State.breaks (s : State) (g : Ground) : List Stamp :=
  let r := s.node g.i
  let x := s.nodeRt g.i
  let own := (g.owner.map (fun l => l.changes.map Prod.fst)).getD []
  let l :=
    if r.composing then g.members.flatMap (fun m => m.changes.map Prod.fst)
    else
      (g.sight.covers ++ g.sight.targets).flatMap (fun (l : Steps) => l.tail.map Prod.fst) ++ s.stopInstants ++
        (if s.conf Reg.PLE_STOP_TURN_CUT = 1 then sampled (fun t => s.sharp g.i g.b t) g.sight.knots else [])
  let l := (x.exts.map (fun p => nearCycle p.1) ++ own ++ l).filter (fun t => sBefore g.lo t && sAtOrBefore t g.hi)
  (sortBy sAtOrBefore l).foldr (fun t acc => if acc.head? = some t then acc else t :: acc) []

/-- A run of D: from a stamp on, its state, and whether any part was forced off. -/
abbrev DRun := Stamp × Bool × Bool

/-- Joins neighbouring runs of one state. -/
def joinRuns : List DRun → List DRun
  | (t, v, f) :: (t', v', f') :: rest =>
    match joinRuns ((t', v', f') :: rest) with
    | (u, w, h) :: more => if v = w then (t, v, f || h) :: more else (t, v, f) :: (u, w, h) :: more
    | [] => [(t, v, f)]
  | l => l

/-- The runs of D over the span: each interval between two instants takes D at its middle (R180). -/
def State.decisionRuns (s : State) (g : Ground) : List DRun :=
  let ts := g.lo :: s.breaks g
  let ends := ts.tail ++ [g.hi]
  joinRuns ((ts.zip ends).map (fun p =>
    let d := s.decisionAt g (p.1 + subTicks ((sdiff p.1 p.2).toNat / 2))
    (p.1, d.1, d.2)))

/-- Turns the runs of state `v` that are too short, and touch no end of the span, into the other state (R181);
an off run with a forced part stays. (DEDUCED 90 of notes/assumptions) -/
def dropShort (v : Bool) (limit : Nat) (hi : Stamp) : Bool → List DRun → List DRun
  | _, [] => []
  | first, (t, w, f) :: rest =>
    let e := match rest with | (u, _) :: _ => u | [] => hi
    let short := decide ((sdiff t e).toNat < limit) && !first && decide (e ≠ hi) && decide (w = v) && !(f && !v)
    (t, if short then !w else w, f) :: dropShort v limit hi false rest

/-- The runs of D after the removal of short ones: on runs first, then off runs (R181). (DEDUCED 90 of
notes/assumptions) -/
def State.keptRuns (s : State) (g : Ground) : List DRun :=
  let ty := (s.node g.i).etype
  let l := s.decisionRuns g
  let limit := if ty ≤ 4 then s.conf Reg.PLE_MINRUN_MINRUN ty * 256000 else 0
  joinRuns (dropShort false limit g.hi true (joinRuns (dropShort true limit g.hi true l)))

/-! ### Rates and candidates -/

/-- k as stored: UQ4.12, rounded and clamped (R186). (DESIGN CHOICE 84 of notes/assumptions) -/
def State.turnFactor (s : State) (i : Nat) (b t : Stamp) : Nat :=
  let r := s.node i
  let m := s.machineAt t
  let k := s.pointAt i r.fx r.fy b t
  let ref := m.ve * m.ve + m.vn * m.vn
  let vmin : Int := s.lim.vmin * 655360000
  if ref < vmin * vmin then 4096
  else
    let q := ((k.ve * k.ve + k.vn * k.vn) * 4 * 2 ^ 24 / ref).toNat
    let v := if ref = 0 then (Config.turnAtRest i).toNat else min 0xFFFF ((isqrt q + 1) / 2)
    min (s.conf Reg.PLE_TURN_KMAX) (max (s.conf Reg.PLE_TURN_KMIN) v)

/-- The rate the footprint needs at `t` (R186). (DEDUCED 135 of notes/assumptions) -/
def State.rateAt (s : State) (g : Ground) (t : Stamp) : Nat :=
  let rx := match g.sight.rx with | some l => stepAt l t | none => (s.node g.i).rateFix
  min 0xFFFF ((2 * rx * s.turnFactor g.i g.b t + 4096) / 8192)

/-- An edge value (R141). -/
def edgeValue (on : Bool) (rate : Nat) : BitVec 24 := BitVec.ofNat 24 (if on then 2 ^ 23 + rate % 2 ^ 16 else 0)

/-- The STATE bit of an edge value. -/
def valueOn (v : BitVec 24) : Bool := bitOf v.toNat 23

/-- The value of D at `t` as an edge value; a slice only switches (R141, R183). -/
def State.valueAt (s : State) (g : Ground) (on : Bool) (t : Stamp) : BitVec 24 :=
  edgeValue on (if (s.node g.i).switching then 0 else s.rateAt g t)

/-- A candidate: target, value, and whether it is a rate edge (R183). -/
abbrev Cand := Stamp × BitVec 24 × Bool

/-- The candidates of the kept runs, in order of target (R183); `carried` is the rate last carried. -/
def State.candidates (s : State) (g : Ground) (runs : List DRun) (carried : Nat) : List Cand :=
  let r := s.node g.i
  let marks : List (Stamp × Option Bool) := runs.tail.map (fun (x : DRun) => (x.1, some x.2.1))
  let rates : List (Stamp × Option Bool) :=
    if r.switching then [] else ((g.sight.rx.getD []).tail.map (fun (x : Stamp × Nat) => (x.1, none))).filter
      (fun x => sBefore g.lo x.1 && sBefore x.1 g.hi && !(marks.any (fun y => decide (y.1 = x.1))))
  let all := sortBy (fun (a b : Stamp × Option Bool) => sAtOrBefore a.1 b.1) (marks ++ rates)
  (all.foldl (fun (acc : List Cand × Bool × Nat) x =>
    match x.2 with
    | some on =>
      let v := s.valueAt g on x.1
      ((x.1, v, false) :: acc.1, on, if on then v.toNat % 2 ^ 16 else acc.2.2)
    | none =>
      let rate := s.rateAt g x.1
      if acc.2.1 ∧ s.conf Reg.PLE_RX_DEADBAND < ((rate : Int) - acc.2.2).natAbs then
        ((x.1, edgeValue true rate, true) :: acc.1, acc.2.1, rate)
      else acc) ([], (runs.headD (0, false, false)).2.1, carried)).1.reverse

/-- Drops the latest rate edges until at most `n` candidates are left; the list is latest first. -/
def dropRates : Nat → List Cand → List Cand
  | _, [] => []
  | 0, l => l
  | k + 1, c :: rest => if c.2.2 then dropRates k rest else c :: dropRates (k + 1) rest

/-- At most 16 candidates: rate edges go first, then the span ends before the 17th state edge (R184). Answers
the candidates, the end of the span, and whether any was dropped. -/
def capCands (hi : Stamp) (l : List Cand) : List Cand × Stamp × Bool :=
  if l.length ≤ 16 then (l, hi, false)
  else
    let k := (dropRates (l.length - 16) l.reverse).reverse
    if k.length ≤ 16 then (k, hi, true)
    else match k[16]? with
      | some c => (k.take 16, c.1, true)
      | none => (k, hi, true)

end Sys2Proof.Machine
end

