-- ==== Sys2Proof/Machine/Slices.lean ====
section
/-! DEFINITION. The drive slices: profiles and phases, the sharing of a bank, the off-timer and the
maximum on-time, the feedback detectors, and the faults of slices and banks (R263 to R288, R440). -/

namespace Sys2Proof.Machine

/-- The runtime state of slice `n`. -/
def State.slice (s : State) (n : Nat) : Slice := Tab.get Slice.fresh s.dsl.slices n

/-- Replaces the runtime state of slice `n`. -/
def State.setSlice (s : State) (n : Nat) (x : Slice) : State :=
  { s with dsl := { s.dsl with slices := Tab.put Slice.fresh s.dsl.slices n x } }

/-- The codes of DSL_SSTAT.STATE (R274). -/
def slIdle : Nat := 0
/-- DEFER (R274). -/
def slDefer : Nat := 1
/-- PHASE (R274). -/
def slPhase : Nat := 2
/-- WAIT (R274). -/
def slWait : Nat := 3
/-- DECAY (R274). -/
def slDecay : Nat := 4
/-- OFFMIN (R274). -/
def slOffmin : Nat := 5
/-- FAULT (R274). -/
def slFault : Nat := 6
/-- HELD (R274). -/
def slHeld : Nat := 7

/-- Slice `n` belongs to a pair (R265). -/
def State.paired (s : State) (n : Nat) : Bool := bitOf (s.conf Reg.DSL_BCFG_PAIR (n / 6)) (n % 6 / 2)

/-- The slice whose profile governs slice `n`: the lower one of a pair (R265). -/
def State.slLead (s : State) (n : Nat) : Nat := if s.paired n then n / 2 * 2 else n

/-- The state of slice `n` (R274). -/
def State.slSt (s : State) (n : Nat) : Nat := s.live Reg.DSL_SSTAT_STATE n

/-- Sets the state of a leading slice and of the other slice of its pair; a slice of the pair in FAULT
stays there until its own clear (R265, R287). (DEDUCED 110 of notes/assumptions) -/
def State.setSlSt (s : State) (n v : Nat) : State :=
  let s := s.setLive Reg.DSL_SSTAT_STATE v n
  if s.paired n && decide (s.slSt (n + 1) ≠ slFault ∨ v = slHeld) then s.setLive Reg.DSL_SSTAT_STATE v (n + 1) else s

/-- The leading slices of bank `b`. -/
def State.leads (s : State) (b : Nat) : List Nat :=
  ((List.range 6).map (fun i => 6 * b + i)).filter (fun n => s.slLead n == n)

/-- The slice takes part in bank arbitration: its coil is fed from the bank rail (R264). -/
def State.arbitrates (s : State) (n : Nat) : Bool := bitOf (s.conf Reg.DSL_BCFG_HSUSE (n / 6)) (n % 6)

/-- The profile of slice `n` (R267). -/
def State.prof (s : State) (n : Nat) : Nat := s.conf Reg.DSL_SCFG_PROF n

/-- The phase that slice `n` runs or awaits. -/
def State.phase (s : State) (n : Nat) : Nat := s.live Reg.DSL_SSTAT_PHASE n

/-- The awaited or running phase uses the boost supply (R267). -/
def State.isBoost (s : State) (n : Nat) : Bool := s.conf Reg.DSL_PHA_SUPPLY (s.prof n) (s.phase n) == 1

/-- The awaited or running phase decays SLOW (R269). -/
def State.isSlow (s : State) (n : Nat) : Bool := s.conf Reg.DSL_PHA_DECAY (s.prof n) (s.phase n) == 2

/-- Two phases that R277 does not let run together. (DEDUCED 110 of notes/assumptions) -/
def State.conflicts (s : State) (n m : Nat) : Bool := s.isSlow n || s.isSlow m || (s.isBoost n && s.isBoost m)

/-- R277 lets the awaited phase of slice `n` start. -/
def State.compatible (s : State) (n : Nat) : Bool :=
  (s.leads (n / 6)).all (fun m => m == n || s.slSt m != slPhase || !s.arbitrates m || !s.conflicts n m)

/-- Slice `m` waits for a grant. -/
def State.waits (s : State) (m : Nat) : Bool := (s.slSt m == slDefer || s.slSt m == slWait) && (s.slice m).request.isSome

/-- A waiting request of the bank is ahead of one of slice `n` with request stamp `rq`, and conflicts
with it (R278). -/
def State.blocked (s : State) (n : Nat) (rq : Stamp) : Bool :=
  (s.leads (n / 6)).any (fun m =>
    m != n && s.waits m && s.conflicts n m &&
    (match (s.slice m).request with
      | some r => sBefore r rq || (decide (r = rq) && decide (m < n))
      | none => false))

/-- The instant at which a grant made at `t` takes effect: 500 ns after the release of a BOOST or SLOW
phase that it follows (R278). (DEDUCED 110 of notes/assumptions) -/
def State.handOver (s : State) (n : Nat) (t : Stamp) : Stamp :=
  match Tab.get none s.dsl.released (n / 6) with
  | some (r, m, slow) =>
    if m ≠ n ∧ (slow || s.isSlow n || s.isBoost n) = true then sMax t (r + 12800) else t
  | none => t

/-- The chop switch conducts at `t`: one that minimum times hold off is on from a later stamp on (R268). -/
def Slice.chopOn (x : Slice) (t : Stamp) : Bool := x.chop && sAtOrBefore x.chopAt t

/-- The low-side conducts at `t` (R268). -/
def Slice.lowOn (x : Slice) (t : Stamp) : Bool := x.low && (x.chopHigh || sAtOrBefore x.chopAt t)

/-- The recirculation switch conducts at `t` (R268, R269). -/
def Slice.recircOn (x : Slice) (t : Stamp) : Bool := x.recirc && !x.lowOn t

/-- Recomputes DSL_BSTAT of bank `b` from its slices (R277, R281). (DEDUCED 110 of notes/assumptions) -/
def State.bankShow (s : State) (b : Nat) : State :=
  let ls := (s.leads b).filter (fun n => s.arbitrates n && s.slSt n == slPhase)
  let own := fun (q : Nat → Bool) => match ls.find? q with | some n => n % 6 | none => 7
  let onHigh := fun n => !(s.isSlow n) || (s.slice n).chopOn s.now
  let s := s.setLive Reg.DSL_BSTAT_BOOST_OWN (own s.isBoost) b
  let s := s.setLive Reg.DSL_BSTAT_SLOW_OWN (own s.isSlow) b
  let s := s.setLive Reg.DSL_BSTAT_WAITING ((s.leads b).filter s.waits).length b
  let s := s.setLive Reg.DSL_BSTAT_KWIN ((s.leads b).filter (fun n => s.flag Reg.DSL_SSTAT_KWIN n)).length b
  let s := s.setLive Reg.DSL_BSTAT_BOOST_ON (ls.any (fun n => s.isBoost n && onHigh n)).toNat b
  let s := s.setLive Reg.DSL_BSTAT_PRI_ON (ls.any (fun n => !s.isBoost n && onHigh n)).toNat b
  s.setLive Reg.DSL_BSTAT_HELD (s.dsl.faulted.contains b || !(Tab.get [] s.dsl.trips b).isEmpty).toNat b

/-- The release of a running BOOST or SLOW phase (R278). -/
def State.releasePhase (s : State) (n : Nat) (t : Stamp) : State :=
  if s.slSt n == slPhase && s.arbitrates n && (s.isBoost n || s.isSlow n) then
    { s with dsl := { s.dsl with released := Tab.put none s.dsl.released (n / 6) (some (t, n, s.isSlow n)) } }
  else s

/-- Ends an armed dip detector without a report (R285). (DEDUCED 111 of notes/assumptions) -/
def State.disarm (s : State) (n : Nat) : State :=
  if (s.slice n).dipArmed then
    (s.setSlice n { s.slice n with dipArmed := false }).setLive Reg.DSL_SFLT_NODIP 1 n
  else s

/-- Arms the dip detector for an edge that starts or restarts the profile (R275, R280). -/
def State.arm (s : State) (n : Nat) (issue : Stamp) : State :=
  let s := s.disarm n
  let x := s.slice n
  s.setSlice n { x with
    onEdge := issue, dipArmed := s.conf Reg.DSL_PCFG_DIP_EN (s.prof n) == 1
    chops := if s.slSt n == slPhase && !x.chop then [(issue, false)] else [] }

/-- Clears the on-time counter (R276). -/
def State.clearOnTime (s : State) (n : Nat) : State :=
  (s.setSlice n { s.slice n with onFrom := none }).setLive Reg.DSL_SONT_T 0 n

/-- An armed dip detector keeps the changes of the chop switch from the first off interval on (R282). -/
def Slice.noteChop (x : Slice) (on : Bool) (t : Stamp) : Slice :=
  { x with chops := if x.dipArmed && (!on || !x.chops.isEmpty) then x.chops ++ [(t, on)] else x.chops }

/-- The chop switch changes at `t`, or stays as it is. One that goes off before the instant its minimum off time let it
on has stayed off (R268). -/
def Slice.switch (x : Slice) (on : Bool) (t : Stamp) : Slice :=
  if x.chop = on then x
  else { x.noteChop on t with
    chop := on, chopAt := if !on && sBefore t x.chopAt then x.chopAt - subTicks usTicks else t }

/-- Both switches of a slice off, and with them its off-timer. -/
def Slice.dead (x : Slice) (t : Stamp) : Slice :=
  { x.switch false t with
    other := false, otherAt := if x.other then t else x.otherAt, low := false, recirc := false, offTimer := none }

/-- Records the length of a deferral that ends at `t` (R279). -/
def State.deferred (s : State) (n : Nat) (t : Stamp) : State :=
  match (s.slice n).request with
  | some r => (s.setLive Reg.DSL_SDEF_LAST (min 65535 ((t - r).toNat / usTicks)) n).setSlice n { s.slice n with request := none }
  | none => s

/-- The two switches as a phase that starts at `t` takes them: the bank high-side chops where it decays SLOW, the
low-side elsewhere; each keeps the stamp of its last change (R268). -/
def Slice.roles (x : Slice) (slow : Bool) (t : Stamp) : Slice :=
  if x.chopHigh = slow then x
  else
    let y := if x.chop = x.other then x else x.noteChop x.other t
    { y with chopHigh := slow, chop := x.other, chopAt := x.otherAt, other := x.chop, otherAt := x.chopAt }

/-- The switches of a phase that starts at `t`: a chop switch that is on goes on, so that it may turn off when it has
been on for 1 µs, and one that is off turns on when it has been off for 1 µs, with its off interval going on till then
(R268, R269). (DEDUCED 110 of notes/assumptions) -/
def Slice.begin (x : Slice) (slow : Bool) (t : Stamp) : Slice :=
  let x := x.roles slow t
  let x := if x.chop then x else x.switch true (sMax t (x.chopAt + subTicks usTicks))
  { x with
    phaseAt := t, other := true, otherAt := if x.other then x.otherAt else t
    low := true, recirc := x.recirc && !slow && sBefore t x.chopAt, offTimer := none }

/-- The awaited phase starts at `t` (R267, R268). -/
def State.startPhase (s : State) (n : Nat) (t : Stamp) : State :=
  let s := s.deferred n t
  let s := s.setSlSt n slPhase
  s.setSlice n ((s.slice n).begin (s.isSlow n) t)

/-- Turns a slice off with OFF_DECAY: no bank high-side is needed (R269, R274). -/
def State.turnOff (s : State) (n : Nat) (t : Stamp) : State :=
  let s := ((s.releasePhase n t).deferred n t).disarm n
  let s := s.setSlSt n slDecay
  s.setSlice n { (s.slice n).dead t with recirc := s.conf Reg.DSL_PCFG_OFF_DECAY (s.prof n) == 0 }

/-- A refusal for want of a grant: REFUSED, the count and the event (R274, R279). (DEDUCED 110 of notes/assumptions)
-/
def State.refuse (s : State) (n : Nat) (t : Stamp) : State :=
  let s := s.deferred n t
  let s := (s.setLive Reg.DSL_SFLT_REFUSED 1 n).bump Reg.DSL_SDEF_REFCNT n
  s.raise 42 n (floorTo 64 t)

/-- A request of a slice that arbitrates is noted as it finds the slice, with the others of its cycle (R278). -/
def State.noteAsk (s : State) (n : Nat) (start : Bool) (j : Nat) (rq t : Stamp) : State :=
  if s.arbitrates n then
    let l := s.dsl.asks.filter (fun a => decide (cycle a.at_ = cycle t) && decide (a.slice ≠ n))
    { s with dsl := { s.dsl with asks := l ++ [⟨n, start, j, rq, t, s.slSt n, s.slice n⟩] } }
  else s

/-- A grant of phase `j` is requested at `t` with request stamp `rq`: the phase starts, waits, or is
refused at once; a refused later phase is skipped (R274, R277 to R279). `fuel` bounds the phases that can
still be skipped. -/
def State.requestPhase (s : State) (n : Nat) (start : Bool) (t : Stamp) : Nat → Nat → Stamp → State
  | 0, _, _ => s.turnOff n t
  | fuel + 1, j, rq =>
    let s := (s.noteAsk n start j rq t).setLive Reg.DSL_SSTAT_PHASE j n
    let go := !s.arbitrates n || (s.compatible n && !s.blocked n rq)
    if go && (!s.arbitrates n || s.handOver n t == t) then s.startPhase n t
    else if !go && s.conf Reg.DSL_PCFG_DEFER_MAX (s.prof n) == 0 then
      let s := s.refuse n t
      if start then ((s.disarm n).clearOnTime n).setSlSt n slIdle
      else if s.conf Reg.DSL_PCFG_NPH_M1 (s.prof n) ≤ j then s.turnOff n t
      else State.requestPhase s n false t fuel (j + 1) t
    else
      let s := s.setLive Reg.DSL_SFLT_DEFERRED 1 n
      let s := s.setSlSt n (if start then slDefer else slWait)
      s.setSlice n { (s.slice n).dead t with request := some rq, recirc := !start }

/-- The requests of the cycle of `t` that slices of the bank of slice `n` above it have made and that stand, in
ascending index (R278). -/
def State.asksAfter (s : State) (n : Nat) (t : Stamp) : List Ask :=
  sortBy (fun (a b : Ask) => decide (a.slice ≤ b.slice)) (s.dsl.asks.filter (fun a =>
    decide (a.slice / 6 = n / 6) && decide (n < a.slice) && decide (cycle a.at_ = cycle t) &&
      (s.slSt a.slice == slPhase || s.waits a.slice)))

/-- A grant of phase `j` is requested at `t`. Requests made in one TCLK cycle are taken in ascending slice index: those
that slices above this one have made in it are taken back first, and made again after it (R278). -/
def State.request (s : State) (n : Nat) (start : Bool) (t : Stamp) (j : Nat) (rq : Stamp) : State :=
  let later := if s.arbitrates n then s.asksAfter n t else []
  let s := later.foldl (fun (s : State) a => (s.setSlice a.slice a.before).setSlSt a.slice a.was) s
  later.foldl (fun (s : State) a => s.requestPhase a.slice a.start (sMax a.at_ t) 8 a.phase a.rq)
    (s.requestPhase n start t 8 j rq)

/-- The running phase exits at `t`: the next phase is requested, or the profile ends (R267, R271). -/
def State.phaseExit (s : State) (n : Nat) (t : Stamp) : State :=
  let j := s.phase n
  let s := s.releasePhase n t
  if s.conf Reg.DSL_PCFG_NPH_M1 (s.prof n) ≤ j then s.turnOff n t
  else (s.setSlSt n slWait).request n false t (j + 1) t

/-- The open kink windows of slice `n` end at `t` (R275, R284). -/
def State.cutWindow (s : State) (n : Nat) (t : Stamp) : State :=
  let cut := fun (w : Nat × Stamp × Stamp) => if w.1 = n ∧ sBefore t w.2.2 = true then (w.1, w.2.1, t) else w
  { s with dsl := { s.dsl with
    windows := Tab.put [] s.dsl.windows (n / 6) ((Tab.get [] s.dsl.windows (n / 6)).map cut) } }

/-- A restart begins phase 0 again; from DECAY or OFFMIN it ends the slice's kink windows without a result
(R275). (DEDUCED 111 of notes/assumptions) -/
def State.restart (s : State) (n : Nat) (issue t : Stamp) : State :=
  let fromDecay := s.slSt n == slDecay || s.slSt n == slOffmin
  let s := s.releasePhase n t
  let s :=
    if fromDecay then
      ((s.cutWindow n t).setSlice n { s.slice n with
        kinks := [], offTimer := none }).setLive Reg.DSL_SSTAT_KWIN 0 n
    else s
  ((((s.deferred n t).arm n issue)).setSlSt n slWait).request n false t 0 issue

/-- An ON edge reaches a slice (R273, R274). -/
def State.sliceOn (s : State) (n : Nat) (issue t : Stamp) : State :=
  if s.flag Reg.DSL_SSTAT_LOCK n then s.setLive Reg.DSL_SFLT_IGNORED 1 n
  else
    match s.slSt n with
    | 0 =>
      let s := (s.arm n issue).setSlice n { (s.arm n issue).slice n with onFrom := some t }
      s.request n true t 0 issue
    | 1 => s
    | _ => s.restart n issue t

/-- An OFF edge reaches a slice; it clears LOCK (R274, R281). -/
def State.sliceOff (s : State) (n : Nat) (issue t : Stamp) : State :=
  match s.slSt n with
  | 1 =>
    let s := ((s.deferred n t).disarm n).clearOnTime n
    (s.setSlice n ((s.slice n).dead t)).setSlSt n slIdle
  | 2 | 3 =>
    let q := s.prof n
    let s := s.turnOff n t
    if s.conf Reg.DSL_PCFG_KINK_EN q = 1 then
      let x := s.slice n
      let o := issue + subTicks (s.conf Reg.DSL_PKWIN_KW_START q * 256000)
      let w : KinkWin := ⟨o, o + subTicks (s.conf Reg.DSL_PKWIN_KW_LEN q * 256000), issue, false, false⟩
      s.setSlice n { x with kinks := x.kinks ++ [w] }
    else s
  | _ => s

/-- The instant from `x` on at which the on-time counter of slice `n`, started at `t0`, is found at MAXON: it is
compared once every µs, after the edge that started or restarted the profile (R276). -/
def State.maxonAt (s : State) (n : Nat) (t0 x : Stamp) : Stamp :=
  let due := sMax x (t0 + subTicks (s.conf Reg.DSL_SMAXON_MAXON n * msTicks))
  let due := match (s.slice n).edgeAt with
    | some e => sMax due (e + 1)
    | none => due
  t0 + ceilTo usTicks (due - t0)

/-- The counter reaches MAXON at `t`: the slice turns off and locks (R274, R276). -/
def State.maxon (s : State) (n : Nat) (t : Stamp) : State :=
  let s := s.turnOff n t
  let s := (s.setLive Reg.DSL_SFLT_MAXON 1 n).setLive Reg.DSL_SSTAT_LOCK 1 n
  (s.raise 43 n (floorTo 64 t)).bankShow (n / 6)

/-- The MAXON of slice `n` that comes no later than the TCLK cycle of `t` (R276, R286). -/
def State.maxonBy (s : State) (n : Nat) (t : Stamp) : Option Stamp :=
  match (s.slice n).onFrom with
  | some t0 =>
    let m := s.maxonAt n t0 t0
    if (s.slSt n == slPhase || s.slSt n == slWait) && sAtOrBefore (floorTo 64 m) t then some m else none
  | none => none

/-- The T of a PEAK phase of slice `n` that lies in the TCLK cycle of `t`: where it finds an open load, the fault acts
first (R272, R286). -/
def State.peakIn (s : State) (n : Nat) (t : Stamp) : Option Stamp :=
  let e := (s.slice n).phaseAt + subTicks (s.conf Reg.DSL_PHB_T (s.prof n) (s.phase n) * 256000)
  if s.slSt n == slPhase && decide (s.conf Reg.DSL_PHA_EXIT (s.prof n) (s.phase n) = 1) && decide (cycle e = cycle t) then
    some e
  else none

/-- An edge acts on slice `n`, or is ignored: a disabled slice, and one in FAULT or HELD, ignores every edge (R273). -/
def State.takeEdge (s : State) (n : Nat) (on : Bool) (issue t : Stamp) : State :=
  let s := s.setSlice n { s.slice n with edgeAt := some t, lapsed := s.peakIn n t }
  let s := if on then s else s.setLive Reg.DSL_SSTAT_LOCK 0 n
  let dead := fun m => s.slSt m == slFault || s.slSt m == slHeld
  if s.conf Reg.DSL_SCFG_EN n = 0 ∨ dead n = true ∨ (s.paired n && dead (n + 1)) = true then
    s.setLive Reg.DSL_SFLT_IGNORED 1 n
  else ((if on then s.sliceOn n issue t else s.sliceOff n issue t)).bankShow (n / 6)

/-- An issued edge reaches slice `sl` at `t`; `issue` is its ISSUE stamp. A MAXON that comes before it acts first, and
one in its own cycle makes the slice ignore it (R273, R274, R286). -/
def State.sliceEdge (s : State) (sl : Nat) (on : Bool) (issue t : Stamp) : State :=
  let n := s.slLead sl
  match s.maxonBy n t with
  | none => s.takeEdge n on issue t
  | some m =>
    let s := s.maxon n m
    if cycle m = cycle t then (s.setSlice n { s.slice n with edgeAt := some t }).setLive Reg.DSL_SFLT_IGNORED 1 n
    else s.takeEdge n on issue t

/-- A slice that exists and leads itself or its pair. -/
def State.isSlice (s : State) (n : Nat) : Bool := decide (n < s.variant.slices) && s.slLead n == n

/-- BANK_GRANT: a waiting request is granted and its phase starts (R278). -/
def execBankGrant (sl : Nat) (s : State) : Res :=
  match (s.slice sl).request with
  | some rq =>
    if s.isSlice sl && s.waits sl && s.compatible sl && !s.blocked sl rq then
      let t := s.handOver sl s.now
      .next (if s.recordFirst t then s else ((s.advanceTo t).startPhase sl t).bankShow (sl / 6))
    else .next s
  | none => .next s

/-- DEFER_EXPIRY: a request has waited DEFER_MAX and is refused (R274, R279). -/
def execDeferExpiry (sl : Nat) (s : State) : Res :=
  match (s.slice sl).request with
  | some rq =>
    if s.isSlice sl && s.waits sl then
      let t := sMax s.now (rq + subTicks (s.conf Reg.DSL_PCFG_DEFER_MAX (s.prof sl) * usTicks))
      if s.recordFirst t then .next s else
      let s := s.advanceTo t
      let start := s.slSt sl == slDefer
      let s := s.refuse sl t
      let s :=
        if start then ((s.disarm sl).clearOnTime sl).setSlSt sl slIdle
        else if s.conf Reg.DSL_PCFG_NPH_M1 (s.prof sl) ≤ s.phase sl then s.turnOff sl t
        else s.request sl false t (s.phase sl + 1) t
      .next (s.bankShow (sl / 6))
    else .next s
  | none => .next s

/-- A slice fault: both gates off, the fault bit and the event (R274, R286). -/
def State.sliceFault (s : State) (n sl : Nat) (f : Fld) (t : Stamp) : State :=
  let s := ((s.releasePhase n t).deferred n t).disarm n
  let s := s.setSlice n ((s.slice n).dead t)
  let s := (s.setLive Reg.DSL_SSTAT_STATE slFault n).setLive f 1 sl
  let s := if s.paired n then s.setLive Reg.DSL_SSTAT_STATE slFault (n + 1) else s
  (s.raise 44 sl (floorTo 64 t)).bankShow (n / 6)

/-! ### Currents -/

/-- The current in mA at a shunt voltage of `v` / 32 µV: the gauge store's offset and gain are applied, the offset
first, and the sense range of 200 mV bounds it (R266, R413). (DESIGN CHOICE 112 of notes/assumptions) -/
def State.shuntMa (s : State) (n : Nat) (v : Int) : Int :=
  let off := sext 16 (s.gauge (96 + 4 * n) 2)
  let gain : Int := s.gauge (98 + 4 * n) 2
  let shunt := s.conf Reg.DSL_SCFG_SHUNT n
  let range := divRound 2000000 shunt
  clampI (-range) range (divRound ((v + 32 * off) * gain * 10) (2 ^ 20 * shunt))

/-- The current of slice `n` that the comparators see at a shunt voltage of `v` µV, within ±200 mV (R266). -/
def State.currentAt (s : State) (n : Nat) (v : Int) : Int := s.shuntMa n (32 * clampI (-200000) 200000 v)

/-- The regulated current of slice `n` that the comparators see: in a pair, the sum over both slices (R265). -/
def State.regulated (s : State) (n : Nat) (own mate : Int) : Int :=
  s.currentAt n own + (if s.paired n then s.currentAt (n + 1) mate else 0)

/-- The current of slice `n` that its 12-bit converter gives at a shunt voltage of `v` µV (R266). -/
def State.sampled (s : State) (n : Nat) (v : Int) : Int :=
  s.shuntMa n (3125 * clampI (-2048) 2047 (divRound (v * 2048) 200000))

/-- The regulated current of slice `n` from the converters: in a pair, the sum over both slices (R265, R266).
(DESIGN CHOICE 112 of notes/assumptions) -/
def State.measured (s : State) (n : Nat) (own mate : Int) : Int :=
  s.sampled n own + (if s.paired n then s.sampled (n + 1) mate else 0)

/-- The end of the sense range of slice `n` in mA, 200 mV / SHUNT (R266). -/
def State.senseEnd (s : State) (n : Nat) : Nat := (divRound 2000000 (s.conf Reg.DSL_SCFG_SHUNT n)).toNat

/-- The current at which a comparator with a range of `range` mA and a 10-bit threshold answers for a setting of `v` mA:
the nearest of its steps, a 512th of the range, that 10 signed bits hold (R17, R266). (DESIGN CHOICE 112 of
notes/assumptions) -/
def comparatorLevel (range : Nat) (v : Int) : Int := divRound (clampI 0 511 (divRound (v * 512) range) * range) 512

/-- The level of a regulation threshold of slice `n` set at `v` mA (R265, R266). -/
def State.level (s : State) (n : Nat) (v : Int) : Int :=
  comparatorLevel (s.senseEnd n + (if s.paired n then s.senseEnd (n + 1) else 0)) v

/-- DSL_SSTAT.CUR of slice `n` shows its own converter's result (R266). (DESIGN CHOICE 112 of notes/assumptions) -/
def State.showCurrent (s : State) (n : Nat) (v : Int) : State :=
  s.setLive Reg.DSL_SSTAT_CUR (clampI 0 65535 (s.sampled n v)).toNat n

/-- The converters of a leading slice and of its pair show their results. -/
def State.current (s : State) (n : Nat) (own mate : Int) : State :=
  let s := s.showCurrent n own
  if s.paired n then s.showCurrent (n + 1) mate else s

/-- PHASE_TIME_EXPIRY: the time limit T of the running phase elapses, with the shunt voltages then (R268, R271,
R272, R282). A T that finds an open load comes before an edge of its own cycle, which is then ignored (R286). -/
def execPhaseTimeExpiry (sl : Nat) (v : Shunts) (s : State) : Res :=
  let q := s.prof sl
  let j := s.phase sl
  let e := s.conf Reg.DSL_PHA_EXIT q j
  let t := sMax s.now ((s.slice sl).phaseAt + subTicks (s.conf Reg.DSL_PHB_T q j * 256000))
  let open_ := decide (s.measured sl v.own v.mate < s.conf Reg.DSL_POFF_I_OFF q)
  if s.isSlice sl && decide ((s.slice sl).lapsed.map cycle = some (cycle s.now)) && open_ then
    let s := (s.current sl v.own v.mate).setSlice sl { s.slice sl with lapsed := none, kinks := [] }
    let s := (s.setLive Reg.DSL_SFLT_PEAK_MISS 1 sl).setLive Reg.DSL_SFLT_IGNORED 1 sl
    .next (s.sliceFault sl sl Reg.DSL_SFLT_OPEN s.now)
  else if s.isSlice sl && s.slSt sl == slPhase && decide (e < 3) && !s.recordFirst t then
    let s := (s.advanceTo t).current sl v.own v.mate
    if e = 1 then
      let s := s.setLive Reg.DSL_SFLT_PEAK_MISS 1 sl
      if open_ then .next (s.sliceFault sl sl Reg.DSL_SFLT_OPEN t)
      else .next ((s.phaseExit sl t).bankShow (sl / 6))
    else .next (((if e = 2 then s.disarm sl else s).phaseExit sl t).bankShow (sl / 6))
  else .next s

/-- PEAK_REACHED: the current first reaches I_TGT in a PEAK phase (R268). -/
def execPeakReached (sl : Nat) (v : Shunts) (s : State) : Res :=
  let q := s.prof sl
  let j := s.phase sl
  if s.isSlice sl && s.slSt sl == slPhase && s.conf Reg.DSL_PHA_EXIT q j == 1 &&
      decide (s.level sl (s.conf Reg.DSL_PHA_I_TGT q j) ≤ s.regulated sl v.own v.mate) then
    .next (((s.current sl v.own v.mate).phaseExit sl s.now).bankShow (sl / 6))
  else .next s

/-- CHOP_THRESHOLD: the chop switch turns off at I_TGT and on at I_TGT − I_HYST, no sooner than 1 µs after
its last change (R268, R269). -/
def execChopThreshold (sl : Nat) (v : Shunts) (s : State) : Res :=
  let q := s.prof sl
  let j := s.phase sl
  let x := s.slice sl
  let cur := s.regulated sl v.own v.mate
  let tgt : Int := s.conf Reg.DSL_PHA_I_TGT q j
  let off := x.chop && decide (s.level sl tgt ≤ cur)
  let on := !x.chop && decide (cur ≤ s.level sl (tgt - s.conf Reg.DSL_PHB_I_HYST q j))
  let t := sMax s.now (x.chopAt + subTicks usTicks)
  if s.isSlice sl && s.slSt sl == slPhase && s.conf Reg.DSL_PHA_EXIT q j != 1 && (off || on) && !s.recordFirst t then
    let s := (s.advanceTo t).current sl v.own v.mate
    let d := s.conf Reg.DSL_PHA_DECAY q j
    .next ((s.setSlice sl { x.switch on t with
      low := on || decide (d = 2), recirc := !on && decide (d = 0) }).bankShow (sl / 6))
  else .next s

/-- What the dip detector keeps: the current has exceeded DIP_MIN, the running maximum M, and the minimum m
with its stamp. -/
structure DipDet where
  seen : Bool
  m : Option Int
  low : Option (Int × Stamp)
  deriving DecidableEq, Repr

/-- The dip detector over the currents since an arming edge, with their stamps; one whose flag is set is ignored.
Answers the stamp of the minimum and of the confirmation (R282). (DESIGN CHOICE 112 of notes/assumptions) -/
def dipFind (dmin thr : Int) : DipDet → List (Stamp × Int × Bool) → Option (Stamp × Stamp)
  | _, [] => none
  | d, (ts, v, ignored) :: t =>
    if ignored then dipFind dmin thr { d with m := none, low := none } t
    else
      let d := { d with seen := d.seen || decide (dmin < v) }
      if !d.seen then dipFind dmin thr d t
      else
        match d.low with
        | some (lo, at_) =>
          if v < lo then dipFind dmin thr { d with low := some (v, ts) } t
          else if 2 * lo + thr ≤ 2 * v then some (at_, ts)
          else dipFind dmin thr d t
        | none =>
          let top := match d.m with | some y => max y v | none => v
          if v ≤ top - thr then dipFind dmin thr { d with m := some top, low := some (v, ts) } t
          else dipFind dmin thr { d with m := some top } t

/-- Stamps that lie one conversion of a 2 MS/s converter apart (R266, R284). -/
def evenly : List Stamp → Bool
  | a :: b :: t => decide (b = a + 12800) && evenly (b :: t)
  | _ => true

/-- The chop switch is chopping at `ts`, for the dip detector: it is off, or has not been on for 10 µs since (R282).
(DESIGN CHOICE 112 of notes/assumptions) -/
def Slice.chopping (x : Slice) (ts : Stamp) : Bool :=
  match (x.chops.filter (fun c => sAtOrBefore c.1 ts)).getLast? with
  | some (o, on) => !on || sBefore ts (o + 256000)
  | none => false

/-- The delay of a slice event in TCLK cycles, to the nearest (R17, R285). -/
def sliceDelay (rep edge : Stamp) : Nat := unsig 32 (divRound (sdiff edge rep) 64)

/-- The payload of a slice event (R132, R285). -/
def sliceEvent (kind : Nat) (shared : Bool) (rep edge : Stamp) : List Byte :=
  bytesLE 1 kind ++ bytesLE 1 shared.toNat ++ [0, 0] ++ bytesLE 4 (sliceDelay rep edge) ++ bytesLE 8 edge.toNat

/-- What the dip detector of slice `sl` finds in the conversions since its arming edge (R266, R282). -/
def State.dipResult (s : State) (sl : Nat) (samples : List ShuntSample) : Option (Stamp × Stamp) :=
  let x := s.slice sl
  if evenly (samples.map (fun y => y.stamp)) then
    dipFind (s.conf Reg.DSL_PDIP_DIP_MIN (s.prof sl)) (s.conf Reg.DSL_PDIP_DIP_THR (s.prof sl)) ⟨false, none, none⟩
      ((samples.filter (fun y => sAtOrBefore x.onEdge y.stamp)).map (fun y =>
        (y.stamp, s.measured sl y.own y.mate, x.chopping y.stamp)))
  else none

/-- DIP_CONFIRMED: the detector confirms a dip in the samples since its arming (R268, R282, R285). (DESIGN CHOICE
112 of notes/assumptions) -/
def execDipConfirmed (sl : Nat) (samples : List ShuntSample) (s : State) : Res :=
  let q := s.prof sl
  let x := s.slice sl
  let run := s.slSt sl == slPhase || s.slSt sl == slWait
  if s.isSlice sl && x.dipArmed && run then
    match s.dipResult sl samples with
    | none => .next s
    | some (at_, conf) =>
      if s.inTurn conf then
        let rep := floorTo 64 at_
        let s := s.advanceTo conf
        let s := s.setSlice sl { x with dipArmed := false }
        let s := s.complete (inputId 8 sl) rep conf (sliceEvent 2 false rep x.onEdge)
        let s := s.setLive Reg.DSL_SDDLY_DLY (sliceDelay rep x.onEdge) sl
        if s.slSt sl == slPhase && s.conf Reg.DSL_PHA_EXIT q (s.phase sl) == 2 then
          .next ((s.phaseExit sl conf).bankShow (sl / 6))
        else .next s
      else .next s
  else .next s

/-- A kink window of slice `n` opens: its bank's windows are forgotten where no other is open then (R284). -/
def State.noteWindow (s : State) (n : Nat) (o c : Stamp) : State :=
  let l := Tab.get [] s.dsl.windows (n / 6)
  let l := if l.any (fun w => sBefore o w.2.2) then l else []
  { s with dsl := { s.dsl with windows := Tab.put [] s.dsl.windows (n / 6) (l ++ [(n, o, c)]) } }

/-- A kink window of a slice in place of another. (DEDUCED 111 of notes/assumptions) -/
def Slice.setKink (x : Slice) (w v : KinkWin) : Slice := { x with kinks := x.kinks.map (fun y => if y = w then v else y) }

/-- KINK_WINDOW_OPEN: the oldest window that is to open opens KW_START after its OFF edge (R281). -/
def execKinkWindowOpen (sl : Nat) (s : State) : Res :=
  let x := s.slice sl
  match x.kinks.find? (fun w => !w.opened) with
  | some w =>
    if s.isSlice sl && !s.recordFirst w.opens then
      let s := s.advanceTo w.opens
      let s := (s.setSlice sl (x.setKink w { w with opened := true })).setLive Reg.DSL_SSTAT_KWIN 1 sl
      .next ((s.noteWindow sl w.opens w.closes).bankShow (sl / 6))
    else .next s
  | none => .next s

/-- The sum of `n` values that end at index `k`. -/
def sumTo (v : List Int) (n k : Nat) : Int := ((v.drop (k + 1 - n)).take n).foldl (· + ·) 0

/-- The kink detector over the samples of a window: the stamps of the kink and of its confirmation
(R283). The run length and the arming are carried from sample to sample. (DESIGN CHOICE 112 of notes/assumptions) -/
def kinkFind (v : List Int) (ts : List Stamp) (n lag arm : Nat) (slope : Int) :
    Nat → Nat → Nat → Bool → Option (Stamp × Stamp)
  | 0, _, _, _ => none
  | fuel + 1, k, run, armed =>
    let d := sumTo v n k - sumTo v n (k - lag)
    if !armed then
      let run := if slope * n ≤ d then run + 1 else 0
      kinkFind v ts n lag arm slope fuel (k + 1) run (decide (arm ≤ run))
    else if 4 * d < slope * n then
      some (ts.getD (k - (n - 1 + lag) / 2) 0, ts.getD k 0)
    else kinkFind v ts n lag arm slope fuel (k + 1) run armed

/-- The slices of a bank whose kink windows are open at `ts`, in ascending index (R284). -/
def openAt (ws : List (Nat × Stamp × Stamp)) (ts : Stamp) : List Nat :=
  sortBy (fun (a b : Nat) => decide (a ≤ b))
    ((ws.filter (fun w => sAtOrBefore w.2.1 ts && sBefore ts w.2.2)).map (fun w => w.1)).eraseDups

/-- The conversions of a bank's train that fall to slice `sl`: those of the open windows in turn, in ascending index
from the lowest one (R284). (DESIGN CHOICE 112 of notes/assumptions) -/
def turnsOf (ws : List (Nat × Stamp × Stamp)) (sl : Nat) : Option Nat → List CoilSample → List CoilSample
  | _, [] => []
  | last, x :: t =>
    let l := openAt ws x.stamp
    let next := match last with
      | some k => match l.find? (fun m => decide (k < m)) with | some m => some m | none => l.head?
      | none => l.head?
    if next = some sl then x :: turnsOf ws sl next t else turnsOf ws sl next t

/-- The coil voltage of slice `n` as a signed 12-bit code of 40 mV: the rail sense, or HBb_VS where the coil is tied to
the primary supply, minus the drain sense, each with its attenuator trim (R281, R413). -/
def State.coilCode (s : State) (n : Nat) (x : CoilSample) : Int :=
  let trim := fun (o : Nat) => (s.gauge o 2 : Int)
  let top := if s.arbitrates n then x.rail * trim (384 + 4 * (n / 6)) else x.supply * trim (386 + 4 * (n / 6))
  clampI (-2048) 2047 (divRound (top - x.drain * trim (288 + 2 * n)) (40 * 2 ^ 15))

/-- What the kink detector of slice `sl` finds in the window from `o` to `c`, from the bank converter's train since the
first of the windows that overlap (R281, R283, R284). -/
def State.kinkResult (s : State) (sl : Nat) (o c : Stamp) (train : List CoilSample) : Option (Stamp × Stamp) :=
  if evenly (train.map (fun y => y.stamp)) then
    let q := s.prof sl
    let mine := turnsOf (Tab.get [] s.dsl.windows (sl / 6)) sl none train
    let xs := mine.filter (fun y => sAtOrBefore o y.stamp && sBefore y.stamp c)
    let n := 2 ^ s.conf Reg.DSL_PKDET_KAVG q
    let lag := s.conf Reg.DSL_PKDET_KLAG q
    let v := xs.map (fun y => if s.conf Reg.DSL_PCFG_KPOL q = 1 then -s.coilCode sl y else s.coilCode sl y)
    let first := n - 1 + lag
    kinkFind v (xs.map (·.stamp)) n lag (s.conf Reg.DSL_PKDET_KARM q) (s.conf Reg.DSL_PKSL_KSLOPE q)
      (xs.length - first) first 0 false
  else none

/-- The oldest open window of a slice without a kink so far in which the samples show one (R283). (DEDUCED 111 of
notes/assumptions) -/
def State.kinkOf (s : State) (sl : Nat) (samples : List CoilSample) : Option (KinkWin × Stamp × Stamp) :=
  ((s.slice sl).kinks.filter (fun w => w.opened && !w.done)).findSome? (fun w =>
    (s.kinkResult sl w.opens w.closes samples).map (fun r => (w, r)))

/-- KINK_DETECTED: the detector reports a kink in the samples of an open window (R283 to R285). (DESIGN CHOICE 112
of notes/assumptions) -/
def execKinkDetected (sl : Nat) (samples : List CoilSample) (s : State) : Res :=
  match s.kinkOf sl samples with
  | none => .next s
  | some (w, at_, conf) =>
    if s.isSlice sl && s.inTurn conf then
      let rep := floorTo 64 at_
      let s := s.advanceTo conf
      let shared := decide (2 ≤ (openAt (Tab.get [] s.dsl.windows (sl / 6)) conf).length)
      let s := s.setSlice sl ((s.slice sl).setKink w { w with done := true })
      let s := s.complete (inputId 8 sl) rep conf (sliceEvent 1 shared rep w.edge)
      let s := s.setLive Reg.DSL_SSTAT_SHARED shared.toNat sl
      .next (s.setLive Reg.DSL_SKDLY_DLY (sliceDelay rep w.edge) sl)
    else .next s

/-- KINK_WINDOW_CLOSE: the oldest open window closes, and without a kink it sets NOKINK (R281, R283). -/
def execKinkWindowClose (sl : Nat) (s : State) : Res :=
  let x := s.slice sl
  match x.kinks.find? (fun w => w.opened) with
  | some w =>
    if s.isSlice sl && !s.recordFirst w.closes then
      let s := s.advanceTo w.closes
      let rest := x.kinks.erase w
      let s := s.setSlice sl { x with kinks := rest }
      let s := s.setLive Reg.DSL_SSTAT_KWIN (rest.any (fun y => y.opened)).toNat sl
      let s := if w.done then s else s.setLive Reg.DSL_SFLT_NOKINK 1 sl
      .next (s.bankShow (sl / 6))
    else .next s
  | none => .next s

/-- CURRENT_BELOW_IOFF: a decaying current falls below I_OFF and the off-timer starts (R274). -/
def execCurrentBelowIoff (sl : Nat) (v : Shunts) (s : State) : Res :=
  if s.isSlice sl && s.slSt sl == slDecay &&
      decide (s.measured sl v.own v.mate < s.conf Reg.DSL_POFF_I_OFF (s.prof sl)) then
    let s := (s.current sl v.own v.mate).setSlSt sl slOffmin
    .next (s.setSlice sl { s.slice sl with offTimer := some s.now })
  else .next s

/-- CURRENT_ABOVE_IOFF: the current rises to I_OFF or above and the off-timer stops (R274). -/
def execCurrentAboveIoff (sl : Nat) (v : Shunts) (s : State) : Res :=
  if s.isSlice sl && s.slSt sl == slOffmin &&
      decide ((s.conf Reg.DSL_POFF_I_OFF (s.prof sl) : Int) ≤ s.measured sl v.own v.mate) then
    let s := (s.current sl v.own v.mate).setSlSt sl slDecay
    .next (s.setSlice sl { s.slice sl with offTimer := none })
  else .next s

/-- OFFMIN_EXPIRY: the off-timer reaches T_OFFMIN; the OFF completes (R274, R276). -/
def execOffminExpiry (sl : Nat) (s : State) : Res :=
  match (s.slice sl).offTimer with
  | some t0 =>
    let t := t0 + subTicks (s.conf Reg.DSL_POFF_T_OFFMIN (s.prof sl) * usTicks)
    if s.isSlice sl && s.slSt sl == slOffmin && !s.recordFirst t then
      let s := s.advanceTo t
      let s := s.setSlice sl { s.slice sl with offTimer := none, recirc := false }
      .next ((s.clearOnTime sl).setSlSt sl slIdle)
    else .next s
  | none => .next s

/-- MAXON_REACHED: the on-time counter reaches MAXON; the slice turns off and locks (R274, R276). -/
def execMaxonReached (sl : Nat) (s : State) : Res :=
  match (s.slice sl).onFrom with
  | some t0 =>
    let t := s.maxonAt sl t0 s.now
    if s.isSlice sl && (s.slSt sl == slPhase || s.slSt sl == slWait) && !s.recordFirst t then
      .next ((s.advanceTo t).maxon sl t)
    else .next s
  | none => .next s

/-- The on-time counter as DSL_SONT shows it, in ms (R276). -/
def State.showOnTime (s : State) : State :=
  (List.range s.variant.slices).foldl (fun s n =>
    match (s.slice n).onFrom with
    | some t0 => s.setLive Reg.DSL_SONT_T ((s.now - t0).toNat / msTicks) n
    | none => s) s

/-! ### Faults -/

/-- The instant of a fault that is detected now in the bank of slice `n`: a fault acts before the edges of its cycle,
so one that is reported after an edge has acted arises in the next cycle (R286). (DEDUCED 110 of notes/assumptions)
-/
def State.faultAt (s : State) (b : Nat) : Stamp :=
  let edged := (List.range 6).any (fun i => decide ((s.slice (6 * b + i)).edgeAt.map cycle = some (cycle s.now)))
  if edged then floorTo 64 s.now + 64 else s.now

/-- OVER_CURRENT: the current of a slice stays at OC for 200 ns (R266, R286). -/
def execOverCurrent (sl : Nat) (own : Int) (s : State) : Res :=
  let n := s.slLead sl
  let t := s.faultAt (n / 6)
  if decide (sl < s.variant.slices) && s.slSt n != slFault && s.slSt n != slHeld &&
      decide (comparatorLevel (s.senseEnd sl) (s.conf Reg.DSL_SOC_OC sl) ≤ s.currentAt sl own) && !s.recordFirst t then
    let s := (s.advanceTo t).showCurrent sl own
    .next (s.sliceFault n sl Reg.DSL_SFLT_OC t)
  else .next s

/-- The drain sense of a slice after its attenuator trim lies above, or below, a level of 0.5 V units: a difference in
mV × 2^15 (R286, R413). -/
def State.drainOver (s : State) (sl : Nat) (drain : Int) (level : Nat) : Int :=
  drain * s.gauge (288 + 2 * sl) 2 - 500 * level * 2 ^ 15

/-- DRAIN_SHORT_SUPPLY: a drain, at its lowest within the 2 µs, above DRN_HI with the low-side on (R286). -/
def execDrainShortSupply (d : DrainSense) (s : State) : Res :=
  let sl := d.slice
  let n := s.slLead sl
  let t := s.faultAt (n / 6)
  if decide (sl < s.variant.slices) && s.slSt n != slFault && s.slSt n != slHeld && (s.slice n).lowOn s.now &&
      decide (0 < s.drainOver sl d.drain (s.conf Reg.DSL_BLIM_DRN_HI (sl / 6))) && !s.recordFirst t then
    .next ((s.advanceTo t).sliceFault n sl Reg.DSL_SFLT_DRN_BAT t)
  else .next s

/-- Every slice of a bank enters HELD with its gates off (R274). -/
def State.holdBank (s : State) (b : Nat) : State :=
  let s := (s.leads b).foldl (fun s n =>
    let s := ((s.releasePhase n s.now).deferred n s.now).disarm n
    let s := s.setSlice n ((s.slice n).dead s.now)
    s.setSlSt n slHeld) s
  s.bankShow b

/-- A bank held by no fault and no trip is released: its HELD slices decay (R274, R287, R288). -/
def State.releaseBank (s : State) (b : Nat) : State :=
  if s.dsl.faulted.contains b || !(Tab.get [] s.dsl.trips b).isEmpty then s.bankShow b
  else ((s.leads b).foldl (fun s n => if s.slSt n == slHeld then s.setSlSt n slDecay else s) s).bankShow b

/-- A bank fault: the bit, the event, and every slice HELD (R286). -/
def State.bankFault (s : State) (b : Nat) (f : Fld) : State :=
  let s := s.setLive f 1 b
  let s := { s with dsl := { s.dsl with
    faulted := if s.dsl.faulted.contains b then s.dsl.faulted else s.dsl.faulted ++ [b] } }
  (s.raiseNow 45 b).holdBank b

/-- DRAIN_SHORT_GROUND: with the low-side off and outside a turn-off, a drain, at its highest within the 10 µs, below
DRN_LO, while the bank rail or HBb_VS, at their lowest, lies above it (R286). -/
def execDrainShortGround (d : DrainRails) (s : State) : Res :=
  let sl := d.slice
  let n := s.slLead sl
  let level := s.conf Reg.DSL_BLIM_DRN_LO (sl / 6)
  let above := fun (v : Int) (o : Nat) => decide ((500 * level * 2 ^ 15 : Int) < v * s.gauge o 2)
  let t := s.faultAt (sl / 6)
  if decide (sl < s.variant.slices) && !(s.slice n).lowOn s.now && s.slSt n != slDecay && s.slSt n != slOffmin &&
      decide (s.drainOver sl d.drain level < 0) &&
      (above d.rail (384 + 4 * (sl / 6)) || above d.supply (386 + 4 * (sl / 6))) && !s.recordFirst t then
    .next ((s.advanceTo t).bankFault (sl / 6) Reg.DSL_BFLT_DRN_GND)
  else .next s

/-- HIGH_SIDE_FAULT: the rail of a bank whose high-side is on lies more than 4 V below its source for 5 µs; both in
mV, the rail after its attenuator trim (R286, R413). -/
def execHighSideFault (h : HighSide) (s : State) : Res :=
  let b := h.bank
  if decide (b < s.variant.banks) && (s.flag Reg.DSL_BSTAT_BOOST_ON b || s.flag Reg.DSL_BSTAT_PRI_ON b) &&
      decide (h.rail * s.gauge (384 + 4 * b) 2 + 4000 * 2 ^ 15 < h.source * 2 ^ 15) && !s.recordFirst (s.faultAt b) then
    .next ((s.advanceTo (s.faultAt b)).bankFault b Reg.DSL_BFLT_HS_FAULT)
  else .next s

/-- While the gate-drive supply is too low every bank is held as by a bank fault (R286, R440). (DEDUCED 129 of
notes/assumptions) -/
def State.gduvHold (s : State) : State :=
  if s.dsl.gduv then (List.range s.variant.banks).foldl (fun s b => s.bankFault b Reg.DSL_BFLT_GDUV) s else s

/-- GDUV_DETECT: the gate-drive supply is too low for 5 µs; every bank is held (R286, R440). The condition does not
depend on the logic die: found before row 0, it holds the banks from there on. (DEDUCED 129 of notes/assumptions) -/
def execGduvDetect (s : State) : Res :=
  let t := (List.range s.variant.banks).foldl (fun t b => sMax t (s.faultAt b)) s.now
  if s.dsl.gduv || s.recordFirst t then .next s
  else
    let s := { s with dsl := { s.dsl with gduv := true } }
    .next (if s.row.started then (s.advanceTo t).gduvHold else s)

/-- GDUV_CLEAR: VGD and VDD_DRV are above their release thresholds (R440). -/
def execGduvClear (s : State) : Res := .next { s with dsl := { s.dsl with gduv := false } }

/-- A clear of DSL_SCLR lands (R287). -/
def State.clearSlice (s : State) (sl : Nat) : State :=
  if s.slSt sl == slFault then (s.clearOnTime sl).setLive Reg.DSL_SSTAT_STATE slIdle sl else s

/-- A clear of DSL_BCLR lands; it is refused while GDUV is detected (R287). -/
def State.clearBank (s : State) (b : Nat) : State :=
  if s.dsl.gduv then s.setLive Reg.DSL_BFLT_CLR_REJ 1 b
  else ({ s with dsl := { s.dsl with faulted := s.dsl.faulted.filter (fun x => x != b) } }).releaseBank b

/-- SLICE_CLEAR: a host write of DSL_SCLR (R287). -/
def execSliceClear (p : Port) (sl : Nat) (s : State) : Res :=
  if sl < 48 then .next (s.hostLive p (0x03101014 + 0x40 * sl) 1 (fun s => s.clearSlice sl)) else .next s

/-- BANK_CLEAR: a host write of DSL_BCLR (R287). -/
def execBankClear (p : Port) (b : Nat) (s : State) : Res :=
  if b < 8 then .next (s.hostLive p (0x03100110 + 0x20 * b) 1 (fun s => s.clearBank b)) else .next s

/-- The profiles of every slice end, their gates go off and the bank high-sides open (R48, R65, R67, R430). -/
def State.slicesOff (s : State) : State :=
  let s := (List.range s.variant.slices).foldl (fun s n =>
    if s.slLead n ≠ n then s
    else
      let st := s.slSt n
      let s := if st = slPhase ∨ st = slWait then s.turnOff n s.now
        else if st = slDefer then (((s.deferred n s.now).disarm n).clearOnTime n).setSlSt n slIdle else s
      s.setSlice n { (s.slice n).dead s.now with offTimer := (s.slice n).offTimer }) s
  (List.range s.variant.banks).foldl State.bankShow s

end Sys2Proof.Machine
end

