-- ==== Sys2Proof/Machine/Queue.lean ====
section
/-! DEFINITION. The edge queue: entries and their states, lifelines, late and compensating edges, frogs and
tinks, delivery to the endpoints, and the unit write of an evaluation (R193 to R205, R207, R210, R216, R217). -/

namespace Sys2Proof.Machine

/-! ### Entries -/

/-- Entries of the edge queue (R193). -/
def queueSize : Nat := 32768

/-- The remote slot grid in sub-ticks (R164). (DEDUCED 95 of notes/assumptions) -/
def slotTicks : Nat := 1280000

/-- Entries that are FREE. -/
def State.freeEntries (s : State) : Nat := queueSize - s.ple.queue.length

/-- The lowest index from `k` on that a rising table does not list. -/
def firstGap : Nat → Tab QEntry → Nat
  | k, [] => k
  | k, (i, _) :: t => if i = k then firstGap (k + 1) t else k

/-- The entries of node `i`, with their indices. -/
def State.ofNode (s : State) (i : Nat) : List (Nat × QEntry) := s.ple.queue.filter (fun p => decide (p.2.node = i))

/-- COMMITTED or LANDED. -/
def QEntry.isCommitted (e : QEntry) : Bool := decide (e.st = .committed) || decide (e.st = .landed)

/-- SPEC or HELD. -/
def QEntry.isSpec (e : QEntry) : Bool := decide (e.st = .spec) || decide (e.st = .held)

/-- Order by target, then by placing. -/
def entryLe (a b : Nat × QEntry) : Bool :=
  sBefore a.2.target b.2.target || (decide (a.2.target = b.2.target) && decide (a.2.seq ≤ b.2.seq))

/-- The endpoint type of an endpoint word. -/
def epType (ep : W32) : Nat := ep.toNat / 2 ^ 28
/-- The index of an endpoint word. -/
def epIdx (ep : W32) : Nat := ep.toNat % 2 ^ 28

/-- An endpoint word with the slice of a pair's events in place of the pair (R159). -/
def epKey (ep : W32) : Nat := if ep.toNat / 2 ^ 28 = 2 then 2 ^ 28 + 2 * (ep.toNat % 2 ^ 28) else ep.toNat

/-- The order in which edges of one TCLK cycle reach their endpoints, over endpoint key, target and entry index: slices
in ascending index, and one endpoint's edges by target and then entry index (R197, R278). -/
def reachLe (a b : Nat × Stamp × Nat) : Bool :=
  decide (a.1 < b.1) || (decide (a.1 = b.1) &&
    (sBefore a.2.1 b.2.1 || (decide (a.2.1 = b.2.1) && decide (a.2.2 ≤ b.2.2))))

/-- What `reachLe` orders an entry by. -/
def reachKey (p : Nat × QEntry) : Nat × Stamp × Nat := (epKey p.2.endpoint, p.2.target, p.1)

/-- The entry drives a slice or a pair. -/
def QEntry.onSlice (e : QEntry) : Bool := decide (epType e.endpoint = 1) || decide (epType e.endpoint = 2)

/-- The committed entries of node `i` in order of target (R202). -/
def State.committedOf (s : State) (i : Nat) : List (Nat × QEntry) :=
  sortBy entryLe ((s.ofNode i).filter (fun p => p.2.isCommitted))

/-- The committed timeline of node `i` (R202). (DEDUCED 98 of notes/assumptions) -/
def State.committedLine (s : State) (i : Nat) : Timeline :=
  let l := s.committedOf i
  let x := s.nodeRt i
  ⟨if l.isEmpty then x.cmd else x.cmd0, l.map (fun p => (p.2.target, valueOn p.2.value))⟩

/-- The state in which the committed timeline of node `i` ends (R61, R156). (DEDUCED 93 of notes/assumptions) -/
def State.finalState (s : State) (i : Nat) : Bool :=
  match (s.committedOf i).getLast? with
  | some p => valueOn p.2.value
  | none => (s.nodeRt i).cmd

/-- The TARGET of the node's latest committed edge (R202). (DEDUCED 93 of notes/assumptions) -/
def State.lastTarget (s : State) (i : Nat) : Option Stamp := (s.committedOf i).getLast?.map (fun p => p.2.target)

/-- The ISSUE stamp of an edge (R164, R193): target minus lead, on the slot grid for a remote endpoint. -/
def issueOf (ep : W32) (target : Stamp) (lead : Nat) : Stamp :=
  let x := target - subTicks (64 * lead)
  if epType ep = 3 then floorTo slotTicks x else x

/-- The earliest instant at or after a stamp that an actuator allows (R203). -/
def earliest (ep : W32) (x : Stamp) : Stamp := if epType ep = 3 then ceilTo slotTicks x else ceilCycle x

/-- ISSUE lies in a later cycle than a stamp (R195, R197). -/
def afterCycle (x from_ : Stamp) : Bool := sBefore from_ (floorTo 64 x)

/-- Takes a queue entry. Ordinary entries leave RESERVE entries free (R216). None where none can be taken. -/
def State.place (s : State) (reserve : Bool) (e : QEntry) : Option (State × Nat) :=
  let free := s.freeEntries
  if free = 0 ∨ (reserve = false ∧ free ≤ s.conf Reg.PLE_QCFG_RESERVE) then none
  else
    let k := firstGap 0 s.ple.queue
    let s := s.setEntry k { e with seq := s.ple.seq }
    some ({ s with ple := { s.ple with seq := s.ple.seq + 1 } }, k)

/-- Frees an entry. -/
def State.dropEntry (s : State) (k : Nat) : State := s.setEntry k QEntry.free

/-- A SPEC entry. -/
def specEntry (node : Nat) (ep : W32) (target issue : Stamp) (value : BitVec 24) : QEntry :=
  { QEntry.free with target := target, issue := issue, node := node, value := value, st := .spec, endpoint := ep }

/-! ### Delivery to the endpoints -/

/-- The remote node a table entry names, as a key (R164). -/
def Remote.key (q : Remote) : Nat := q.port * 2 ^ 40 + q.da * 2 ^ 32 + (if q.port < 8 then 0 else q.ipv4)

/-- One COMMAND item: slot, target, value and table entry. -/
abbrev KwItem := Stamp × Stamp × BitVec 24 × Nat

/-- Cuts a list into pieces of at most `n`. (DEDUCED 95 of notes/assumptions) -/
def cutInto {α : Type} (n : Nat) : Nat → List α → List (List α)
  | 0, _ => []
  | k + 1, l => if l.isEmpty then [] else l.take n :: cutInto n k (l.drop n)

/-- Queues one COMMAND frame of a remote node (R164). (DEDUCED 95 of notes/assumptions) -/
def State.kwCommand (s : State) (l : List KwItem) : State :=
  match l with
  | [] => s
  | (slot, _, _, i) :: _ =>
    let q := s.skn.act.remote i
    let key := q.key
    let seq := Tab.get 0 s.ple.remSeq key
    let items := l.map (fun x => (⟨seq, slot, x.2.1, valueOn x.2.2.1, x.2.2.2⟩ : RemItem))
    let old := (Tab.get [] s.kw.items key).filter (fun x => decide ((seq + 2 ^ 16 - x.seq) % 2 ^ 16 < 16))
    let s := { s with
      ple := { s.ple with remSeq := Tab.put 0 s.ple.remSeq key ((seq + 1) % 2 ^ 16) }
      kw := { s.kw with items := Tab.put [] s.kw.items key (items ++ old) } }
    let body := l.map (fun x => bytesLE 8 x.2.1.toNat ++ bytesLE 2 (s.skn.act.remote x.2.2.2).channel ++
      bytesLE 3 x.2.2.1.toNat ++ [0, 0, 0])
    let udp := if q.udp = 0 then s.conf Reg.KW_UDP_PORT else q.udp
    s.kwPush (kwPort q.port) ⟨slot, 1, q.prio, BitVec.ofNat 8 q.da,
      if q.port < 8 then none else some (BitVec.ofNat 32 q.ipv4), BitVec.ofNat 16 udp,
      kwPayload 1 seq q.da (s.conf Reg.KW_CFG_SA) body⟩

/-- Packs the items of one slot for one remote node, in order of channel (R164). (DEDUCED 95 of notes/assumptions)
-/
def State.kwCommands (s : State) (l : List KwItem) : State :=
  let ch := fun (x : KwItem) => (s.skn.act.remote x.2.2.2).channel
  let l := sortBy (fun a b => decide (ch a ≤ ch b)) l
  match l with
  | [] => s
  | x :: _ =>
    let n := if (s.skn.act.remote x.2.2.2).port < 8 then 3 else 64
    (cutInto n (l.length + 1) l).foldl (fun s f => s.kwCommand f) s

/-- Bank `b` is ungated and ready (R73). (DEDUCED 36 of notes/assumptions) -/
def State.bankReady (s : State) (b : Nat) : Bool := bitOf (s.live Reg.SYS_PWRSTAT_BANK_READY) b

/-- The first slice an endpoint drives: itself, or the lower one of a pair (R159). -/
def epSlice (ep : W32) : Nat := if epType ep = 2 then 2 * epIdx ep else epIdx ep

/-- An edge of queue entry `k` reaches its endpoint at `at_` (R188, R195); a remote one is packed by `kwCommands`
instead. A slice whose bank is not ready takes it when the bank is (R74). (DEDUCED 111 of notes/assumptions) -/
def State.deliver (s : State) (node k : Nat) (ep : W32) (v : BitVec 24) (target issue at_ : Stamp) : State :=
  let on := valueOn v
  let s := s.capture 1 target.toNat ep.toNat v.toNat
  match epType ep with
  | 0 => s.gateEdge (epIdx ep) on (v.toNat % 2 ^ 16) at_
  | 1 | 2 =>
    let sl := epSlice ep
    if s.bankReady (sl / 6) then s.sliceEdge sl on issue at_
    else { s with dsl := { s.dsl with waiting := s.dsl.waiting ++ [⟨sl, on, issue, target, k⟩] } }
  | 3 => s.kwCommands [(floorTo slotTicks at_, target, v, epIdx ep)]
  | 4 =>
    let k := s.core (epIdx ep)
    s.setCore (epIdx ep) { k with callbacks := k.callbacks ++ [(issue, target, node, v)] }
  | _ => s

/-- MEMBERS_ON of the group above node `i` (R140). -/
def State.countMembers (s : State) (i : Nat) : State :=
  match s.groupOf i with
  | none => s
  | some g =>
    let n := ((s.members g).filter (fun j => (s.nodeRt j).cmd)).length
    s.setNodeRt g { s.nodeRt g with membersOn := n }

/-- STATE.CMD takes the state of an issued edge (R194). -/
def State.setCmd (s : State) (i : Nat) (v : BitVec 24) : State :=
  if (s.node i).kind = 0 then s
  else
    let x := s.nodeRt i
    let rate := if valueOn v then BitVec.ofNat 16 (v.toNat % 2 ^ 16) else x.lastRate
    (s.setNodeRt i { x with cmd := valueOn v, lastRate := rate }).countMembers i

/-- A resolved actual instant enters the node's ground timeline (R210, R211). -/
def State.resolved (s : State) (i : Nat) (ep : W32) (on : Bool) (a : Stamp) : State :=
  if (s.node i).kind = 0 then s
  else
    let ty := epType ep
    let tail := if 4 < ty then 0 else (if on then s.conf Reg.PLE_TAIL_ON_TAIL ty else s.conf Reg.PLE_TAIL_OFF_TAIL ty) * 2560000
    let le := fun (p q : Stamp × Bool) => sAtOrBefore p.1 q.1
    let x := s.nodeRt i
    s.setNodeRt i { x with
      ground := insertBy le (a + subTicks tail, on) x.ground
      acts := insertBy le (a, on) x.acts }

/-- Resolves the actual instant of an entry (R210). -/
def State.resolveEntry (s : State) (k : Nat) (a : Stamp) (nofb : Bool) : State :=
  let e := s.entry k
  if e.resolved then s
  else (s.setEntry k { e with actual := a, resolved := true, nofb := nofb }).resolved e.node e.endpoint (valueOn e.value) a

/-- The configured lead of an edge's direction (R210). (DEDUCED 86 of notes/assumptions) -/
def State.cfgLead (s : State) (i : Nat) (on : Bool) : Nat := if on then (s.node i).leadOn else (s.node i).leadOff

/-- Commits an entry: STATE.CMD follows, and an edge without feedback is resolved at ISSUE (R194, R210). -/
def State.commitEntry (s : State) (k : Nat) : State :=
  let e := s.entry k
  let on := valueOn e.value
  let x := s.nodeRt e.node
  let s := if (s.committedOf e.node).isEmpty then s.setNodeRt e.node { x with cmd0 := x.cmd } else s
  let s := s.setEntry k { e with st := .committed, cfgLead := s.cfgLead e.node on }
  let s := s.setCmd e.node e.value
  if epType e.endpoint = 0 ∨ epType e.endpoint = 4 then
    s.resolveEntry k (e.issue + subTicks (64 * (s.entry k).cfgLead)) false
  else s

/-- The nominal end N_w of wave `w` of the pass of boundary `b` (R196). (DEDUCED 87 of notes/assumptions) -/
def waveEnd (b : Stamp) (w : Nat) : Stamp := b + subTicks (64 * (400 + ((w + 1) * 512 + 2) / 3))

/-- A unit write of node `i` is pending that an ISSUE stamp lies after (R194, R198). -/
def State.unitPending (s : State) (i : Nat) (issue : Stamp) : Bool :=
  match s.ple.pass with
  | none => false
  | some p => p.todo.any (fun x => decide (x.1 = i) && (x.2.2 == (s.node i).composing) &&
      afterCycle issue (waveEnd p.b x.2.1))

/-- Entry `k` goes out without acting: a later edge reaches its slice in the same cycle (R273). -/
def State.passEntry (s : State) (k : Nat) : State :=
  let e := s.entry k
  (s.setEntry k { e with out := true }).capture 1 e.target.toNat e.endpoint.toNat e.value.toNat

/-- Sends entry `k` to its endpoint at `at_`. The entries of its slot for its remote node go with it: those
due, and late ones that wait for the slot (R164, R195). -/
def State.sendEntry (s : State) (k : Nat) (at_ : Stamp) : State :=
  let e := s.entry k
  if epType e.endpoint ≠ 3 then
    (s.setEntry k { e with out := true }).deliver e.node k e.endpoint e.value e.target e.issue at_
  else
    let key := (s.skn.act.remote (epIdx e.endpoint)).key
    let mates := s.ple.queue.filter (fun p => decide (p.1 = k) || (decide (epType p.2.endpoint = 3) &&
      decide (p.2.issue = e.issue) && !p.2.out && decide ((s.skn.act.remote (epIdx p.2.endpoint)).key = key) &&
      ((decide (p.2.st = .spec) && !s.unitPending p.2.node p.2.issue) || decide (p.2.st = .committed))))
    let s := mates.foldl (fun s p => if p.2.isSpec then s.commitEntry p.1 else s) s
    let s := mates.foldl (fun s p =>
      let s := s.setEntry p.1 { s.entry p.1 with out := true }
      s.capture 1 p.2.target.toNat p.2.endpoint.toNat p.2.value.toNat) s
    s.kwCommands (mates.map (fun p => (p.2.issue, p.2.target, p.2.value, epIdx p.2.endpoint)))

/-! ### Edges that are due -/

/-- An entry whose ISSUE cycle is not after that of `x`: SPEC ones of them are committed (R195, R201). -/
def QEntry.dueBy (e : QEntry) (x : Stamp) : Bool := !afterCycle e.issue x

/-- Order by ISSUE cycle, and within one by R197 and R278. -/
def dueLe (a b : Nat × QEntry) : Bool :=
  sBefore (floorTo 64 a.2.issue) (floorTo 64 b.2.issue) ||
    (decide (cycle a.2.issue = cycle b.2.issue) && reachLe (reachKey a) (reachKey b))

/-- The SPEC entries whose ISSUE cycle is not after that of `x`, of the nodes that `of_` picks, are committed as they
stand, but for those that a pending unit write withholds (R194, R195, R197, R201). -/
def State.commitDue (s : State) (x : Stamp) (of_ : Nat → Bool) : State :=
  (sortBy dueLe (s.ple.queue.filter (fun p => decide (p.2.st = .spec) && p.2.dueBy x && of_ p.2.node &&
    !s.unitPending p.2.node p.2.issue))).foldl (fun s p => s.commitEntry p.1) s

/-- Another entry of the list reaches the slice of entry `p` after it in one cycle, as `cyc` says: then `p` does not act
(R197, R273). -/
def overruled (cyc : QEntry → Nat) (l : List (Nat × QEntry)) (p : Nat × QEntry) : Bool :=
  p.2.onSlice && l.any (fun q =>
    decide (q.1 ≠ p.1) && decide (epKey q.2.endpoint = epKey p.2.endpoint) && decide (cyc q.2 = cyc p.2) &&
      reachLe (reachKey p) (reachKey q))

/-- The elements of a list that no later one shares its key with. -/
def lastPer {α : Type} (key : α → Nat) : List α → List α
  | [] => []
  | x :: t => if t.any (fun y => decide (key y = key x)) then lastPer key t else x :: lastPer key t

/-- The committed edges up to `x` that are not out yet reach their endpoints, of the nodes that `of_` picks: of those of
one slice in one cycle the last, where an edge without an entry comes after the others. Remote ones wait for their slot
(R164, R195, R197, R217, R273). -/
def State.sendDue (s : State) (x : Stamp) (of_ : Nat → Bool) : State :=
  let due := sortBy dueLe (s.ple.queue.filter (fun p => decide (p.2.st = .committed) && !p.2.out && p.2.dueBy x &&
    of_ p.2.node && decide (epType p.2.endpoint ≠ 3)))
  let direct := s.ple.direct
  let s := { s with ple := { s.ple with direct := [] } }
  let s := due.foldl (fun s p =>
    let beaten := overruled (fun e => cycle e.issue) due p || (p.2.onSlice && direct.any (fun d =>
      decide (epKey d.endpoint = epKey p.2.endpoint) && decide (cycle d.at_ = cycle p.2.issue)))
    if beaten then s.passEntry p.1 else s.sendEntry p.1 p.2.issue) s
  (lastPer (fun d => epKey d.endpoint) direct).foldl (fun s d =>
    s.deliver d.node queueSize d.endpoint d.value d.target d.at_ d.at_) s

/-! ### Late and compensating edges -/

/-- With no entry free, a late, compensating or fail edge acts directly on a channel, slice or pair, and is
dropped for the others (R217); a slice takes it with the edges of its cycle (R273). -/
def State.directEdge (s : State) (i : Nat) (v : BitVec 24) (at_ : Stamp) : State :=
  let ep := BitVec.ofNat 32 (s.node i).endpoint
  let s :=
    if epType ep ≤ 2 then
      let s := s.setCmd i v
      let target := at_ + subTicks (64 * s.lead i (valueOn v))
      let s := if epType ep = 0 then s.deliver i queueSize ep v target at_ at_
        else { s with ple := { s.ple with direct := s.ple.direct ++ [⟨i, ep, v, target, at_⟩] } }
      s.resolved i ep (valueOn v) (at_ + subTicks (64 * s.cfgLead i (valueOn v)))
    else s
  (s.setLive Reg.PLE_QEVT_RESV 1).raiseNow 17 i

/-- A late edge of node `i` (R202): `x` is N_w or F. It is committed at once, with ISSUE at the instant its actuator
allows, and reaches its endpoint there without SLIP, whenever its unit lands; or it comes back as a SPEC edge: target
and ISSUE. (DEDUCED 98 of notes/assumptions) -/
def State.lateEdge (s : State) (i : Nat) (v : BitVec 24) (x : Stamp) (prog : Bool) : State × Option (Stamp × Stamp) :=
  let ep := BitVec.ofNat 32 (s.node i).endpoint
  let lead := s.lead i (valueOn v)
  let at_ := earliest ep x
  let t := at_ + subTicks (64 * lead)
  let t := match s.lastTarget i with
    | some l => sMax t (l + 64)
    | none => t
  let issue := issueOf ep t lead
  if sBefore at_ issue then (s, some (t, issue))
  else
    match s.place true { specEntry i ep t at_ v with prog := prog, late := true, comp := true } with
    | none => (s.directEdge i v at_, none)
    | some (s, k) =>
      let s := s.commitEntry k
      (((s.setLive Reg.PLE_QEVT_LATE 1).bumpSat Reg.PLE_LATEISS_CNT).raiseNow 14 i, none)

/-- A compensating edge at or after `x` (R205, R207). (DEDUCED 93 of notes/assumptions) -/
def State.compensate (s : State) (i : Nat) (v : BitVec 24) (x : Stamp) : State :=
  match s.lateEdge i v x false with
  | (s, none) => s
  | (s, some (t, issue)) =>
    match s.place true { specEntry i (BitVec.ofNat 32 (s.node i).endpoint) t issue v with comp := true } with
    | some (s, _) => s
    | none => s.directEdge i v (earliest (BitVec.ofNat 32 (s.node i).endpoint) x)

/-! ### Frogs, tinks and the fail state -/

/-- FROG of one node at `x`: its SPEC and HELD entries whose ISSUE cycle lies after that of `x` (R195, R201). -/
def State.frogNode (s : State) (i : Nat) (x : Stamp) : State :=
  (s.ofNode i).foldl (fun s p =>
    if p.2.isSpec && afterCycle p.2.issue x then s.dropEntry p.1 else s) s

/-- TINK of one node at `x`: its SPEC entry with the latest target, the one placed later of two; an entry whose ISSUE
cycle is that of `x` is committed (R195, R201). -/
def State.tinkNode (s : State) (i : Nat) (x : Stamp) : State :=
  let l := sortBy entryLe ((s.ofNode i).filter (fun p =>
    decide (p.2.st = .spec) && afterCycle p.2.issue x))
  match l.getLast? with
  | some p => s.dropEntry p.1
  | none => s

/-- The fail value of a record: none for HOLD (R156). -/
def NodeRec.failValue (r : NodeRec) : Option (BitVec 24) :=
  if r.fail = 0 then some (edgeValue false 0)
  else if r.fail = 1 then some (edgeValue true (if r.switching then 0 else r.rateFix))
  else none

/-- The constant timeline of a node in its fail state over its span (R156). -/
def State.failLine (s : State) (i : Nat) : State :=
  let r := s.node i
  let x := s.nodeRt i
  s.setNodeRt i { x with line := ⟨if r.fail = 2 then x.cmd else decide (r.fail = 1), []⟩ }

/-- A node enters its fail state, with its edges at or after `x` (R155, R156, R205). A node already there
receives no second edge (R431); `hard` causes last until RECOVER. (DEDUCED 93 of notes/assumptions) -/
def State.failEnter (s : State) (i : Nat) (x : Stamp) (hard : Bool) : State :=
  let r := s.node i
  if !r.isEnd then s
  else
    let q := s.nodeRt i
    let was := q.failing
    let q := if hard then { q with failHard := true } else { q with failMode := true }
    let s := s.setNodeRt i q
    if was then s
    else
      let s := (s.setNodeSt i stFail true).frogNode i x
      match r.failValue with
      | some v => if r.actuated && decide (s.finalState i ≠ valueOn v) then s.compensate i v x else s
      | none => s

/-- A node leaves its fail state (R156). -/
def State.failLeave (s : State) (i : Nat) : State :=
  let s := s.setNodeSt i stFail false
  s.setNodeRt i { s.nodeRt i with failHard := false, failMode := false }

/-- The stop actions of R207 at `x`. -/
def State.stopActions (s : State) (x : Stamp) : State :=
  s.defined.foldl (fun s i =>
    if (s.node i).actuated && !(s.nodeRt i).failing then
      let s := s.frogNode i x
      if (s.committedLine i).on x then s.compensate i (edgeValue false 0) x else s
    else s) s

/-- EREQ (R124, R200, R216): a PROG entry of the node bound to the endpoint, refused when its commit instant
lies before F, when the queue keeps its reserve, or in the node's fail state. (DEDUCED 92 of notes/assumptions) -/
def State.ereq (s : State) (core : Nat) (target : Stamp) (ep : W32) (v : BitVec 24) : State :=
  match s.boundTo ep.toNat with
  | none => s.raiseNow 5 core
  | some i =>
    let issue := issueOf ep target (s.lead i (valueOn v))
    let e := { specEntry i ep target issue v with prog := true }
    let bad := (s.nodeRt i).failing || sBefore (floorTo 64 issue) s.fStamp
    match (if bad then none else s.place false e) with
    | some (s, _) => s
    | none => s.setLive Reg.PLE_QEVT_PREF 1

/-! ### The unit write -/

/-- An edge of the list K of R199: target, value, ISSUE, and whether it is a late edge. -/
abbrev KEdge := Stamp × BitVec 24 × Stamp × Bool

/-- The contradiction candidates of R202: at the start of the node's own window, and just after each committed target
in the span. (DEDUCED 87 of notes/assumptions) -/
def State.contradictions (s : State) (g : Ground) (line : Timeline) : List (Stamp × BitVec 24) :=
  let c := s.committedLine g.i
  let w := (s.ownWindow g.i g.b).1
  let start := if line.on w ≠ c.on w then [(w, s.valueAt g (line.on w) w)] else []
  start ++ c.changes.filterMap (fun p =>
    if sAtOrBefore g.lo p.1 && sBefore p.1 g.hi && decide (line.on p.1 ≠ c.on p.1) then
      some (p.1 + 64, s.valueAt g (line.on p.1) p.1)
    else none)

/-- A late candidate with target `t` becomes a late edge, unless the committed timeline already holds its value there
(R202). A SPEC one joins K. (DEDUCED 87 of notes/assumptions) -/
def State.lateCandidate (s : State) (i : Nat) (nw t : Stamp) (v : BitVec 24) (prog : Bool) : State × Option KEdge :=
  let ep := BitVec.ofNat 32 (s.node i).endpoint
  if (s.committedLine i).on t = valueOn v then (s, none)
  else
    match s.lateEdge i v nw prog with
    | (s, some (t, issue)) =>
      if prog then
        match s.place true { specEntry i ep t issue v with prog := true, comp := true } with
        | some (s, _) => (s, none)
        | none => (s.directEdge i v (earliest ep nw), none)
      else (s, some (t, v, issue, true))
    | (s, none) => (s, none)

/-- Places the edges of K from the first that is not kept on (R199, R216). Answers whether all entered. -/
def State.placeAll (s : State) (i : Nat) (ep : W32) (nw : Stamp) : List KEdge → State × Bool
  | [] => (s, true)
  | (t, v, issue, late) :: rest =>
    match s.place late { specEntry i ep t issue v with comp := late } with
    | some (s, _) => State.placeAll s i ep nw rest
    | none => if late then State.placeAll (s.directEdge i v (earliest ep nw)) i ep nw rest else (s, false)

/-- How a unit write ends (R199). -/
inductive Verdict where
  | confirm
  | extend
  | tink
  | frog
  deriving DecidableEq, Repr

/-- The number of leading edges of the two lists that are equal. -/
def sameHead : List (Stamp × BitVec 24) → List (Stamp × BitVec 24) → Nat
  | a :: as, b :: bs => if a = b then sameHead as bs + 1 else 0
  | _, _ => 0

/-- decide(S, K) of R199: the verdict and the number of entries of S that are kept. (DEDUCED 87 of
notes/assumptions) -/
def verdict (sl kl : List (Stamp × BitVec 24)) : Verdict × Nat :=
  let m := sl.length
  let n := sameHead sl kl
  if n = m ∧ kl.length = m then (.confirm, m)
  else if n = m then (.extend, m)
  else if m ≤ n + 1 ∧ m - 1 ≤ kl.length then (.tink, m - 1)
  else (.frog, 0)

/-- STATUS.QSTARVED and the queue-full event (R216). -/
def State.starved (s : State) (i : Nat) (ok : Bool) : State :=
  if ok then s.setNodeSt i stStarved false
  else
    let s := s.setLive Reg.PLE_QEVT_FULL 1
    let s := if s.nodeSt i stStarved then s else s.raiseNow 16 i
    s.setNodeSt i stStarved true

/-- Counts an automatic frog or tink of the pass (R199). -/
def State.countUndo (s : State) (v : Verdict) : State :=
  match s.ple.pass with
  | none => s
  | some p =>
    let p := match v with
      | .frog => { p with frogs := p.frogs + 1 }
      | .tink => { p with tinks := p.tinks + 1 }
      | _ => p
    { s with ple := { s.ple with pass := some p } }

/-- The unit write of node `i` at N_w (R185, R197, R199, R200, R202, R204). -/
def State.unitWrite (s : State) (g : Ground) (line : Timeline) (cands : List (Stamp × BitVec 24)) (nw : Stamp) : State :=
  let i := g.i
  let ep := BitVec.ofNat 32 (s.node i).endpoint
  let items := cands ++ (s.contradictions g line).filter (fun x => !cands.contains x)
  let items := sortBy (fun (a b : Stamp × BitVec 24) => sAtOrBefore a.1 b.1) items
  let withIssue := items.map (fun x => (x.1, x.2, issueOf ep x.1 (s.lead i (valueOn x.2))))
  let ordinary : List KEdge := (withIssue.filter (fun x => afterCycle x.2.2 nw)).map (fun x => (x.1, x.2.1, x.2.2, false))
  let late := (withIssue.filter (fun x => !afterCycle x.2.2 nw)).map (fun x => (x.1, x.2.1, false))
  let open_ := (s.ofNode i).filter (fun p => p.2.isSpec && afterCycle p.2.issue nw)
  let (s, lateProg) := (open_.filter (fun p => p.2.prog)).foldl (fun (acc : State × List (Stamp × BitVec 24 × Bool)) p =>
    let issue := issueOf ep p.2.target (acc.1.lead i (valueOn p.2.value))
    if afterCycle issue nw then (acc.1.setEntry p.1 { p.2 with issue := issue }, acc.2)
    else (acc.1.dropEntry p.1, acc.2 ++ [(p.2.target, p.2.value, true)])) (s, [])
  let lates := sortBy (fun (a b : Stamp × BitVec 24 × Bool) => sAtOrBefore a.1 b.1) (late ++ lateProg)
  let (s, extra) := lates.foldl (fun (acc : State × List KEdge) x =>
    let r := acc.1.lateCandidate i nw x.1 x.2.1 x.2.2
    (r.1, acc.2 ++ r.2.toList)) (s, [])
  let ks := sortBy (fun (a b : KEdge) => sAtOrBefore a.1 b.1) (ordinary ++ extra)
  let ss := sortBy entryLe (open_.filter (fun p => !p.2.prog))
  let (v, keep) := verdict (ss.map (fun p => (p.2.target, p.2.value))) (ks.map (fun x => (x.1, x.2.1)))
  let s := s.countUndo v
  let s := (ss.drop keep).foldl (fun s p => s.dropEntry p.1) s
  let s := ((ss.take keep).zip ks).foldl (fun s x => s.setEntry x.1.1 { x.1.2 with issue := x.2.2.2.1 }) s
  let (s, ok) := s.placeAll i ep nw (ks.drop keep)
  s.starved i ok

end Sys2Proof.Machine
end

