-- ==== Sys2Proof/Machine/Ple.lean ====
section
/-! DEFINITION. The placement pass: waves, the evaluation of a node, deadlines, and the issue, landing and
resolution of edges (R138 to R149, R155 to R162, R185 to R198, R206 to R217, R359, R433). -/

namespace Sys2Proof.Machine

/-! ### The pose and the motion state -/

/-- The age of the pose in force exceeds PLE_CFG.MAXAGE at boundary `b` (R169). -/
def State.poseOld (s : State) (b : Stamp) : Bool :=
  s.flag Reg.PLE_POSE_CTL_VALID && decide (((s.conf Reg.PLE_CFG_MAXAGE * msTicks : Nat) : Int) < sdiff s.pose.t b)

/-- A pose takes effect at a boundary, or is refused for a stamp after it (R168, R169). -/
def State.applyPose (s : State) (q : Pose) : State :=
  if sBefore s.row.cur q.t then s.setLive Reg.PLE_POSE_CTL_REJ 1
  else
    let s := s.setLive64 Reg.PLE_POSE_T_LO_T Reg.PLE_POSE_T_HI_T q.t.toNat
    let s := (s.setLive Reg.PLE_POSE_E_E (unsig 32 q.e)).setLive Reg.PLE_POSE_N_N (unsig 32 q.n)
    let s := (s.setLive Reg.PLE_POSE_HDG_HDG q.hdg.toNat).setLive Reg.PLE_POSE_SPD_SPD (unsig 32 q.spd)
    let s := (s.setLive Reg.PLE_POSE_ACC_ACC (unsig 32 q.acc)).setLive Reg.PLE_POSE_YR_YR (unsig 32 q.yr)
    s.setLive Reg.PLE_POSE_CTL_VALID 1

/-- A host APPLY: the port's copy waits for step 3 of the next boundary (R168). -/
def State.hostApplyPose (s : State) (p : Port) : State :=
  { s with ple := { s.ple with hostPose := s.ple.hostPose ++ [(p, s.stagedPose (.host p))] } }

/-- POSE_APPLY: a host write of PLE_POSE_CTL.APPLY (R168). -/
def execPoseApply (p : Port) (s : State) : Res := .next (s.hostLive p 0x02000120 1 (fun s => s.hostApplyPose p))

/-- The host poses take effect, before the program outputs of the boundary (R168). -/
def State.takeHostPoses (s : State) : State :=
  let l := s.ple.hostPose
  l.foldl (fun s x => s.applyPose x.2) { s with ple := { s.ple with hostPose := [] } }

/-- The visible fusion result is stale at boundary `b` (R433). -/
def State.fusionOld (s : State) (b : Stamp) : Bool :=
  decide (0 < s.live Reg.FGE_ONUM_N) &&
    decide (((4 * s.conf Reg.FGE_CFG_ODIV * s.period : Nat) : Int) <
      sdiff (BitVec.ofNat 64 (s.live64 Reg.FGE_OUTT_LO_T Reg.FGE_OUTT_HI_T)) b)

/-- A value that node `i` depends on is stale at boundary `b` (R145, R169, R433). (DEDUCED 134 of notes/assumptions)
-/
def State.dependsStale (s : State) (i : Nat) (b : Stamp) : Bool :=
  s.poseOld b || (s.frameChain i).any (fun f => s.frameStale f b) ||
    ((s.node i).isEnd && (s.node i).rule ruTarget && s.fusionOld b)

/-- The age check and the history once the pose in force is settled. While it is stale every node is, and when that
ends each node is as what else it depends on (R169, R171, R214). (DEDUCED 134 of notes/assumptions) -/
def State.settlePose (s : State) : State :=
  let b := s.row.cur
  if !s.flag Reg.PLE_POSE_CTL_VALID then s
  else
    let old := s.poseOld b
    let s := s.setLive Reg.PLE_POSE_CTL_STALE old.toNat
    let s := if old && !s.ple.staleSeen then s.raiseNow 6 0 else s
    let s :=
      if old then s.defined.foldl (fun s i => s.setNodeSt i stStale true) s
      else if s.ple.staleSeen then s.defined.foldl (fun s i => s.setNodeSt i stStale (s.dependsStale i b)) s
      else s
    let keep := s.ple.hist.filter (fun x => sAtOrBefore (b - subTicks (2500 * msTicks)) x.1)
    { s with ple := { s.ple with staleSeen := old, hist := (b, s.pose) :: keep } }

/-- Enters STOPPED or REVERSE (R206). -/
def State.enterStop (s : State) (st : Nat) : State :=
  (s.setLive Reg.PLE_MOTION_STATE st).bump Reg.PLE_MOTION_STOPS

/-- The motion state after the pose in force, with whether the stop actions run (R206). A stale pose changes
none. (DEDUCED 99 of notes/assumptions) -/
def State.motionStep (s : State) : State × Bool :=
  if !s.flag Reg.PLE_POSE_CTL_VALID || s.flag Reg.PLE_POSE_CTL_STALE then (s, false)
  else
    let p := s.pose
    let v : Int := s.conf Reg.PLE_STOP_STOP_V
    let st := s.live Reg.PLE_MOTION_STATE
    let cut := s.conf Reg.PLE_STOP_STOP_CUT = 1
    if st = 0 ∨ st = 1 then
      if p.spd ≤ -v then (s.enterStop 3, true)
      else if st = 0 then
        if (p.spd.natAbs : Int) < v then
          if cut then (s.enterStop 2, true)
          else ({ s.setLive Reg.PLE_MOTION_STATE 1 with ple := { s.ple with dwell := p.t } }, false)
        else (s, false)
      else if v ≤ p.spd then (s.setLive Reg.PLE_MOTION_STATE 0, false)
      else if ((s.conf Reg.PLE_STOP_DWELL * 10 * msTicks : Nat) : Int) ≤ sdiff s.ple.dwell p.t then (s.enterStop 2, true)
      else (s, false)
    else if st = 2 then
      if v ≤ p.spd then (s.setLive Reg.PLE_MOTION_STATE 0, false)
      else if p.spd ≤ -v then (s.enterStop 3, false)
      else (s, false)
    else if -v < p.spd then (s.enterStop 2, decide (s.conf Reg.PLE_STOP_REV = 1))
    else (s, false)

/-- DWELL_EXPIRY: a SLOW machine whose dwell has reached DWELL becomes STOPPED, with the stop actions at F
(R206, R207). What is due by F is committed first (R195, R201). Step 3 of a boundary performs the same transition.
(DEDUCED 99 of notes/assumptions) -/
def execDwellExpiry (s : State) : Res :=
  if s.rowsRun && decide (s.live Reg.PLE_MOTION_STATE = 1) && !s.recordFirst s.fStamp && !s.flag Reg.PLE_POSE_CTL_STALE &&
      decide (((s.conf Reg.PLE_STOP_DWELL * 10 * msTicks : Nat) : Int) ≤ sdiff s.ple.dwell s.pose.t) then
    let s := (s.advanceTo s.fStamp).commitDue s.fStamp (fun _ => true)
    .next (((s.enterStop 2).stopActions s.fStamp).sendDue s.fStamp (fun _ => true))
  else .next s

/-! ### Waves -/

/-- A node is due in the row (R161). -/
def State.due (s : State) (i : Nat) : Bool :=
  let r := s.node i
  decide (i < 16384) || decide (s.live Reg.SYS_PWRSTAT_CUR = 2) || decide (s.row.num.toNat % r.divisor = r.phase)

/-- Forms waves (R189): what is left to take, the composing groups that wait for their close, and the nodes
whose evaluations have ended in earlier waves. (DEDUCED 87 of notes/assumptions) -/
def State.formWaves (s : State) (due : List Nat) :
    Nat → Nat → List Nat → List Nat → List Nat → List (Nat × Nat × Bool)
  | 0, _, _, _, _ => []
  | fuel + 1, w, left, groups, done =>
    if left.isEmpty && groups.isEmpty then []
    else
      let ready := groups.filter (fun g => ((s.members g).filter (fun j => due.contains j)).all (fun j => done.contains j))
      let closes := ready.take 16
      let take := left.foldl (fun (acc : List Nat × Bool) i =>
        if acc.2 || decide (16 ≤ closes.length + acc.1.length) || (decide (i ≠ 0) && acc.1.contains (s.node i).parent) then
          (acc.1, true)
        else (i :: acc.1, false)) ([], false)
      let now := take.1.reverse
      let comp := now.filter (fun i => (s.node i).composing)
      let ended := closes ++ now.filter (fun i => !(s.node i).composing)
      closes.map (fun g => (g, w, true)) ++ now.map (fun i => (i, w, false)) ++
        State.formWaves s due fuel (w + 1) (left.drop now.length) (groups.filter (fun g => !closes.contains g) ++ comp)
          (done ++ ended)

/-- The waves of a list of nodes in ascending index (R189). -/
def State.waves (s : State) (due : List Nat) : List (Nat × Nat × Bool) :=
  s.formWaves due (2 * due.length + 2) 0 due [] []

/-- W_max for a row period in sub-ticks (R190). -/
def waveCeil (period : Nat) : Nat := period * 600 * 96 / (usTicks * 256 * 100)

/-- Step 4: the pass of the row starts with the due and the carried nodes; in a row without a pass the carried nodes
wait for the next (R169, R189, R192). -/
def State.startPass (s : State) : State :=
  let run := s.places && decide (s.conf Reg.PLE_CFG_EN = 1) && s.flag Reg.PLE_POSE_CTL_VALID
  let carried := s.ple.carry.filter (fun i => decide ((s.node i).kind ≠ 0))
  let s := s.setLive Reg.PLE_WAVES_CEIL (waveCeil s.period)
  if !run then { s with ple := { s.ple with pass := none } }
  else
    let due := s.defined.filter (fun i => s.due i || carried.contains i)
    let todo := s.waves due
    let s := (s.setLive Reg.PLE_STAT_BUSY 1).setLive Reg.PLE_STAT_CARRY (!carried.isEmpty).toNat
    { s with ple := { s.ple with pass := some ⟨s.row.cur, todo, carried, 0, 0, 0, 0⟩, carry := [] } }

/-- The pass ends: its counts are reported (R191, R199, R235). (DESIGN CHOICE 85 of notes/assumptions) -/
def State.endPass (s : State) (p : Pass) : State :=
  let s := (s.setLive Reg.PLE_STAT_BUSY 0).setLive Reg.PLE_STAT_CARRY 0
  let s := (s.setLive Reg.PLE_WAVES_LAST p.waves).setLive Reg.PLE_EVALS_CNT p.evals
  let s := (s.setLive Reg.PLE_UNDO_FROGS (min 65535 p.frogs)).setLive Reg.PLE_UNDO_TINKS (min 65535 p.tinks)
  let s := (s.setLive Reg.PLE_STALL_CYC (Config.stallCycles s.draws).toNat).showMisses
  { s.drawn with ple := { s.ple with pass := none } }

/-! ### The evaluation of a node -/

/-- Node `i` lies in the scope of dispute quantity `q` (R359). -/
def State.inScope (s : State) (i q : Nat) : Bool :=
  let root := s.conf Reg.DSP_CFG_SCOPE q
  (decide (i = root) || (s.above i).contains root) &&
    (!decide (s.conf Reg.DSP_CFG_TGTONLY q = 1) || (s.node i).rule ruTarget)

/-- Some dispute quantity whose state is at least `st` has node `i` in its scope (R359). -/
def State.disputed (s : State) (i st : Nat) : Bool :=
  (List.range 8).any (fun q => decide (st ≤ s.live Reg.DSP_STAT_STATE q) && s.inScope i q)

/-- Entry into or exit from staleness of a frame, with its event (R145). -/
def State.noteStale (s : State) (i : Nat) (now : Bool) : State :=
  let x := s.nodeRt i
  let s := if now && !x.staleSeen then s.raiseNow 6 i else s
  s.setNodeRt i { s.nodeRt i with staleSeen := now }

/-- The limit acts on the source term of frame `i` at an instant of the prediction of some node below it (R142, R171,
R172). (DEDUCED 87 of notes/assumptions) -/
def State.clamps (s : State) (i : Nat) (b : Stamp) : Bool :=
  decide ((s.node i).yawlim ≠ 0) &&
    (let last := ((s.subtree i).filter (fun j => (s.node j).isEnd)).foldl (fun t j => sMax t (s.span j b).2) b
     let acts := fun (t : Stamp) => (s.limited i b t).2.2
     acts last || (List.range 33).any (fun k =>
       let t := b + subTicks (k * 80 * msTicks)
       sAtOrBefore t last && acts t))

/-- Evaluates a FRAME (R140, R142, R144, R145). -/
def State.evalFrame (s : State) (i : Nat) (b : Stamp) : State :=
  let r := s.node i
  let s := s.noteStale i (decide (i ≠ 0) && s.frameStale i b)
  let s := s.setNodeSt i stStale (s.dependsStale i b)
  let s := if r.tsrc = 4 then s.evalHitch i b else s
  let x := s.nodeRt i
  if i = 0 then
    let p := s.pose
    s.setNodeRt 0 { x with yawNow := p.hdg, yawRate := p.yr, srcStamp := some p.t }
  else
    let q := s.limited i b b
    let yaw := (r.yaw0 : Int) * 65536 + q.1
    let s := s.setNodeRt i { x with yawNow := BitVec.ofInt 32 (divRound yaw 65536), yawRate := divRound q.2.1 65536 }
    s.setNodeSt i stClamped (s.clamps i b)

/-- Sets a status field and raises an event of node `i` `n` times, not at all where `n` is 0. -/
def State.raiseEach (s : State) (f : Fld) (ev i : Nat) : Nat → State
  | 0 => s
  | n + 1 => ((State.raiseEach s f ev i n).setLive f 1).raiseNow ev i

/-- Shows what the probes of an evaluation met: each truncated probe and each overflow raises its event (R175, R178,
R224). -/
def State.showMet (s : State) (i : Nat) (m : Met) : State :=
  let s := s.raiseEach Reg.PLE_STAT_TRUNC 10 i m.trunc
  let s := s.raiseEach Reg.PLE_STAT_TGT_OVF 11 i m.ovf
  let s := m.faults.foldr (fun k s => s.dirFault (k / 2 ^ 20) (k % 2 ^ 20)) s
  m.lines.foldr (fun n s => s.touchAhead n) s

/-- The rate last carried by an edge of node `i` whose target is not after `t` (R183). -/
def State.carriedRate (s : State) (i : Nat) (t : Stamp) : Nat :=
  (s.committedOf i).foldl (fun v p =>
    if sAtOrBefore p.2.target t && valueOn p.2.value then p.2.value.toNat % 2 ^ 16 else v) (s.nodeRt i).lastRate.toNat

/-- Decides node `i` and writes its unit (R172 to R187, R199). Where R184 ends the span before t_r, the state after the
last candidate kept counts as D(t_r). (DEDUCED 87 of notes/assumptions) -/
def State.decideNode (s : State) (i : Nat) (b nw : Stamp) : State :=
  let r := s.node i
  let (lo, hi) := s.span i b
  let sight := if r.composing then ⟨[], [], none, [], ⟨0, 0, [], []⟩⟩ else s.look i b lo hi
  let s := s.showMet i sight.met
  let members := if r.composing then (s.members i).map (fun j => (s.nodeRt j).line) else []
  let owner := match s.groupOf i with
    | some g => if (s.node g).own then some (s.nodeRt g).line else none
    | none => none
  let g : Ground := ⟨i, b, lo, hi, sight, members, owner⟩
  let runs := s.keptRuns g
  let (cands, hi, cut) := capCands hi (s.candidates g runs (s.carriedRate i lo))
  let s := if cut then s.setLive Reg.PLE_STAT_EDGE_CAP 1 else s
  let g := { g with hi := hi }
  let line : Timeline := ⟨(runs.headD (lo, false, false)).2.1,
    (cands.filter (fun c => !c.2.2)).map (fun c => (c.1, valueOn c.2.1))⟩
  let s := s.setNodeRt i { s.nodeRt i with line := line }
  let s := if r.actuated then s.unitWrite g line (cands.map (fun c => (c.1, c.2.1))) nw else s
  let tr := b + subTicks (s.period + 64 * s.lead i true)
  let rate := if line.on tr then s.rateAt g tr else 0
  s.setNodeRt i { s.nodeRt i with rateNext := some (BitVec.ofNat 16 rate) }

/-- The node in its fail state after its evaluation: its timeline and its setpoint (R156, R187). -/
def State.showFail (s : State) (i : Nat) : State :=
  let r := s.node i
  let s := s.failLine i
  let rate : Option (BitVec 16) :=
    if r.fail = 1 then some (BitVec.ofNat 16 r.rateFix) else if r.fail = 0 then some 0 else none
  s.setNodeRt i { s.nodeRt i with rateNext := rate }

/-- Exclusion at an evaluation (R158). -/
def State.exclude (s : State) (i : Nat) (nw : Stamp) : State :=
  let bad := s.overLead i || (decide ((s.node i).etype = 3) && decide (3 ≤ (s.nodeRt i).miss))
  if bad then
    let s := if s.nodeSt i stExcluded then s else (s.setNodeSt i stExcluded true).raiseNow 7 i
    s.failEnter i nw true
  else s

/-- The evaluation of a GROUP or LEAF begins at its index: the leads in use and the STATUS bits (R140, R145, R150,
R359). (DEDUCED 134 of notes/assumptions) -/
def State.evalStart (s : State) (i : Nat) (b : Stamp) : State :=
  let s := s.takeLeads i
  let s := s.setNodeSt i stStale (s.dependsStale i b)
  s.setNodeSt i stDispute (s.disputed i 1)

/-- The evaluation of a GROUP or LEAF ends: exclusion, the causes of a fail state, and the decision (R155 to R158,
R180). What is due by N_w is committed before it, and issued with the late edges that it makes (R195, R197, R202). -/
def State.evalEnd (s : State) (i : Nat) (b nw : Stamp) : State :=
  let s := (s.commitDue nw (fun j => decide (j = i))).exclude i nw
  let strict := (s.node i).rule ruStrict && (s.dependsStale i b || s.disputed i 2)
  let s := if s.flag Reg.HP_SAFE_SAFE || strict then s.failEnter i nw true else s
  let s := if (s.nodeRt i).failing then s.showFail i else s.decideNode i b nw
  s.sendDue nw (fun j => decide (j = i))

/-- One evaluation of a pass: node `i` at its index, or the close of a composing group, at which its evaluation ends
(R138). -/
def State.evaluate (s : State) (i : Nat) (close carried : Bool) (b nw : Stamp) : State :=
  let r := s.node i
  if close then s.evalEnd i b nw
  else
    let s := s.setNodeSt i stCarried carried
    let s := s.setNodeRt i { s.nodeRt i with lastRow := BitVec.ofNat 8 s.row.num.toNat }
    if r.kind = kFrame then s.evalFrame i b
    else if r.composing then s.evalStart i b
    else (s.evalStart i b).evalEnd i b nw

/-! ### Held entries -/

/-- A held entry is issued at once with SLIP at the landing; in replay at its own instant. `pass` says that a later
edge reaches its slice in the same cycle (R194, R198, R273). -/
def State.slipEntry (s : State) (k : Nat) (at_ : Stamp) (pass : Bool) : State :=
  let e := s.entry k
  let send := fun (s : State) (t : Stamp) => if pass then s.passEntry k else s.sendEntry k t
  if s.rpl.on then send (s.commitEntry k) e.issue
  else
    let s := s.setEntry k { e with slip := true }
    let s := send (s.commitEntry k) at_
    ((s.setLive Reg.PLE_QEVT_SLIP 1).raiseNow 13 e.node).logLateEngine 13

/-- Issues entries whose ISSUE has passed, at a landing, in the order of R197 (R198). -/
def State.slipEntries (s : State) (at_ : Stamp) (l : List (Nat × QEntry)) : State :=
  let l := sortBy (fun p q => reachLe (reachKey p) (reachKey q)) l
  let cyc := fun (e : QEntry) => if s.rpl.on then cycle e.issue else 0
  l.foldl (fun s p => s.slipEntry p.1 at_ (overruled cyc l p)) s

/-- The entries that wait for the unit write of a node of the list (R194). (DEDUCED 98 of notes/assumptions) -/
def State.heldOf (s : State) (nodes : List Nat) : List (Nat × QEntry) :=
  s.ple.queue.filter (fun p => decide (p.2.st = .held) && nodes.contains p.2.node)

/-- The entries of node `i` that a landing at `land` of its unit write of N_w finds overtaken: those held, and those it
has just placed whose ISSUE cycle has passed since N_w (R194, R198). (DEDUCED 98 of notes/assumptions) -/
def State.overtaken (s : State) (i : Nat) (nw land : Stamp) : List (Nat × QEntry) :=
  (s.ofNode i).filter (fun p => decide (p.2.st = .held) || (decide (p.2.st = .spec) && afterCycle p.2.issue nw &&
    sBefore (floorTo 64 p.2.issue) (floorTo 64 land)))

/-! ### Rows of the table -/

/-- The evaluation of node `i` that a pass would end next: only evaluations of its earliest wave can end. -/
def Pass.next (p : Pass) (i : Nat) : Option (Nat × Bool) :=
  let w := p.todo.foldl (fun m x => min m x.2.1) (2 ^ 32)
  (p.todo.find? (fun x => decide (x.1 = i) && decide (x.2.1 = w))).map (fun x => x.2)

/-- The pass deadline of the row (R192). -/
def State.deadline (s : State) : Stamp := s.row.next - subTicks usTicks

/-- In replay a LATE_PLE entry stops the pass of its row at its node (R42). -/
def State.replayStops (s : State) (node : Nat) : Bool :=
  match s.rpl.lateAt with
  | some k => s.rpl.on && decide (k ≤ node)
  | none => false

/-- NODE_EVALUATION_END: the evaluation of a node ends; its unit write lands at `landed`, which stalls may put
after N_w (R191, R196 to R199). -/
def execNodeEvaluationEnd (node : Nat) (landed : Stamp) (s : State) : Res :=
  match s.ple.pass with
  | none => .next s
  | some p =>
    match p.next node with
    | none => .next s
    | some (w, close) =>
      let nw := waveEnd p.b w
      let land := sMax nw landed
      if s.rowsRun && sBefore land s.deadline && !s.replayStops node && !s.recordFirst land then
        let s := s.advanceTo land
        let s := s.evaluate node close (p.carried.contains node) p.b nw
        match s.ple.pass with
        | none => .next s
        | some p =>
          let p := { p with
            todo := p.todo.filter (fun x => !(decide (x.1 = node) && decide (x.2.1 = w) && (x.2.2 == close)))
            evals := p.evals + (!close).toNat, waves := max p.waves (w + 1) }
          let s := { s with ple := { s.ple with pass := some p } }
          let s := if p.todo.any (fun x => decide (x.1 = node)) then s else s.slipEntries land (s.overtaken node nw land)
          .next (if p.todo.isEmpty then s.endPass p else s)
      else .next s

/-- The state that a command without refusal answers. -/
def resState (s : State) : Res → State
  | .next t => t
  | _ => s

/-- In a replay every evaluation of the pass that the record does not stop has ended; `before` brings what the record
holds up to its stamp (R42). -/
def State.drainPass (s : State) (before : State → Stamp → State) : State :=
  match s.ple.pass with
  | none => s
  | some p => p.todo.foldl (fun (s : State) (x : Nat × Nat × Bool) =>
      let s := before s (waveEnd p.b x.2.1)
      resState s (execNodeEvaluationEnd x.1 0 s)) s

/-- What has not ended of the pass at its deadline is abandoned and carried (R192). -/
def State.abandonPass (s : State) (p : Pass) : State :=
  let s := s.advanceTo s.deadline
  let nodes := p.todo.map (fun x => x.1)
  let left := s.defined.filter (fun i => nodes.contains i)
  let first := left.headD 0
  let s := ((s.setLive Reg.PLE_STAT_LATE 1).setLive Reg.PLE_NEXT_VALID 1).setLive Reg.PLE_NEXT_NODE first
  let s := s.bumpSat Reg.PLE_LATECNT_CNT
  let s := (s.logEntry 0x04 first s.row.cur s.row.num).raiseNow 12 first
  let s := s.endPass p
  let s := { s with ple := { s.ple with carry := left } }
  (s.slipEntries s.now (s.heldOf left)).sendDue s.now left.contains

/-- PASS_DEADLINE: what has not ended is abandoned and carried (R192); in a replay only what the record names has not
ended (R42). -/
def execPassDeadline (s : State) : Res :=
  if s.recordFirst s.deadline then .next s
  else
    let s := if s.rpl.on then s.drainPass (fun s _ => s) else s
    match s.ple.pass with
    | none => .next s
    | some p => .next (if p.todo.isEmpty then s.endPass p else s.abandonPass p)

/-- Another SPEC entry commits in the cycle of entry `k`, at its endpoint or at a slice of its bank (R197, R278).
(DEDUCED 95 of notes/assumptions) -/
def State.matesInCycle (s : State) (k : Nat) : List (Nat × QEntry) :=
  let e := s.entry k
  s.ple.queue.filter (fun p =>
    decide (p.1 ≠ k) && decide (p.2.st = .spec) && decide (cycle p.2.issue = cycle e.issue) &&
      (decide (p.2.endpoint = e.endpoint) ||
        (p.2.onSlice && e.onSlice && decide (epSlice p.2.endpoint / 6 = epSlice e.endpoint / 6))))

/-- An entry that comes before entry `k` in the order of R197 and R278 is still to commit in its cycle. -/
def State.mateBefore (s : State) (k : Nat) : Bool :=
  (s.matesInCycle k).any (fun p => reachLe (reachKey p) (reachKey (k, s.entry k)))

/-- A later edge reaches the slice of entry `k` in the same cycle (R273). -/
def State.mateAfter (s : State) (k : Nat) : Bool :=
  (s.entry k).onSlice && (s.matesInCycle k).any (fun p => decide (p.2.endpoint = (s.entry k).endpoint))

/-- A unit write of node `i` has its N_w in the TCLK cycle of an ISSUE stamp: the late edges it makes may follow in that
cycle (R197, R202). -/
def State.unitInCycle (s : State) (i : Nat) (issue : Stamp) : Bool :=
  match s.ple.pass with
  | none => false
  | some p => p.todo.any (fun x => decide (x.1 = i) && (x.2.2 == (s.node i).composing) &&
      decide (cycle (waveEnd p.b x.2.1) = cycle issue))

/-- EDGE_ISSUE: DT reaches the ISSUE cycle of an entry (R194, R195, R197). It is held while a unit write of its
node is pending that it lies after. Of several edges that reach a slice in one cycle only the last acts (R273): an edge
of the cycle of its node's N_w reaches its endpoint with what the unit write commits. (DESIGN CHOICE 7; DEDUCED 95
of notes/assumptions) -/
def execEdgeIssue (e : Nat) (s : State) : Res :=
  let q := s.entry e
  if !s.rowsRun then .next s
  else if q.st = .spec then
    if s.mateBefore e || s.recordFirst (floorTo 64 q.issue) then .next s
    else
      let s := s.advanceTo (floorTo 64 q.issue)
      if s.unitPending q.node q.issue then .next (s.setEntry e { q with st := .held })
      else
        let pass := s.mateAfter e
        let s := s.commitEntry e
        .next (if pass then s.passEntry e else if s.unitInCycle q.node q.issue then s else s.sendEntry e q.issue)
  else if q.st = .committed ∧ q.out = false ∧ s.unitInCycle q.node q.issue = false ∧ s.recordFirst q.issue = false then
    .next ((s.advanceTo q.issue).sendEntry e q.issue)
  else .next s

/-- Old actuators whose last committed edge has acted go to the old record's fail state (R162). (DEDUCED 97 of
notes/assumptions) -/
def State.driveOrphans (s : State) (t : Stamp) : State :=
  s.ple.nodes.foldl (fun s p =>
    let x := s.nodeRt p.1
    let due := x.orphan.filter (fun o => sAtOrBefore o.2.2 t)
    if due.isEmpty then s
    else
      let s := s.setNodeRt p.1 { x with orphan := x.orphan.filter (fun o => !sAtOrBefore o.2.2 t) }
      due.foldl (fun s o =>
        let at_ := earliest o.1 t
        s.deliver p.1 queueSize o.1 o.2.1 at_ at_ at_) s) s

/-- EDGE_TARGET: DT reaches the TARGET of a committed entry (R162, R194). -/
def execEdgeTarget (e : Nat) (s : State) : Res :=
  let q := s.entry e
  if q.st = .committed ∧ s.recordFirst q.target = false then
    let s := s.advanceTo q.target
    let s := s.setEntry e { q with st := .landed }
    .next (s.driveOrphans q.target)
  else .next s

/-- FB_WAIT_EXPIRY: a slice edge without feedback is resolved from the configured lead (R210). -/
def execFbWaitExpiry (e : Nat) (s : State) : Res :=
  let q := s.entry e
  let t := q.target + subTicks (s.conf Reg.PLE_TRAIL_FB_WAIT * 2560000)
  if q.isCommitted && !q.resolved && q.onSlice && !s.recordFirst t then
    let s := s.advanceTo t
    .next ((s.resolveEntry e (q.issue + subTicks (64 * q.cfgLead)) true).raiseNow 15 q.node)
  else .next s

/-- REMOTE_ACK_TIMEOUT: a remote edge whose target has passed by LEAD_MAX is resolved at its target, and counts
as missed if nothing has acknowledged it (R164, R210). -/
def execRemoteAckTimeout (e : Nat) (s : State) : Res :=
  let q := s.entry e
  let t := q.target + subTicks ((s.node q.node).leadMax * msTicks)
  if q.isCommitted && !q.resolved && decide (epType q.endpoint = 3) && !s.recordFirst t then
    let s := s.advanceTo t
    let s := s.resolveEntry e q.target true
    let x := s.nodeRt q.node
    .next (if q.acked then s else s.setNodeRt q.node { x with miss := min 255 (x.miss + 1) })
  else .next s

/-- QPEAK_CLEAR: any write of PLE_QPEAK clears it (R429). -/
def execQpeakClear (p : Port) (s : State) : Res :=
  .next (s.hostLive p 0x02000384 0 (fun s => s.setLive Reg.PLE_QPEAK_PEAK 0))

end Sys2Proof.Machine
end

