-- ==== Sys2Proof/Machine/Check.lean ====
section
/-! DEFINITION. The skein checker: for each refusal code, the offending fields of a candidate, and the first
code that applies with its first field (R404, R408, R412). -/

namespace Sys2Proof.Machine

/-- A register address where a condition holds. -/
def offend (q : Bool) (a : Nat) : List Nat := if q then [a] else []

/-- A node as SKN_CHKADDR names it: bit 31 set (R404). -/
def nodeAddr (i : Nat) : Nat := 2 ^ 31 + i

/-- The offending addresses among `n` elements of an array of registers. -/
def offends (n : Nat) (f : Nat → List Nat) : List Nat := (List.range n).flatMap f

/-- The row-period range of a mode, in units of 250 µs (R44). -/
def modeRange (mode : Nat) : Nat × Nat :=
  match mode with
  | 0 => (4, 64)
  | 1 => (1, 1)
  | 2 => (16, 64)
  | 3 => (4, 64)
  | 4 => (64, 64)
  | _ => (1, 64)

/-- The row period of a skein, in units of 250 µs; one out of range counts as 1 ms. -/
def Image.rowK (m : Image) : Nat :=
  let k := m.fld Reg.SYS_MODE_ROW_K
  if 1 ≤ k ∧ k ≤ 64 then k else 4

/-- SYS_MODE (R21, R44, R60, R93). (DEDUCED 75 of notes/assumptions) -/
def checkMode (s : State) (m : Image) : List Nat :=
  let work := m.fld Reg.SYS_MODE_WORK
  let resume := m.fld Reg.SYS_MODE_RESUME
  let k := m.fld Reg.SYS_MODE_ROW_K
  let r := modeRange (if work = 5 then resume else work)
  let bench := (List.range s.variant.cores).any (fun c => s.flag Reg.DXC_CTL_BENCH c)
  offend (decide (6 < work) || decide (4 < resume) || decide (k < r.1) || decide (r.2 < k) ||
    (decide (work ≠ 4) && bench)) 0x10

/-- Core registers (R81, R89). (DEDUCED 75 of notes/assumptions) -/
def checkCores (s : State) (m : Image) : List Nat :=
  offends s.variant.cores (fun c =>
    let a := 0x00100000 + 0x10000 * c
    let b := m.fld Reg.DXC_BUDGET_BUDGET c
    let area := m.fld Reg.DXC_MBAREA_AREA c
    offend (decide (b < 1024) || decide (m.rowK * 150000 - 2400 < b)) (a + 0x008) ++
    offend (decide (m.fld Reg.DXC_ENTRY_ENTRY c % 4 ≠ 0)) (a + 0x00C) ++
    offends 8 (fun t =>
      offend (decide (m.fld Reg.DXC_ETASK_EN c t = 1) && decide (m.fld Reg.DXC_ETASK_ENTRY c t % 4 ≠ 0))
        (a + 0x010 + 4 * t)) ++
    offend (decide (area < 0x400) || decide (0xFF0 < area)) (a + 0x030)) ++
  offends 3 (fun r =>
    let n := m.fld Reg.DXC_RING_CFG_LOG2N r
    offend (decide (n < 12) || decide (26 < n)) (0x00180004 + 0x20 * r))

/-- Placement and Kwaros registers (chapters 5 to 7). -/
def checkPle (m : Image) : List Nat :=
  let kmax := m.fld Reg.PLE_TURN_KMAX
  offend (decide (m.fld Reg.PLE_CFG_MAXAGE = 0)) 0x02000000 ++
  offend (decide (kmax = 0) || decide (kmax < m.fld Reg.PLE_TURN_KMIN)) 0x02000008 ++
  offend (decide (16384 < m.fld Reg.PLE_QCFG_RESERVE)) 0x02000300 ++
  offend (decide (1 < m.fld Reg.PLE_STOP_REV) || decide (m.fld Reg.PLE_STOP_DWELL = 0) ||
    decide (m.fld Reg.PLE_STOP_STOP_V = 0)) 0x02000304 ++
  offends 5 (fun t => offend (decide (25000 < m.fld Reg.PLE_TAIL_OFF_TAIL t) ||
    decide (25000 < m.fld Reg.PLE_TAIL_ON_TAIL t)) (0x02000320 + 4 * t)) ++
  offend (decide (m.fld Reg.PLE_TRAIL_FB_WAIT = 0)) 0x02000340 ++
  offends 6 (fun p =>
    let d := m.fld Reg.KW_SYNC_PERIOD p
    offend (decide (d ≠ 0) && (decide (d < 10) || decide (1000 < d))) (0x02000820 + 4 * p)) ++
  offends 12 (fun l =>
    let c := m.fld Reg.FAB_LCFG_CELL l
    offend (decide (m.fld Reg.FAB_LCFG_EN l = 1) && (decide (c < 4) || decide (10 < c))) (0x02000440 + 0x10 * l))

/-- An IPv4 address of a remote entry, which is in network order, with its first octet in bits 31:24
(R163, R382). -/
def netOrder (n : Nat) : Nat :=
  bitsOf n 24 8 + 2 ^ 8 * bitsOf n 16 8 + 2 ^ 16 * bitsOf n 8 8 + 2 ^ 24 * bitsOf n 0 8

/-- The neighbour table has an enabled entry for an address (R382). -/
def Image.neighbour (m : Image) (ip : Nat) : Bool :=
  (List.range 16).any (fun j =>
    bitOf (m.word (0x06108008 + 0x10 * j)) 31 && decide (m.word (0x06108000 + 0x10 * j) = ip))

/-- The remote table (R163, R165, R382). (DEDUCED 75 of notes/assumptions) -/
def checkRemote (m : Image) : List Nat :=
  offends 1024 (fun i =>
    let q := m.remote i
    let port := decide (q.port < 4) || decide (q.port = 8) || decide (q.port = 9)
    let bad := q.en &&
      (if q.port < 4 then decide (m.fld Reg.CAN_CCFG_FDEN q.port = 0) else !m.neighbour (netOrder q.ipv4))
    offend (!port || bad) (0x02080000 + 16 * i))

/-- Edge channels, trips and carriers (chapter 9). (DEDUCED 72, 105 of notes/assumptions) -/
def checkEtu (s : State) (m : Image) : List Nat :=
  offends 16 (fun t => offend (decide (m.fld Reg.ETU_TRIPCFG_FLT t = 0)) (0x03000100 + 8 * t)) ++
  offends s.variant.channels (fun n =>
    offend (decide (m.fld Reg.ETU_CHCFG_DSRC n = 3) || decide (m.fld Reg.ETU_CHCFG_GMODE n = 3) ||
      (decide (n % 2 = 1) && decide (m.fld Reg.ETU_CHCFG_PAIR n = 1))) (0x03004008 + 0x20 * n))

/-- Slice pair `p` is configured as a pair (R265). (DEDUCED 73 of notes/assumptions) -/
def Image.paired (m : Image) (p : Nat) : Bool := bitOf (m.fld Reg.DSL_BCFG_PAIR (p / 3)) (p % 3)

/-- Slices, banks and the fields of profiles; of the upper slice of a pair only its shunt counts (R264, R265, R270,
chapter 10). (DEDUCED 72, 75 of notes/assumptions) -/
def checkSlices (s : State) (m : Image) : List Nat :=
  let used := (List.range s.variant.slices).filter (fun n => decide (m.fld Reg.DSL_SCFG_EN n = 1))
  let phases := fun q => List.range (m.fld Reg.DSL_PCFG_NPH_M1 q + 1)
  let boost := fun q j => decide (m.fld Reg.DSL_PHA_SUPPLY q j = 1)
  let slow := fun q j => decide (m.fld Reg.DSL_PHA_DECAY q j = 2)
  offends 16 (fun q =>
    let a := 0x03104000 + 0x80 * q
    let lag := m.fld Reg.DSL_PKDET_KLAG q
    offend (decide (1 < m.fld Reg.DSL_PCFG_OFF_DECAY q)) a ++
    offend (decide (m.fld Reg.DSL_PKDET_KARM q = 0) || decide (lag = 0) || decide (64 < lag) ||
      decide (6 < m.fld Reg.DSL_PKDET_KAVG q)) (a + 0x0C) ++
    offend (decide (m.fld Reg.DSL_PKSL_KSLOPE q = 0)) (a + 0x10) ++
    offend (decide (m.fld Reg.DSL_PCFG_DIP_EN q = 1) && decide (m.fld Reg.DSL_PDIP_DIP_THR q = 0)) (a + 0x14) ++
    offends 8 (fun j =>
      offend (decide (3 < m.fld Reg.DSL_PHA_EXIT q j) || decide (m.fld Reg.DSL_PHA_DECAY q j = 3) ||
        decide (1 < m.fld Reg.DSL_PHA_SUPPLY q j)) (a + 0x40 + 8 * j))) ++
  used.flatMap (fun n =>
    let q := m.fld Reg.DSL_SCFG_PROF n
    let b := n / 6
    let a := 0x03104000 + 0x80 * q
    let last := m.fld Reg.DSL_PCFG_NPH_M1 q
    offend (decide (m.fld Reg.DSL_SCFG_SHUNT n = 0)) (0x03101000 + 0x40 * n) ++
    if decide (n % 2 = 1) && m.paired (n / 2) then [] else
    offend (decide (m.fld Reg.DSL_SMAXON_MAXON n = 0)) (0x03101004 + 0x40 * n) ++
    offend ((decide (m.fld Reg.DSL_BCFG_BOOST_FIT b = 0) && (phases q).any (boost q)) ||
      (decide (m.fld Reg.DSL_BCFG_PRI_FIT b = 0) && (phases q).any (fun j => !boost q j)) ||
      (!bitOf (m.fld Reg.DSL_BCFG_HSUSE b) (n % 6) && (phases q).any (fun j => boost q j || slow q j)))
      (0x03100100 + 0x20 * b) ++
    (phases q).flatMap (fun j =>
      let exit := m.fld Reg.DSL_PHA_EXIT q j
      let hyst := m.fld Reg.DSL_PHB_I_HYST q j
      offend ((decide (exit = 3) && decide (j ≠ last)) || (decide (exit = 1) && decide (j = last)))
        (a + 0x40 + 8 * j) ++
      offend ((decide (exit ≠ 1) && (decide (hyst = 0) || decide (m.fld Reg.DSL_PHA_I_TGT q j ≤ hyst))) ||
        (decide (exit ≠ 3) && decide (m.fld Reg.DSL_PHB_T q j = 0))) (a + 0x44 + 8 * j)))

/-- Loop units (R289, R293, R300, R304, R388, chapter 11). (DEDUCED 72 of notes/assumptions) -/
def checkLoops (m : Image) : List Nat :=
  offends 64 (fun n =>
    let a := 0x03201000 + 0x80 * n
    let mt := m.fld Reg.CLE_MSRC_TYPE n
    let mi := m.fld Reg.CLE_MSRC_INDEX n
    let st := m.fld Reg.CLE_SSRC_TYPE n
    let si := m.fld Reg.CLE_SSRC_INDEX n
    let per := m.fld Reg.CLE_LTIME_SPER n
    let sph := m.fld Reg.CLE_LTIME_SPH n
    let lim := fun f => sext 32 (m.fld f n)
    let table := decide (m.fld Reg.CLE_POS_FRIC_EN n = 1) || decide (m.fld Reg.CLE_POS_COG_EN n = 1)
    let mate := (List.range n).find? (fun j =>
      decide (m.fld Reg.CLE_LCFG_GEN n = 1) && decide (m.fld Reg.CLE_LCFG_GEN j = 1) &&
        decide (m.fld Reg.CLE_LCFG_GRP n = m.fld Reg.CLE_LCFG_GRP j))
    let apart := match mate with
      | some j => decide (m.fld Reg.CLE_LTIME_SPER j ≠ per) || decide (m.fld Reg.CLE_LTIME_SPH j ≠ sph)
      | none => false
    offend (decide (per = 0) || decide (per ≤ sph) || apart) (a + 0x04) ++
    offend (decide (5 < mt) || (decide (mt = 1) && (decide (16 ≤ mi) || decide (m.fld Reg.SIN_ACFG_EN mi = 0))) ||
      (decide (2 ≤ mt) && decide (mt ≤ 4) && decide (24 ≤ mi)) || (decide (mt = 5) && decide (mi = n))) (a + 0x08) ++
    offend ((decide (st ≠ 0) && decide (st ≠ 5) && decide (st ≠ 6)) || (decide (st = 5) && decide (si = n)))
      (a + 0x14) ++
    offend (decide (30 < m.fld Reg.CLE_SH_ESTEP n)) (a + 0x28) ++
    offend (decide (lim Reg.CLE_IMAX_LIM < lim Reg.CLE_IMIN_LIM)) (a + 0x2C) ++
    offend (decide (lim Reg.CLE_OMAX_LIM < lim Reg.CLE_OMIN_LIM)) (a + 0x34) ++
    offend (decide (m.fld Reg.CLE_FETIME_N n = 0)) (a + 0x44) ++
    offend (table && decide (24 ≤ m.fld Reg.CLE_POS_PI n)) (a + 0x48))

/-- The GNSS baseband (R315, R324, chapter 12). -/
def checkGnb (s : State) (m : Image) : List Nat :=
  if !s.variant.gnb then []
  else
    let mper := m.fld Reg.GNB_CFG_MPER
    offend (decide (mper = 0) || decide (1000 < mper) || decide (4 * mper < m.rowK)) 0x04000000 ++
    offends s.variant.ports (fun n => offend (decide (3 < m.fld Reg.GNB_PCFG_FS n)) (0x04000010 + 0x10 * n)) ++
    offend (decide (m.fld Reg.GNB_DISC_HOLD_LIM = 0) || decide (m.fld Reg.GNB_DISC_LOCK_N = 0) ||
      decide (m.fld Reg.GNB_DISC_TAU = 0)) 0x04000090 ++
    offend (decide (m.fld Reg.GNB_DISC2_LOSS = 0) || decide (m.fld Reg.GNB_DISC2_JUMP_N = 0)) 0x04000094 ++
    offend (decide (10000 < m.fld Reg.GNB_DJUMP_SLEW_MAX)) 0x0400009C ++
    offends 2 (fun o => offend (decide (m.fld Reg.GNB_PPSCFG_WIDTH o = 0)) (Reg.GNB_PPSCFG_WIDTH.key o 0 / 32 * 4))

/-- Cycles of the fusion head (R344). (DEDUCED 74 of notes/assumptions) -/
def headCycles (m : Image) : Nat :=
  let cells := (m.fld Reg.FGE_GRID_GW_M1 + 1) * (m.fld Reg.FGE_GRID_GH_M1 + 1)
  ((List.range (m.fld Reg.FGE_HEAD_NL_M1 + 1)).map (fun l =>
    let w0 := m.word (0x05040000 + 16 * l)
    let op := bitsOf w0 0 8
    let inN := bitsOf w0 24 8
    let outN := bitsOf (m.word (0x05040004 + 16 * l)) 8 8
    let work := if op = 3 then cells * outN * 9 else cells * outN * inN * (if op = 2 then 9 else 1)
    (work + 8191) / 8192 + 64)).sum

/-- The fusion engine and its sources (R332, R340, R343, R344, chapter 13). (DEDUCED 72, 74 of notes/assumptions) -/
def checkFge (s : State) (m : Image) : List Nat :=
  if !s.variant.fge then []
  else
    let odiv := m.fld Reg.FGE_CFG_ODIV
    let vis := m.fld Reg.FGE_CFG_VIS
    let cell := m.fld Reg.FGE_GRID_GCELL
    let per := odiv * m.rowK * 250
    let work := m.fld Reg.SYS_MODE_WORK
    let on := decide (m.fld Reg.FGE_CFG_EN = 1)
    let src := fun i => (m.fld Reg.FGE_SCFG_PORT i, m.fld Reg.FGE_SCFG_UDP i)
    let en := fun i => decide (m.fld Reg.FGE_SCFG_EN i = 1)
    offend (decide (odiv = 0) || decide (vis = 0) || decide (odiv < vis) ||
      ((decide (work = 0) || decide (work = 3)) && decide (per < 16667)) ||
      ((decide (work = 1) || decide (work = 2)) && decide (per < 33333))) 0x05000000 ++
    offend (decide (odiv ≤ m.fld Reg.FGE_OCFG_OPH)) 0x05000004 ++
    offend (decide (cell < 4) || decide (8 < cell)) 0x05000008 ++
    offend (decide (8 * vis * m.rowK * 150000 < 10 * headCycles m)) 0x0500001C ++
    offend (decide (m.fld Reg.FGE_TRK_CONF_N = 0) || decide (m.fld Reg.FGE_TRK_TDEL = 0) ||
      decide (m.fld Reg.FGE_TRK_CDEL = 0) || decide (m.fld Reg.FGE_TRK_TPOL = 3)) 0x05000020 ++
    offend (decide (m.fld Reg.FGE_EGO_SRCH = 0)) 0x05000028 ++
    offends s.variant.sources (fun i =>
      let a := 0x05001000 + 0x40 * i
      offend (decide (1 < m.fld Reg.FGE_SCFG_KIND i) ||
        (en i && (List.range i).any (fun j => en j && decide (src j = src i)))) a ++
      offend (decide (m.fld Reg.FGE_STIME_FPER i = 0) || decide (m.fld Reg.FGE_STIME_MAXAGE i = 0)) (a + 4)) ++
    offends (m.fld Reg.FGE_HEAD_NL_M1 + 1) (fun l =>
      let w := m.word (0x05040000 + 16 * l)
      let op := bitsOf w 0 8
      offend ((on || decide (w ≠ 0)) && (decide (op = 0) || decide (3 < op) || decide (1 < bitsOf w 8 8)))
        (0x05040000 + 16 * l))

/-- Sensor inputs (R385 to R390). -/
def checkSensors (m : Image) : List Nat :=
  offends 24 (fun i =>
    let en := decide (m.fld Reg.SIN_PCFG_EN i = 1)
    let quad := fun j => decide (m.fld Reg.SIN_PCFG_QUAD j = 1)
    offend ((en && decide (m.fld Reg.SIN_PCFG_EDGE i = 0)) ||
      (decide (i % 2 = 1) && (quad i || (en && quad (i - 1))))) (0x07000000 + 0x10 * i)) ++
  offends 16 (fun c =>
    let per := m.fld Reg.SIN_ATIME_APER c
    offend (decide (m.fld Reg.SIN_ACFG_EN c = 1) && (decide (per = 0) || decide (per ≤ m.fld Reg.SIN_ATIME_APH c)))
      (0x07000204 + 8 * c)) ++
  (let en := decide (m.fld Reg.SIN_ICFG_EN = 1)
   let ncmd := m.fld Reg.SIN_ICFG_NCMD
   let win := m.fld Reg.SIN_ICFG_WIN
   let div := m.fld Reg.SIN_ICFG_DIV
   let burst := ((ncmd + 16) * 8 * 2 * (div + 1) + 400 + 399) / 400
   offend (decide (4 < ncmd) || (en && (decide (win = 0) || decide (div < 7) || decide (win < burst)))) 0x07000400) ++
  (let per := m.fld Reg.SIN_ISYNC_SPER
   let w := m.fld Reg.SIN_ISYNC_WIDTH
   offend (decide (per = 0) || decide (w = 0) || decide (per * 10 ≤ w)) 0x07000408)

/-- CAN controllers and MACs (R362, chapter 14). The data phase is judged whatever FDEN is, as the rule states it: its
reset value is a rate that needs TDC. (DEDUCED 75 of notes/assumptions) -/
def checkPorts (m : Image) : List Nat :=
  offends 4 (fun c =>
    let a := 0x06000000 + 0x1000 * c
    let f := fun (x : Fld) => m.fld x c
    let nq := (f Reg.CAN_NBT_BRP_M1 + 1) * (1 + (f Reg.CAN_NBT_TSEG1_M1 + 1) + (f Reg.CAN_NBT_TSEG2_M1 + 1))
    let dq := (f Reg.CAN_DBT_BRP_M1 + 1) * (1 + (f Reg.CAN_DBT_TSEG1_M1 + 1) + (f Reg.CAN_DBT_TSEG2_M1 + 1))
    let warn := fun (x : Fld) => decide (f x = 0) || decide (127 < f x)
    offend (decide (3 < f Reg.CAN_CCFG_MODE) || decide (f Reg.CAN_CCFG_MAXAGE = 0)) a ++
    offend (decide (nq < 80) || decide (f Reg.CAN_NBT_TSEG2_M1 < f Reg.CAN_NBT_SJW_M1)) (a + 0x04) ++
    offend (decide (dq < 10) || decide (f Reg.CAN_DBT_TSEG2_M1 < f Reg.CAN_DBT_SJW_M1)) (a + 0x08) ++
    offend (decide (dq < 80) && decide (f Reg.CAN_TDC_EN = 0)) (a + 0x0C) ++
    offend (warn Reg.CAN_EWARN_TEC_W || warn Reg.CAN_EWARN_REC_W) (a + 0x10)) ++
  offends 2 (fun e =>
    offend (decide (1 < m.fld Reg.ETH_MACCFG_IF e) || decide (m.fld Reg.ETH_MACCFG_SPEED e = 3) ||
      decide (m.fld Reg.ETH_MACCFG_MAXAGE e = 0)) (0x06100000 + 0x1000 * e))

/-! ### Nodes -/

/-- Every reserved bit of a record is 0 (R140); a FREE record has no other. -/
def Image.reservedClear (m : Image) (i : Nat) : Bool :=
  let w := m.nodeWord i
  let kind := bitsOf (w 0) 24 2
  if kind = 0 then (List.range 16).all (fun j => decide (w j = 0))
  else decide (bitsOf (w 0) 17 7 = 0) && decide (bitsOf (w 0) 26 6 = 0) &&
    (decide (kind = kFrame) ||
      (!bitOf (w 9) 7 && decide (bitsOf (w 9) 10 2 = 0) && !bitOf (w 9) 15 && !bitOf (w 9) 19 &&
        decide (bitsOf (w 9) 21 3 = 0) && decide (bitsOf (w 9) 28 4 = 0) && decide (bitsOf (w 10) 18 6 = 0) &&
        decide (bitsOf (w 11) 16 16 = 0)))

/-- A FRAME's own fields are as its source needs (R140, R143). -/
def NodeRec.frameOk (r : NodeRec) : Bool :=
  decide (r.tsrc ≤ 4) && (decide (r.tsrc ≤ 1) || decide (r.maxage ≠ 0)) &&
  (if r.tsrc = 4 then decide (1000 ≤ r.hl) && decide (r.hl < 2 ^ 31) else decide (r.hl = 0)) &&
  (if r.tsrc = 3 then decide (10000 * 10000 ≤ r.cax * r.cax + r.cay * r.cay)
   else decide (r.pax = 0) && decide (r.pay = 0) && decide (r.cax = 0) && decide (r.cay = 0))

/-- An endpoint node's own fields (R140, R146, R152, R172, R219). -/
def Image.endOk (m : Image) (r : NodeRec) : Bool :=
  let group := decide (r.kind = kGroup)
  (if group then decide (r.compose ≤ 3) else decide (r.compose = 0)) &&
  (decide (r.k = 0) || (group && decide (r.compose = 2))) &&
  decide (r.fail ≠ 3) && (!r.learnEn || decide (r.learnW ≠ 0)) &&
  decide (1 ≤ r.leadMax) && decide (r.leadMax + r.margin ≤ 2500) &&
  decide (max r.leadOn r.leadOff ≤ r.leadMax * 400000) && decide (m.rowK ≤ 4 * r.margin) &&
  (if r.own then decide (r.fw ≠ 0) && decide (r.fl ≠ 0)
   else !r.composing || (decide (r.fw = 0) && decide (r.fl = 0))) &&
  decide (m.fld Reg.FAB_LCFG_EN r.cov = 1) &&
  (!r.rule ruRx || (decide (m.fld Reg.FAB_LCFG_EN (4 + r.rx) = 1) &&
    decide (m.fld Reg.FAB_LCFG_PRODUCT (4 + r.rx) = r.cov))) &&
  (decide (r.etype ≤ 4) || (decide (r.etype = 15) && group && decide (r.eidx = 0))) &&
  (decide (r.etype ≠ 4) || decide (r.eidx < 8))

/-- The tree (R136) and the divisors (R161). -/
def Image.treeOk (m : Image) (i : Nat) (r : NodeRec) : Bool :=
  let p := m.node r.parent
  (if i = 0 then decide (r.kind = kFrame) && decide (r.tsrc = 1) && decide (r.parent = 0x1FFFF)
   else !(decide (r.kind = kFrame) && decide (r.tsrc = 1)) && decide (r.parent < i) &&
     (decide (p.kind = kFrame) || decide (p.kind = kGroup)) &&
     decide (r.divisor % p.divisor = 0) && decide (r.phase % p.divisor = p.phase % p.divisor)) &&
  (decide (16384 ≤ i) || decide (r.divisor = 1)) && decide (r.phase < r.divisor)

/-- Node fields that a chapter lists as refused: code 0x04. (DEDUCED 72 of notes/assumptions) -/
def checkNodes (m : Image) : List Nat :=
  let all := nodeKeys 0 m.nodes
  let some0 := decide (m.defined ≠ []) && decide ((m.node 0).kind = 0)
  offend some0 (nodeAddr 0) ++
  all.flatMap (fun i =>
    let r := m.node i
    let ok := m.reservedClear i &&
      (decide (r.kind = 0) ||
        (m.treeOk i r && (if r.kind = kFrame then r.frameOk else m.endOk r)))
    offend (!ok) (nodeAddr i))

/-- The actuator keys an endpoint takes: a slice takes its half of the pair, a pair both (R159). -/
def NodeRec.takes (r : NodeRec) : List (Nat × Nat) :=
  match r.etype with
  | 0 => [(0, r.eidx)]
  | 1 => [(1, r.eidx)]
  | 2 => [(1, 2 * r.eidx), (1, 2 * r.eidx + 1)]
  | 3 => [(3, r.eidx)]
  | _ => []

/-- The binding of one node breaks R159, R251 or R265. (DEDUCED 73 of notes/assumptions) -/
def Image.bindBad (m : Image) (r : NodeRec) : Bool :=
  match r.etype with
  | 0 => decide (r.eidx % 2 = 1) && decide (m.fld Reg.ETU_CHCFG_PAIR (r.eidx - 1) = 1)
  | 1 => m.paired (r.eidx / 2)
  | 2 => !m.paired r.eidx
  | 3 => decide (1024 ≤ r.eidx) || !(m.remote r.eidx).en
  | 4 => decide (m.fld Reg.DXC_CFG_EN (r.eidx % 8) = 0)
  | _ => false

/-- Binding and pairing conflicts: code 0x06. (DEDUCED 73 of notes/assumptions) -/
def checkBindings (s : State) (m : Image) : List Nat :=
  let ends := (m.defined.map (fun i => (i, m.node i))).filter (fun x => x.2.isEnd)
  let two := (ends.foldl (fun (acc : List (Nat × Nat) × List Nat) x =>
    let ks := x.2.takes
    (ks ++ acc.1, if ks.any (fun k => acc.1.contains k) then x.1 :: acc.2 else acc.2)) ([], [])).2
  offends s.variant.channels (fun n =>
    offend (decide (m.fld Reg.ETU_CHCFG_FREE n = 1) &&
      ends.any (fun x => decide (x.2.etype = 0) && decide (x.2.eidx = n))) (0x03004008 + 0x20 * n)) ++
  offends (s.variant.slices / 2) (fun p =>
    let use := fun n => bitOf (m.fld Reg.DSL_BCFG_HSUSE (n / 6)) (n % 6)
    offend (m.paired p && (decide (m.fld Reg.DSL_SCFG_EN (2 * p) ≠ m.fld Reg.DSL_SCFG_EN (2 * p + 1)) ||
      (use (2 * p) != use (2 * p + 1)))) (0x03100100 + 0x20 * (p / 3))) ++
  two.map nodeAddr ++
  ends.flatMap (fun x => offend (m.bindBad x.2) (nodeAddr x.1))

/-- A resource the variant lacks, the primary source of the tracker among them: code 0x05 (R8, R55, R352). (DEDUCED
72 of notes/assumptions) -/
def checkVariant (s : State) (m : Image) : List Nat :=
  let v := s.variant
  offend (decide (m.fld Reg.SYS_DISC_STAT_SRC = 0) && !v.gnb) 0x48 ++
  offends 16 (fun t =>
    offend (decide (2 ^ v.groups ≤ m.fld Reg.ETU_TRIPMAP_MAP t)) (0x03000104 + 8 * t) ++
    offend (decide (2 ^ v.banks ≤ m.fld Reg.DSL_TRIPMAP_BANKS t)) (0x03100040 + 4 * t)) ++
  offends 64 (fun n =>
    let a := 0x03201000 + 0x80 * n
    offend (decide (m.fld Reg.CLE_MSRC_TYPE n = 5) && decide (64 ≤ m.fld Reg.CLE_MSRC_INDEX n)) (a + 0x08) ++
    offend ((decide (m.fld Reg.CLE_SSRC_TYPE n = 5) && decide (64 ≤ m.fld Reg.CLE_SSRC_INDEX n)) ||
      (decide (m.fld Reg.CLE_SSRC_TYPE n = 6) && decide (v.nodes ≤ m.fld Reg.CLE_SSRC_INDEX n))) (a + 0x14)) ++
  offend (v.fge && decide (v.gridWidth < m.fld Reg.FGE_GRID_GW_M1 + 1)) 0x05000008 ++
  offend (v.fge && decide (m.fld Reg.FGE_TRK_TPOL = 2) && decide (v.sources ≤ m.fld Reg.FGE_TRK_TPRIM)) 0x05000020 ++
  offends 8 (fun q => offend (decide (v.nodes ≤ m.fld Reg.DSP_CFG_SCOPE q)) (0x05000800 + 8 * q)) ++
  offends 64 (fun i => offend (!busPresent v (m.fld Reg.SKN_LIVE_ADDR i)) (0x00011000 + 8 * i)) ++
  m.prog.flatMap (fun b => offend (decide (v.cores ≤ b.1 / 0x40000)) (0x00010040 + 4 * (b.1 / 0x40000))) ++
  m.defined.flatMap (fun i =>
    let r := m.node i
    let lacks := match r.etype with
      | 0 => decide (v.channels ≤ r.eidx)
      | 1 => decide (v.slices ≤ r.eidx)
      | 2 => decide (v.slices / 2 ≤ r.eidx)
      | 4 => decide (v.cores ≤ r.eidx % 8)
      | _ => false
    offend (decide (v.nodes ≤ i) || (r.isEnd && lacks)) (nodeAddr i))

/-- Capacity ceilings: code 0x07 (R190, NB_CFG). (DEDUCED 74 of notes/assumptions) -/
def checkCapacity (s : State) (m : Image) : List Nat :=
  let count := m.fld Reg.NB_CFG_COUNT
  let work := m.fld Reg.SYS_MODE_WORK
  let due := m.defined.filter (fun i => decide (work = 2) || decide (i < 16384) || decide ((m.node i).divisor = 1))
  let late := (State.waves { s with skn := { s.skn with act := m } } due).filter (fun x =>
    decide (waveCeil (m.rowK * 6400000) ≤ x.2.1))
  offend (decide (s.variant.nodes < count)) 0x02000800 ++
  m.defined.flatMap (fun i => offend (decide (count ≤ i) || (decide (work = 1) && decide (16384 ≤ i))) (nodeAddr i)) ++
  late.map (fun x => nodeAddr x.1)

/-! ### The live set and guarded fields -/

/-- An address in a block that the live set excludes (R408). -/
def liveExcluded (a : Nat) : Bool :=
  decide (a < 0x00030000) || (decide (0x08000000 ≤ a) && decide (a < 0x09000000))

/-- An address that holds a live field software can write: a register field, or a transmit buffer or
slot (R408). -/
def liveWritable (a : Nat) : Bool :=
  decide (a % 4 = 0) &&
  ((regFields.any (fun f => (decide (f.acc = .lrw) || decide (f.acc = .lwo) || decide (f.acc = .lw1c)) &&
      !(f.inWord a).isEmpty)) || (canTx a).isSome || (ethTx a).isSome)

/-- Live-set entries that R408 excludes, or more than 64 of them: code 0x0C (R408, R419). (DEDUCED 72 of
notes/assumptions) -/
def checkLive (m : Image) : List Nat :=
  offends 64 (fun i =>
    let a := m.fld Reg.SKN_LIVE_ADDR i
    offend (decide (a ≠ 0) && (liveExcluded a || !liveWritable a)) (0x00011000 + 8 * i)) ++
  offend (decide (m.word 0x00011200 ≠ 0)) 0x00011200

/-- A node's FAIL byte; FRAME and FREE nodes have none (R140, R412). -/
def Image.failByte (m : Image) (i : Nat) : Nat := if (m.node i).isEnd then (m.node i).fail else 0

/-- The guarded fields in which two skeins differ (R12, R412). -/
def guardedDiff (m old : Image) : List Nat :=
  regFields.flatMap (fun f =>
    if f.g1 then
      offends f.n1 (fun i => offends f.n2 (fun j =>
        offend (decide (f.get m.flds i j ≠ f.get old.flds i j)) (f.key i j / 32 * 4)))
    else []) ++
  (nodeKeys 0 m.nodes ++ nodeKeys 0 old.nodes).flatMap (fun i =>
    offend (decide (m.failByte i ≠ old.failByte i)) (nodeAddr i))

/-! ### The outcome -/

/-- Field values that a chapter lists as refused: code 0x04. -/
def checkFields (s : State) (m : Image) : List Nat :=
  checkMode s m ++ checkCores s m ++ checkPle m ++ checkRemote m ++ checkEtu s m ++ checkSlices s m ++
  checkLoops m ++ checkGnb s m ++ checkFge s m ++ checkSensors m ++ checkPorts m ++ checkNodes m

/-- The least of a list of addresses. -/
def leastAddr : List Nat → Option Nat
  | [] => none
  | a :: l => some (l.foldl min a)

/-- The first code that applies, in the order of R404, with its first offending field; code 0 accepts. -/
def firstRefusal : List (Nat × List Nat) → Nat × Nat
  | [] => (0, 0)
  | (code, l) :: t =>
    match leastAddr l with
    | some a => (code, a)
    | none => firstRefusal t

/-- What the checker finds in a candidate (R404): the outcome code and SKN_CHKADDR. -/
def State.checkSkein (s : State) (m : Image) (commit grant : Bool) : Nat × Nat :=
  firstRefusal
    [(0x02, offend (commit && decide (m.fld Reg.SKN_VER_VER ≤ s.live Reg.SKN_VMAX_VER)) 0x00010014),
     (0x04, checkFields s m), (0x05, checkVariant s m), (0x06, checkBindings s m), (0x07, checkCapacity s m),
     (0x0C, checkLive m), (0x08, if grant then [] else guardedDiff m s.skn.act)]

end Sys2Proof.Machine
end

