-- ==== Sys2Proof/Machine/Skein.lean ====
section
/-! DEFINITION. Semaphores and skein slots: taking and releasing semaphores, requesting a commit or a
rollback, the checker's end, and the rotation of the slots (R129, R399 to R411). -/

namespace Sys2Proof.Machine

/-! ### Semaphores -/

/-- The owner code of a writer (R399). -/
def ownerCode : Writer → Nat
  | .host p => p.idx + 1
  | .core n => 0x10 + n
  | .liveSet => 0

/-- TAKE: a free semaphore goes to the writer (R399). -/
def State.semTakeBy (s : State) (w : Writer) (n : Nat) : State :=
  if s.live Reg.SEM_CTL_OWNER n = 0 then s.setLive Reg.SEM_CTL_OWNER (ownerCode w) n else s

/-- REL: the owner frees a semaphore (R399). -/
def State.semRelBy (s : State) (w : Writer) (n : Nat) : State :=
  if s.live Reg.SEM_CTL_OWNER n = ownerCode w then s.setLive Reg.SEM_CTL_OWNER 0 n else s

/-- FORCE: a semaphore is freed whatever its owner (R399). -/
def State.semForceFree (s : State) (n : Nat) : State := s.setLive Reg.SEM_CTL_OWNER 0 n

/-- A write of SEM_CTL acts in the order FORCE, REL, TAKE (R399). -/
def State.semWrite (s : State) (w : Writer) (n v : Nat) : State :=
  let s := if bitOf v 31 then s.semForceFree n else s
  let s := if bitOf v 30 then s.semRelBy w n else s
  if bitOf v 29 then s.semTakeBy w n else s

/-- A host write of SEM_CTL, logged as a live write (R399). -/
def State.hostSem (s : State) (p : Port) (n v : Nat) : State :=
  if n < 32 then s.hostLive p (0x8000 + 4 * n) v (fun s => s.semWrite (.host p) n v) else s

/-- SEM_TAKE (R399). -/
def execSemTake (p : Port) (n : Nat) (s : State) : Res := .next (s.hostSem p n (2 ^ 29))

/-- SEM_REL (R399). -/
def execSemRel (p : Port) (n : Nat) (s : State) : Res := .next (s.hostSem p n (2 ^ 30))

/-- SEM_FORCE (R399). -/
def execSemForce (p : Port) (n : Nat) (s : State) : Res := .next (s.hostSem p n (2 ^ 31))

/-- A program's SEMT at step 3: the reply word, and the semaphore as it leaves it (R129). -/
def State.semtAct (s : State) (c n : Nat) : State × Nat :=
  let s := s.semTakeBy (.core c) n
  (s, if s.live Reg.SEM_CTL_OWNER n = ownerCode (.core c) then 1 else 3)

/-- Frees the semaphores whose owner satisfies `q` (R129, R422). -/
def State.semFreeWhere (s : State) (q : Nat → Bool) : State :=
  (List.range 32).foldl (fun (s : State) n =>
    if q (s.live Reg.SEM_CTL_OWNER n) then s.semForceFree n else s) s

/-! ### Presence grant -/

/-- SYS_AON_PRES.STATE of an open grant (R409). -/
def presGrant : Nat := 3

/-- A presence grant is open and no request holds it (R411). (DEDUCED 70 of notes/assumptions) -/
def State.grantOpen (s : State) : Bool :=
  decide (s.live Reg.SYS_AON_PRES_STATE = presGrant) &&
  (match s.skn.req with
   | some q => !(q.took && q.outcome.isNone)
   | none => true)

/-- Consumes the presence grant: it closes (R409, R411). -/
def State.consumeGrant (s : State) : State :=
  if s.live Reg.SYS_AON_PRES_STATE = presGrant then
    (s.setLive Reg.SYS_AON_PRES_STATE 0).setLive Reg.SYS_AON_PRES_REMAIN 0
  else s

/-! ### Requests -/

/-- L = 1 + ⌈T_CHK / P⌉ (R403). -/
def State.skeinLead (s : State) : Nat :=
  if s.row.k = 0 then 1 else 1 + (4 * s.variant.tChk + s.row.k - 1) / s.row.k

/-- The rows from the row in which a request lands to the row it names (R403). -/
def State.rowsAhead (s : State) : Nat :=
  (BitVec.ofNat 32 (s.live Reg.SKN_ROW_ROW) - s.row.num).toNat

/-- The code with which a request is refused at its landing, if it is (R403, R406). (DEDUCED 70 of
notes/assumptions) -/
def State.requestCode (s : State) (w : Writer) (commit : Bool) : Option Nat :=
  if s.flag Reg.SKN_STAT_PENDING then some 0x09
  else if s.power.bind ≠ .none then some 0x0D
  else if s.live Reg.SEM_CTL_OWNER 0 ≠ ownerCode w then some 0x01
  else if s.rowsAhead < s.skeinLead ∨ 65535 < s.rowsAhead then some 0x03
  else if commit = true ∧ s.flag Reg.SKN_STAT_STG_READY = false then some 0x0A
  else if commit = false ∧ s.flag Reg.SKN_STAT_PRV_VALID = false then some 0x0B
  else none

/-- A request that lands: refused with its code, or pending with STAGING frozen and an open grant taken
(R403, R404, R411). (DEDUCED 70 of notes/assumptions) -/
def State.skeinRequest (s : State) (w : Writer) (commit : Bool) : State :=
  match s.requestCode w commit with
  | some c => s.setLive Reg.SKN_CHK_CODE c
  | none =>
    let q : Request :=
      ⟨!commit, BitVec.ofNat 32 (s.live Reg.SKN_ROW_ROW), s.skeinLead, s.grantOpen, none⟩
    let s := { s with skn := { s.skn with req := some q } }
    ((s.setLive Reg.SKN_STAT_PENDING 1).setLive Reg.SKN_STAT_STG_READY 0).setLive Reg.SKN_CHK_CODE 0xFF

/-- A write of SKN_CTL.OP; values other than COMMIT and ROLLBACK are ignored. Outside rows no request
lands (R403, R406). (DEDUCED 49 of notes/assumptions) -/
def State.skeinCtl (s : State) (w : Writer) (v : Nat) : State :=
  if !s.rowsRun then s
  else if v % 4 = 1 then s.skeinRequest w true
  else if v % 4 = 2 then s.skeinRequest w false
  else s

/-- COMMIT: a host write of SKN_CTL.OP (R403). -/
def execCommit (p : Port) (s : State) : Res :=
  .next (s.hostLive p 0x10000 1 (fun s => s.skeinCtl (.host p) 1))

/-- ROLLBACK: a host write of SKN_CTL.OP (R403). -/
def execRollback (p : Port) (s : State) : Res :=
  .next (s.hostLive p 0x10000 2 (fun s => s.skeinCtl (.host p) 2))

/-- The checker's outcome shows: its code, and of a refusal the first offending field (R404, R419). -/
def State.showCheck (s : State) (r : Nat × Nat) : State :=
  let s := s.setLive Reg.SKN_CHK_CODE r.1
  if r.1 = 0 then s else s.setLive Reg.SKN_CHKADDR_ADDR r.2

/-- The checker ends: its outcome is fixed and the grant consumed or returned (R404, R411). -/
def State.checkerEnds (s : State) (q : Request) : State :=
  let m := if q.rollback then s.skn.prv else s.skn.stg
  let (code, a) := s.checkSkein m (!q.rollback) q.took
  let uses := decide (code = 0) && q.took && !(guardedDiff m s.skn.act).isEmpty
  let s := s.showCheck (code, a)
  let s := { s with skn := { s.skn with req := some { q with outcome := some (BitVec.ofNat 8 code) } } }
  if uses then s.consumeGrant else s

/-- The checker of a pending request ends, if it has not (R404). (DEDUCED 70 of notes/assumptions) -/
def State.endChecker (s : State) : State :=
  match s.skn.req with
  | some q => if q.outcome.isNone then s.checkerEnds q else s
  | none => s

/-- CHECKER_END (R404). -/
def execCheckerEnd (s : State) : Res := .next s.endChecker

/-! ### Rotation -/

/-- The slots after an accepted commit or rollback (R405). (DEDUCED 33 of notes/assumptions) -/
def Skein.turned (k : Skein) (rollback : Bool) : Skein :=
  if rollback then { k with act := k.prv, prv := k.stg, stg := k.prv }
  else { k with act := k.stg, prv := k.act, stg := k.stg }

/-- Rotates the slots: roles, versions and PRV_VALID (R405). (DEDUCED 33 of notes/assumptions) -/
def State.rotate (s : State) (rollback : Bool) : State :=
  let a := s.live Reg.SKN_SLOTS_ACT
  let p := s.live Reg.SKN_SLOTS_PRV
  let g := s.live Reg.SKN_SLOTS_STG
  let old := s.skn.act.fld Reg.SKN_VER_VER
  let s := { s with skn := s.skn.turned rollback }
  let ver := s.conf Reg.SKN_VER_VER
  let s :=
    if rollback then ((s.setLive Reg.SKN_SLOTS_ACT p).setLive Reg.SKN_SLOTS_PRV g).setLive Reg.SKN_SLOTS_STG a
    else ((s.setLive Reg.SKN_SLOTS_ACT g).setLive Reg.SKN_SLOTS_PRV a).setLive Reg.SKN_SLOTS_STG p
  let s := s.setLive Reg.SKN_STAT_PRV_VALID (if rollback then 0 else 1)
  let s := s.setLive Reg.SKN_VACT_VER ver
  let s := s.setLive Reg.SKN_VPRV_VER (if rollback then 0 else old)
  s.setLive Reg.SKN_VMAX_VER (max (s.live Reg.SKN_VMAX_VER) ver)

/-- The end of a request at its named boundary: PENDING clears, and STAGING is ready at once after a
refusal, or after `lead` rows when it was accepted (R404, R405). -/
def State.closeRequest (s : State) (row : W32) (accepted : Bool) (lead : Nat) : State :=
  let at_ := if accepted then some (row + BitVec.ofNat 32 lead) else s.skn.readyAt
  let s := { s with skn := { s.skn with req := none, readyAt := at_ } }
  let s := s.setLive Reg.SKN_STAT_PENDING 0
  s.setLive Reg.SKN_STAT_STG_READY (if at_.isNone then 1 else 0)

/-- STG_READY returns at boundary N + L (R405). -/
def State.returnReady (s : State) (row : W32) : State :=
  match s.skn.readyAt with
  | some r =>
    if (row - r).toNat < 2 ^ 31 then
      let s := { s with skn := { s.skn with readyAt := none } }
      if s.skn.req.isNone then s.setLive Reg.SKN_STAT_STG_READY 1 else s
    else s
  | none => s

end Sys2Proof.Machine
end

