-- ==== Sys2Proof/Machine/Staging.lean ====
section
/-! DEFINITION. Writes of a skein slot: its S-RW register fields, the needle-bed window, the program
window and the tables, and the program image that a core loads (R91, R140, R400 to R402). -/

namespace Sys2Proof.Machine

/-- Bytes of program images from a key on, renumbered from there. -/
def Tab.window {α : Type} (t : Tab α) (lo hi : Nat) : Tab α :=
  (t.range lo hi).map (fun p => (p.1 - lo, p.2))

/-- The writable bits of a word of a skein-held table at host address `a`; none where no table lies
(R13, R163, R343). -/
def tableMask (v : Variant) (a : Nat) : Option Nat :=
  if 0x02080000 ≤ a ∧ a < 0x02084000 then
    some (match a / 4 % 4 with | 0 => 0xFFFFFF8F | 1 => 0x7 | 2 => 0xFFFFFFFF | _ => 0xFFFF)
  else if 0x03208000 ≤ a ∧ a < 0x03210000 then
    if (a - 0x03208000) % 0x200 < 384 then some 0xFFFFFFFF else none
  else if 0x05040000 ≤ a ∧ a < 0x05040200 then
    if v.fge then some (match a / 4 % 4 with | 1 => 0x00FFFFFF | 2 => 0xFFFF | _ => 0xFFFFFFFF) else none
  else if 0x05800000 ≤ a ∧ a < 0x05C00000 then (if v.fge then some 0xFFFFFFFF else none)
  else if 0x06108000 ≤ a ∧ a < 0x06108100 then
    (match a / 4 % 4 with | 2 => some 0x8000FFFF | 3 => none | _ => some 0xFFFFFFFF)
  else none

/-- A word with only the bits of a mask. -/
def masked (v mask : Nat) : W32 := BitVec.ofNat 32 v &&& BitVec.ofNat 32 mask

/-- Writes a word of a table. (DEDUCED 32 of notes/assumptions) -/
def Image.putWord (m : Image) (a : Nat) (w : W32) : Image := { m with words := Tab.put 0 m.words (a / 4) w }

/-- Writes word `j` of node `i`: bytes 6, 7 and 48 to 63 are the device's and are not written (R140). -/
def Image.putNodeWord (m : Image) (i j v : Nat) : Image :=
  if 12 ≤ j then m
  else { m with nodes := Tab.put 0 m.nodes (16 * i + j) (if j = 1 then masked v 0xFFFF else BitVec.ofNat 32 v) }

/-- Writes a byte of a core's program image. -/
def Image.putProg (m : Image) (k : Nat) (b : Byte) : Image := { m with prog := Tab.put 0 m.prog k b }

/-- The S-RW elements in the word at a host address: position in the word, field and indices. -/
def stagedFields (a : Nat) : List (Nat × Fld × Nat × Nat) :=
  regFields.flatMap (fun f =>
    match f.acc with
    | .srw => (f.inWord a).map (fun e => (e.1, f, e.2.1, e.2.2))
    | _ => [])

/-- Writes the S-RW fields of the word at `a` (R11). -/
def Image.putFields (m : Image) (a v : Nat) : Image :=
  (stagedFields a).foldl (fun (m : Image) (x : Nat × Fld × Nat × Nat) =>
    { m with flds := x.2.1.put m.flds x.2.2.1 x.2.2.2 (bitsOf v x.1 x.2.1.width) }) m

/-- Where the windows of R401 point: NB_WIN.PAGE, SKN_PPAGE.CORE and SKN_PPAGE.PAGE. (DEDUCED 45 of
notes/assumptions) -/
structure Windows where
  node : Nat
  core : Nat
  page : Nat
  deriving DecidableEq, Repr

/-- The node and word at an address of the needle-bed window. -/
def nodeWindow (page a : Nat) : Option (Nat × Nat) :=
  if 0x02100000 ≤ a ∧ a < 0x02200000 then
    some (page * 16384 + (a - 0x02100000) / 64, (a - 0x02100000) / 4 % 16)
  else none

/-- The program-image key at an address of the program window. -/
def progWindow (w : Windows) (a : Nat) : Option Nat :=
  if 0x00018000 ≤ a ∧ a < 0x00020000 then some (w.core * 0x40000 + w.page * 0x8000 + (a - 0x00018000)) else none

/-- An address that holds skein-held content (R401). -/
def stagingAt (v : Variant) (a : Nat) : Bool :=
  (nodeWindow 0 a).isSome || (progWindow ⟨0, 0, 0⟩ a).isSome || (tableMask v a).isSome ||
    !(stagedFields a).isEmpty

/-- A word written to STAGING at a host address; resources the variant lacks ignore it (R7, R401). -/
def Image.stagingWrite (m : Image) (v : Variant) (w : Windows) (a x : Nat) : Image :=
  if !busPresent v a then m
  else
    match nodeWindow w.node a, progWindow w a, tableMask v a with
    | some (i, j), _, _ => if i < v.nodes then m.putNodeWord i j x else m
    | _, some k, _ =>
      if w.core < v.cores then
        (bytesLE 4 x).zipIdx.foldl (fun (m : Image) (b : Byte × Nat) => m.putProg (k + b.2) b.1) m
      else m
    | _, _, some mask => m.putWord a (masked x mask)
    | none, none, none => m.putFields a x

/-- A core's program image of a slot differs from another's (R402). -/
def progDiffers (m old : Image) (n : Nat) : Bool :=
  decide (m.prog.range (0x40000 * n) (0x40000 * (n + 1)) ≠ old.prog.range (0x40000 * n) (0x40000 * (n + 1))) ||
  decide (m.fld Reg.SKN_PIMG_KEEP_DATA n ≠ old.fld Reg.SKN_PIMG_KEEP_DATA n) ||
  decide (m.fld Reg.SKN_PIMG_DLEN n ≠ old.fld Reg.SKN_PIMG_DLEN n)

/-- Loads core `n` from the ACTIVE image: instruction memory, the first DLEN × 64 bytes of data memory,
and zero in the rest unless it is kept; every register is zero (R91, R402). -/
def State.loadCore (s : State) (n : Nat) (keep : Bool) : State :=
  let base := 0x40000 * n
  let top := 0x10000 + min 0x30000 (s.conf Reg.SKN_PIMG_DLEN n * 64)
  let k := s.core n
  let data := ((s.skn.act.prog.window base (base + top)).range 0x10000 top)
  let rest := if keep then k.dmem.range top 0x40000 else []
  s.setCore n { k with
    gpr := [], acc := [], flags := 0, sticky := 0, pc := 0
    imem := s.skn.act.prog.window base (base + 0x10000)
    dmem := data ++ rest }

end Sys2Proof.Machine
end

