-- ==== Sys2Proof/Machine/Power.lean ====
section
/-! DEFINITION. Power-up, reset, cast-on and its failures, the loss of REFCLK, the Chaip image, and the
end of a linger (R48, R49, R57, R61 to R67, R414 to R419, R437, R438). -/

namespace Sys2Proof.Machine

/-! ### CRC -/

/-- One bit of the reflected CRC-32 of IEEE 802.3 (R413). -/
def crcBit (c : W32) : W32 := if c.getLsbD 0 then (c >>> 1) ^^^ 0xEDB88320#32 else c >>> 1

/-- One byte of the CRC (R413). -/
def crcByte (c : W32) (b : Byte) : W32 :=
  crcBit (crcBit (crcBit (crcBit (crcBit (crcBit (crcBit (crcBit (c ^^^ b.zeroExtend 32))))))))

/-- CRC-32 of a list of bytes (R413). -/
def crc32 (l : List Byte) : Nat := (l.foldl crcByte 0xFFFFFFFF#32 ^^^ 0xFFFFFFFF#32).toNat

/-! ### Reset and loss of power -/

/-- The AON registers, which keep their values while the main supplies are off (R63, R75). (DEDUCED 18 of
notes/assumptions) -/
def aonRegs (t : Tab W32) : Tab W32 := t.range (0x100 * 8) (0x120 * 8)

/-- Bytes of a table of bytes. -/
def tabBytes (t : Tab Byte) (off n : Nat) : List Byte := (List.range n).map (fun i => Tab.get 0 t (off + i))

/-- The gauge store passes the check of MAGIC, LAYOUT and CRC (R414). (DESIGN CHOICE 16 of notes/assumptions) -/
def gaugeGood (t : Tab Byte) : Bool :=
  decide (leNat (tabBytes t 0 4) = 0x53475654) && decide (leNat (tabBytes t 4 2) = 1) &&
    decide (leNat (tabBytes t 8188 4) = crc32 (tabBytes t 0 8188))

/-- A table of bytes from a function; zeros are not listed. -/
def tabOf (n : Nat) (f : Nat → Byte) : Tab Byte :=
  ((List.range n).map (fun i => (i, f i))).filter (fun p => p.2 != 0)

/-- What a programming that is cut off leaves in the gauge store: free bytes that fail the check (R414, R415).
(DEDUCED 20 of notes/assumptions) -/
def cutStore (d : Nat) : Tab Byte :=
  let g := tabOf 8192 (fun i => Config.brokenGauge d i)
  if gaugeGood g then Tab.put 0 g 0 0 else g

/-- The device with the logic die's state lost and the AON domain, the gauge store and the pins kept, and the
condition of the gate-drive supply with them (R63, R438, R440). (DEDUCED 18, 20 of notes/assumptions) -/
def State.lose (s : State) (phase : Phase) (pwren resetN supplies : Bool) : State :=
  let cut := s.boot.prog.isSome
  let store := if cut then cutStore s.draws else s.boot.gauge
  let t := State.cleared s.variant phase pwren resetN supplies (aonRegs s.regs) s.aon store (s.draws + cut.toNat)
    s.hostData s.pending
  let t := { t with dsl := { t.dsl with gduv := s.dsl.gduv } }
  t.setLive Reg.SYS_CLKSTAT_AON_XTAL_OK s.aon.xtal.toNat

/-- PWREN falls: the main supplies go with it (R63, R439). (DESIGN CHOICE 19 of notes/assumptions) -/
def State.dropPwren (s : State) : State := s.lose .unpowered false false false

/-- The AON domain raises PWREN, while AONCLK runs (R437). (DEDUCED 26 of notes/assumptions) -/
def State.raisePwren (s : State) : State :=
  if s.power.phase = .unpowered ∧ s.aon.xtal = true then { s with power := { s.power with pwren := true } } else s

/-- POWER_UP: the main supplies ramp after PWREN rises (R437). (DEDUCED 129 of notes/assumptions) -/
def execPowerUp (s : State) : Res :=
  if s.power.phase = .unpowered ∧ s.power.pwren = true then
    .next { s with power := { s.power with supplies := true, phase := .held } }
  else .next s

/-- RESET_RELEASE: cast-on starts at step 2 (R64, R438). -/
def execResetRelease (s : State) : Res :=
  if s.power.phase = .held then
    let s := { s with power := { s.power with resetN := true, phase := .castOn 2 } }
    .next (s.setLive Reg.SYS_CLKSTAT_AON_XTAL_OK s.aon.xtal.toNat)
  else .next s

/-- RESET_ASSERT: the logic die enters reset at once; the AON domain goes on (R438). (DEDUCED 129 of
notes/assumptions) -/
def execResetAssert (s : State) : Res :=
  if s.power.phase = .unpowered then .next s else .next (s.lose .held s.power.pwren false true)

/-! ### Cast-on -/

/-- Cast-on stops in the failed state: FAIL gives the cause, both ports are in single-lane mode, and every
output is as before row 0 (R65, R66, R392). -/
def State.castFail (s : State) (code : Nat) : State :=
  let s := { s with power := { s.power with phase := .failed, images := [] } }
  let s := s.setLive Reg.SYS_BOOTSTAT_FAIL code
  let s := s.setLive Reg.SYS_PWRSTAT_CUR 0xF
  (s.setLive Reg.HP_CFG_OCT 0 0).setLive Reg.HP_CFG_OCT 0 1

/-- Moves cast-on to a step. -/
def State.castStep (s : State) (k : Nat) : State := { s with power := { s.power with phase := .castOn k } }

/-- REFCLK_CHECK_DONE: step 2 ends (R48, R64, R66). -/
def execRefclkCheckDone (ok : Bool) (s : State) : Res :=
  if s.power.phase = .castOn 2 then
    .next (if ok then (s.setLive Reg.SYS_CLKSTAT_REF_OK 1).castStep 3 else s.castFail 1)
  else .next s

/-- PLL_LOCK: step 3 ends; DT starts at 0 (R49, R64). -/
def execPllLock (s : State) : Res :=
  if s.power.phase = .castOn 3 then
    let s := (s.setLive Reg.SYS_CLKSTAT_TCLK_LOCK 1).setLive Reg.SYS_CLKSTAT_FCLK_LOCK 1
    let s := s.setLive Reg.SYS_CLKSTAT_DCLK_LOCK 1
    .next ({ s with time := { s.time with dt := 0, valid := true } }.castStep 4)
  else .next s

/-- PLL_LOCK_FAILED: step 3 fails (R66). -/
def execPllLockFailed (s : State) : Res :=
  .next (if s.power.phase = .castOn 3 then s.castFail 2 else s)

/-- The tap tables as seeded from the tap steps of the gauge store (R59). (DESIGN CHOICE 23 of notes/assumptions) -/
def State.seedTaps (s : State) : Tab Byte :=
  tabOf (514 * 64) (fun k => Config.seedTap (s.gauge (416 + 4 * (k / 64)) 2) (k % 64))

/-- GAUGE_CHECK_DONE: step 4 loads the gauge store, or the built-in defaults, and seeds the tap tables and the
trim (R57, R59, R66, R414). (DEDUCED 17; DESIGN CHOICE 22 of notes/assumptions) -/
def execGaugeCheckDone (s : State) : Res :=
  if s.power.phase = .castOn 4 then
    let good := gaugeGood s.boot.gauge
    let loaded := if good then s.boot.gauge else tabOf 8192 Config.defaultGauge
    let s := { s with boot := { s.boot with loaded := loaded } }
    let s := s.setLive Reg.SYS_BOOTSTAT_GAUGE_BAD (!good).toNat
    let s := s.setLive Reg.GSB_WCNT_N (leNat (tabBytes s.boot.gauge 8 4))
    let trim := s.gauge 16 3
    let s := (s.setLive Reg.SYS_TCLK_TRIM_TRIM trim).setLive Reg.GNB_FREQ_FREQ trim
    .next ({ s with time := { s.time with trim := BitVec.ofNat 24 trim, taps := s.seedTaps } }.castStep 5)
  else .next s

/-- DRAM_TRAINING_DONE: step 5 ends, or fails (R64, R66). -/
def execDramTrainingDone (ok : Bool) (s : State) : Res :=
  if s.power.phase = .castOn 5 then .next (if ok then s.castStep 6 else s.castFail 3) else .next s

/-! ### The Chaip image -/

/-- Number of section entries of a copy (R417). -/
def chaipSections (c : List Byte) : Nat := leAt c 6 2

/-- A section entry: type, sub, flags, offset, length and CRC (R417). -/
structure Section where
  typ : Nat
  sub : Nat
  flags : Nat
  body : List Byte
  crc : Nat
  deriving DecidableEq, Repr

/-- Section `j` of a copy (R417). -/
def chaipSection (c : List Byte) (j : Nat) : Section :=
  let e := 64 + 16 * j
  ⟨leAt c e 1, leAt c (e + 1) 1, leAt c (e + 2) 2, (c.drop (leAt c (e + 4) 4)).take (leAt c (e + 8) 4),
    leAt c (e + 12) 4⟩

/-- The image checks of a copy (R417, R418). -/
def chaipGood (c : List Byte) : Bool :=
  let n := chaipSections c
  decide (leAt c 0 4 = 0x49504843) && decide (leAt c 4 2 = 1) && decide (1 ≤ n ∧ n ≤ 64) &&
  decide (leAt c 8 4 ≠ 0) && decide (leAt c 60 4 = crc32 (c.take 60 ++ (c.drop 64).take (16 * n))) &&
  (List.range n).all (fun j => decide ((chaipSection c j).crc = crc32 (chaipSection c j).body))

/-- Words of a list of bytes with their byte offsets. -/
def wordsAt (l : List Byte) (n : Nat) : List (Nat × Nat) := (List.range n).map (fun i => (4 * i, leAt l (4 * i) 4))

/-- Appends a pair to the live set; a 65th entry stands beyond the last (R419). -/
def Image.appendLive (m : Image) (i a v : Nat) : Image :=
  if i < 64 then
    { m with flds := Reg.SKN_LIVE_V_VALUE.put (Reg.SKN_LIVE_ADDR.put m.flds i 0 a) i 0 v }
  else m.putWord 0x00011200 1

/-- The records of a SKEIN section, with the count of live entries so far (R417, R419). (DEDUCED 31 of
notes/assumptions) -/
def skeinRecords (v : Variant) : Nat → List Byte → Image × Nat → Image × Nat
  | 0, _, r => r
  | fuel + 1, l, (m, live) =>
    if l.length < 8 then (m, live)
    else
      let a := leAt l 0 4
      let n := leAt l 4 2
      let body := l.drop 8
      match leAt l 6 1 with
      | 1 =>
        let m := (wordsAt body n).foldl (fun (m : Image) (x : Nat × Nat) =>
          m.stagingWrite v ⟨0, 0, 0⟩ (a + x.1) x.2) m
        skeinRecords v fuel (body.drop (4 * n)) (m, live)
      | 2 =>
        let m := (wordsAt body (16 * n)).foldl (fun (m : Image) (x : Nat × Nat) =>
          m.putNodeWord (a + x.1 / 64) (x.1 / 4 % 16) x.2) m
        skeinRecords v fuel (body.drop (64 * n)) (m, live)
      | 3 =>
        let m := (List.range n).foldl (fun (m : Image) j =>
          m.appendLive (live + j) (leAt body (8 * j) 4) (leAt body (8 * j + 4) 4)) m
        skeinRecords v fuel (body.drop (8 * n)) (m, live + n)
      | _ => (m, live)

/-- Places a PROGRAM section: instruction bytes, then data bytes, with SKN_PIMG (R417). -/
def Image.placeProgram (m : Image) (q : Section) : Image :=
  let ilen := leAt q.body 0 4
  let dlen := leAt q.body 4 4
  let base := 0x40000 * q.sub
  let put := fun (m : Image) (at_ : Nat) (l : List Byte) =>
    l.zipIdx.foldl (fun (m : Image) (b : Byte × Nat) => m.putProg (at_ + b.2) b.1) m
  let m := put m base (((q.body.drop 8).take ilen).take 0x10000)
  let m := put m (base + 0x10000) (((q.body.drop (8 + ilen)).take dlen).take 0x30000)
  if q.sub < 8 then
    { m with flds := Reg.SKN_PIMG_DLEN.put (Reg.SKN_PIMG_KEEP_DATA.put m.flds q.sub 0 (q.flags % 2)) q.sub 0 (dlen / 64) }
  else m

/-- Writes a byte of the weight memory (R400, R417). -/
def Image.putWeight (m : Image) (o : Nat) (b : Byte) : Image :=
  let a := 0x05800000 + o / 4 * 4
  let w := m.word a
  let sh := 8 * (o % 4)
  m.putWord a (BitVec.ofNat 32 (w - bitsOf w sh 8 * 2 ^ sh + b.toNat * 2 ^ sh))

/-- Places one section of a copy (R417). (DEDUCED 31 of notes/assumptions) -/
def placeSection (v : Variant) (r : Image × Nat) (q : Section) : Image × Nat :=
  match q.typ with
  | 1 => (r.1.placeProgram q, r.2)
  | 2 => skeinRecords v (q.body.length + 1) q.body r
  | 3 =>
    if v.fge then
      let o := leAt q.body 0 4
      ((q.body.drop 4).zipIdx.foldl (fun (m : Image) (b : Byte × Nat) =>
        if o + b.2 < 0x400000 then m.putWeight (o + b.2) b.1 else m) r.1, r.2)
    else r
  | _ => r

/-- The skein that a copy describes; its version is IMG_VER (R417). (DEDUCED 31 of notes/assumptions) -/
def placeCopy (v : Variant) (c : List Byte) : Image :=
  let m := ((List.range (chaipSections c)).foldl (fun (r : Image × Nat) j =>
    placeSection v r (chaipSection c j)) (Image.blank, 0)).1
  { m with flds := Reg.SKN_VER_VER.put m.flds 0 0 (leAt c 8 4) }

/-- The link on which the boot goes on after the header of copy 0 was read in 1S-1S-1S, opcode 0x13 without dummy
cycles: where LINK is 0x01 the SETUP sequences are sent and the port switches to 8D-8D-8D with OP8D, DUMMY8D and FREQ,
unless the header then reads differently (R416, R417). -/
def bootLink (c : FlashCopy) : BootLink :=
  let h := c.slow
  if leAt h 20 1 = 1 then
    let seq := fun (j : Nat) => ((h.drop (25 + 8 * j)).take 7).take (leAt h (24 + 8 * j) 1)
    let sent := [seq 0, seq 1].filter (fun l => !l.isEmpty)
    if c.fast.take 64 = h.take 64 then ⟨true, leAt h 21 1, leAt h 22 1, leAt h 23 1, sent⟩
    else ⟨false, 0x13, 0, 0, sent⟩
  else ⟨false, 0x13, 0, 0, []⟩

/-- A copy as a link reads it. -/
def BootLink.read (k : BootLink) (c : FlashCopy) : List Byte := if k.octal then c.fast else c.slow

/-- CHAIP_IMAGE_READ: step 6 reads both copies on the link that the header of copy 0 names, and keeps those that pass
the image checks; with none cast-on fails (R416, R418). (DEDUCED 3 of notes/assumptions) -/
def execChaipImageRead (copy0 copy1 : FlashCopy) (s : State) : Res :=
  if s.power.phase = .castOn 6 then
    let k := bootLink copy0
    let s := { s with boot := { s.boot with link := k } }
    let good := [(0, k.read copy0), (1, k.read copy1)].filter (fun c => chaipGood c.2)
    if good.isEmpty then .next (s.castFail 4)
    else .next ({ s with power := { s.power with images := good } }.castStep 7)
  else .next s

/-- The first copy that the checker accepts, with what the checker shows: its number, its skein and SLOT_BASE. At cast-on
no version is to be exceeded and no grant is needed (R404, R418, R419). (DEDUCED 17, 31 of notes/assumptions) -/
def State.acceptCopy (s : State) : List (Nat × List Byte) → State × Option (Nat × Image × Nat)
  | [] => (s, none)
  | (k, c) :: t =>
    let m := placeCopy s.variant c
    let r := s.checkSkein m false true
    let s := s.showCheck r
    if r.1 = 0 then (s, some (k, m, leAt c 12 4)) else s.acceptCopy t

/-- The accepted skein becomes ACTIVE and the cores are loaded; row 0 is due at the next multiple of 250 µs
(R64, R91, R100, R418). -/
def State.placeSkein (s : State) (k : Nat) (m : Image) (base : Nat) : State :=
  let ver := m.fld Reg.SKN_VER_VER
  let row0 := gridUp 6400000 (s.time.dt + 1)
  let s := { s with
    skn := ⟨m, Image.blank, m, none, none⟩
    time := { s.time with d0 := row0 }
    row := { s.row with
      num := 0, k := m.rowK, started := false
      next := if s.rpl.on then BitVec.ofNat 64 (s.live64 Reg.DXC_RPL_T0_LO_T0 Reg.DXC_RPL_T0_HI_T0) else row0 }
    power := { s.power with phase := .waitRow0, images := [] } }
  let s := (s.setLive Reg.SYS_BOOTSTAT_COPY k).setLive Reg.SYS_BOOTSTAT_FAIL 0
  let s := (s.setLive Reg.SKN_VACT_VER ver).setLive Reg.SKN_VMAX_VER ver
  let s := (s.setLive Reg.SKN_VPRV_VER 0).setLive Reg.SKN_BASE_BASE base
  let s := (s.setLive Reg.SKN_SLOTS_ACT 0).setLive Reg.SKN_SLOTS_STG 1
  let s := (s.setLive Reg.SKN_SLOTS_PRV 2).setLive Reg.SKN_STAT_PRV_VALID 0
  let s := (s.setLive Reg.SKN_STAT_PENDING 0).setLive Reg.SKN_STAT_STG_READY 0
  let s := { s with skn := { s.skn with readyAt := some (BitVec.ofNat 32 s.skeinLead) } }
  (List.range s.variant.cores).foldl (fun (s : State) n => (s.setCore n Core.fresh).loadCore n false) s

/-- IMAGE_PLACE_DONE: step 7 makes the accepted candidate ACTIVE; if every good copy is refused cast-on
fails (R66, R418). (DEDUCED 3 of notes/assumptions) -/
def execImagePlaceDone (s : State) : Res :=
  if s.power.phase = .castOn 7 then
    match s.acceptCopy s.power.images with
    | (s, some (k, m, base)) => .next (s.placeSkein k m base)
    | (s, none) => .next (s.castFail 5)
  else .next s

/-- A write of 1 to SYS_MODE_CTL.RECAST in the failed state restarts cast-on from step 2 (R49, R66). (DEDUCED 18 of
notes/assumptions) -/
def State.recastNow (s : State) : State :=
  if s.power.phase = .failed then s.lose (.castOn 2) s.power.pwren true true else s

/-- RECAST (R66). -/
def execRecast (p : Port) (s : State) : Res := .next (s.hostLive p 0x14 1 (fun s => s.recastNow))

/-! ### Loss of REFCLK -/

/-- The device after REFCLK is declared lost: outputs off, the edge queue lost with what waits for a bank or an old
actuator, rows stopped, DT invalid, and the clock-loss event with stamp 0 (R48, R428, R430). (DEDUCED 25 of
notes/assumptions) -/
def State.loseClock (s : State) : State :=
  let s := (s.channelsLow).slicesOff
  let s := { s with
    ple := { s.ple with
      queue := [], pass := none
      nodes := s.ple.nodes.map (fun (p : Nat × NodeRt) => (p.1, { p.2 with orphan := [] })) }
    dsl := { s.dsl with waiting := [] } }
  let s := (s.setLive Reg.PLE_QUSED_USED 0).setLive Reg.PLE_QUSED_SPEC 0
  let s := s.setLive Reg.SYS_CLKSTAT_REF_OK 0
  let s := s.raise 0 0 0
  let s := (s.setLive Reg.HP_CFG_OCT 0 0).setLive Reg.HP_CFG_OCT 0 1
  { s with
    time := { s.time with valid := false }
    power := { s.power with phase := .clockLost } }

/-- REFCLK is lost during cast-on or in the failed state: REF_OK, the event and DT as ever (R48, R428). -/
def State.clockGone (s : State) : State :=
  let s := (s.setLive Reg.SYS_CLKSTAT_REF_OK 0).raise 0 0 0
  { s with time := { s.time with valid := false } }

/-- CLOCK_LOSS: during cast-on it is a failure of that cast-on; in the failed state the outputs are off already;
after cast-on it stops the device (R48, R66). (DEDUCED 24, 25 of notes/assumptions) -/
def execClockLoss (s : State) : Res :=
  match s.power.phase with
  | .castOn k => .next (if 3 ≤ k then s.clockGone.castFail 1 else s)
  | .failed => .next (if s.flag Reg.SYS_CLKSTAT_REF_OK then s.clockGone else s)
  | .waitRow0 | .rows | .doze | .replayHold | .replayEnded => .next s.loseClock
  | _ => .next s

/-! ### The linger -/

/-- The stamp at which the linger has lasted its length (R67). -/
def State.lingerEnd (s : State) : Stamp :=
  s.power.lingerFrom + subTicks (s.conf Reg.SYS_MODE_LINGER * 100 * msTicks)

/-- LINGER_ELAPSED (R67). -/
def execLingerElapsed (s : State) : Res :=
  if s.power.bind = .linger ∧ s.rowsRun = true ∧ s.recordFirst s.lingerEnd = false then
    let s := s.advanceTo s.lingerEnd
    .next { s with power := { s.power with lingerOver := true } }
  else .next s

/-- A write of SYS_MODE_CTL.PARK ends the linger; outside it the write is ignored (R67). -/
def State.parkNow (s : State) : State :=
  if s.power.bind = .linger then { s with power := { s.power with lingerOver := true } } else s

/-- PARK (R67). -/
def execPark (p : Port) (s : State) : Res := .next (s.hostLive p 0x14 2 (fun s => s.parkNow))

end Sys2Proof.Machine
end

