-- ==== Sys2Proof/Machine/DexAlu.lean ====
section
/-! DEFINITION. The register, immediate and accumulator groups of the Dexiz instructions (R114 to
R116). -/

namespace Sys2Proof.Machine

/-- Writes a result and takes Z and N from it (R107). -/
def znOut (k : Core) (rd : BitVec 5) (r : W32) : Core := (k.flagsZN r).put rd r

/-- Saturates an exact value to 32 bits, sets SAT where that changes it, writes it, and takes Z and N
from it (R107, R109). -/
def satOut (k : Core) (rd : BitVec 5) (x : Int) : Core :=
  znOut (k.stickIf (sats32 x) stSat) rd (sat32 x)

/-- `round(a × 2^−n)` (R109). -/
def roundRight (a : W32) (n : Nat) : W32 := BitVec.ofInt 32 (shiftRound a.toInt (-(n : Int)))

/-- The result of DIV and DIVQ by zero (R114). -/
def divZero (a : W32) : W32 := if a.msb then 0x80000000 else 0x7FFFFFFF

/-- `round(a × 2^sh ÷ b)`, rounded once (R109). -/
def divScaled (a b sh : Int) : Int :=
  let n := if b < 0 then -a else a
  if 0 ≤ sh then divRound (n * 2 ^ sh.toNat) b.natAbs
  else divRound n (b.natAbs * 2 ^ (-sh).toNat)

/-- The number of leading zero bits among the low `n` bits. -/
def leadingZeros : Nat → W32 → Nat
  | 0, _ => 0
  | n + 1, a => if a.getLsbD n then 0 else leadingZeros n a + 1

/-- An instruction of the register group: fields its entry does not use must be zero (R112). -/
def State.dexR (s : State) (c : Nat) (f : RFmt) (rd ra rb sh : Bool) (cycles : Nat)
    (eff : W32 → W32 → Core → Core) : Res :=
  s.dexPlain c ((rd || f.rd == 0) && (ra || f.ra == 0) && (rb || f.rb == 0) && (sh || f.sh == 0)) cycles
    (fun k => eff (k.s f.ra) (k.s f.rb) k)

/-- An instruction of the immediate group (R115). -/
def State.dexI (s : State) (c : Nat) (f : IFmt) (rd ra : Bool) (eff : W32 → Core → Core) : Res :=
  s.dexPlain c ((rd || f.rd == 0) && (ra || f.ra == 0)) 1 (fun k => eff (k.s f.ra) k)

/-- An instruction of the accumulator group (R116). -/
def State.dexA (s : State) (c : Nat) (f : AFmt) (rd ra rb sh : Bool) (cycles : Nat)
    (eff : W32 → W32 → Core → Core) : Res :=
  s.dexPlain c ((rd || f.rd == 0) && (ra || f.ra == 0) && (rb || f.rb == 0) && (sh || f.sh == 0)) cycles
    (fun k => eff (k.s f.ra) (k.s f.rb) k)

/-- Saturates an exact value to 64 bits into an accumulator and sets SAT where that changes it
(R109). -/
def satAcc (k : Core) (r : BitVec 2) (x : Int) : Core :=
  (k.stickIf (sats64 x) stSat).putA r (sat64 x)

/-- NOP: No operation (R114). -/
def execNop (c : Nat) (f : RFmt) (s : State) : Res :=
  s.dexR c f false false false false 1 (fun _ _ k => k)

/-- ADD: d = (a + b) mod 2^32; ZNCV (R114). -/
def execAdd (c : Nat) (f : RFmt) (s : State) : Res :=
  s.dexR c f true true true false 1 (fun a b k => (k.flagsAdd a b).put f.rd (a + b))

/-- SUB: d = (a − b) mod 2^32; ZNCV (R114). -/
def execSub (c : Nat) (f : RFmt) (s : State) : Res :=
  s.dexR c f true true true false 1 (fun a b k => (k.flagsSub a b).put f.rd (a - b))

/-- ADDS: d = sat32(a + b); ZN; SAT (R114). -/
def execAdds (c : Nat) (f : RFmt) (s : State) : Res :=
  s.dexR c f true true true false 1 (fun a b k => satOut k f.rd (a.toInt + b.toInt))

/-- SUBS: d = sat32(a − b); ZN; SAT (R114). -/
def execSubs (c : Nat) (f : RFmt) (s : State) : Res :=
  s.dexR c f true true true false 1 (fun a b k => satOut k f.rd (a.toInt - b.toInt))

/-- AND: d = a AND b; ZN (R114). -/
def execAnd (c : Nat) (f : RFmt) (s : State) : Res :=
  s.dexR c f true true true false 1 (fun a b k => znOut k f.rd (a &&& b))

/-- OR: d = a OR b; ZN (R114). -/
def execOr (c : Nat) (f : RFmt) (s : State) : Res :=
  s.dexR c f true true true false 1 (fun a b k => znOut k f.rd (a ||| b))

/-- XOR: d = a XOR b; ZN (R114). -/
def execXor (c : Nat) (f : RFmt) (s : State) : Res :=
  s.dexR c f true true true false 1 (fun a b k => znOut k f.rd (a ^^^ b))

/-- ANDN: d = a AND NOT b; ZN (R114). -/
def execAndn (c : Nat) (f : RFmt) (s : State) : Res :=
  s.dexR c f true true true false 1 (fun a b k => znOut k f.rd (a &&& ~~~b))

/-- SLL: d = a shifted left by b[4:0]; ZN (R114). -/
def execSll (c : Nat) (f : RFmt) (s : State) : Res :=
  s.dexR c f true true true false 1 (fun a b k => znOut k f.rd (a <<< (b.toNat % 32)))

/-- SRL: d = a shifted right by b[4:0], zeros in; ZN (R114). -/
def execSrl (c : Nat) (f : RFmt) (s : State) : Res :=
  s.dexR c f true true true false 1 (fun a b k => znOut k f.rd (a >>> (b.toNat % 32)))

/-- SRA: d = a shifted right by b[4:0], sign in; ZN (R114). -/
def execSra (c : Nat) (f : RFmt) (s : State) : Res :=
  s.dexR c f true true true false 1 (fun a b k => znOut k f.rd (a.sshiftRight (b.toNat % 32)))

/-- SRAR: d = round(a × 2^−b[4:0]); ZN (R114). -/
def execSrar (c : Nat) (f : RFmt) (s : State) : Res :=
  s.dexR c f true true true false 1 (fun a b k => znOut k f.rd (roundRight a (b.toNat % 32)))

/-- SLLI: As SLL, by SH (R114). -/
def execSlli (c : Nat) (f : RFmt) (s : State) : Res :=
  s.dexR c f true true false true 1 (fun a _ k => znOut k f.rd (a <<< f.sh.toNat))

/-- SRLI: As SRL, by SH (R114). -/
def execSrli (c : Nat) (f : RFmt) (s : State) : Res :=
  s.dexR c f true true false true 1 (fun a _ k => znOut k f.rd (a >>> f.sh.toNat))

/-- SRAI: As SRA, by SH (R114). -/
def execSrai (c : Nat) (f : RFmt) (s : State) : Res :=
  s.dexR c f true true false true 1 (fun a _ k => znOut k f.rd (a.sshiftRight f.sh.toNat))

/-- SRARI: As SRAR, by SH (R114). -/
def execSrari (c : Nat) (f : RFmt) (s : State) : Res :=
  s.dexR c f true true false true 1 (fun a _ k => znOut k f.rd (roundRight a f.sh.toNat))

/-- MUL: d = (a × b) mod 2^32; ZN (R114). -/
def execMul (c : Nat) (f : RFmt) (s : State) : Res :=
  s.dexR c f true true true false 2 (fun a b k => znOut k f.rd (a * b))

/-- MULH: d = bits 63:32 of the signed product; ZN (R114). -/
def execMulh (c : Nat) (f : RFmt) (s : State) : Res :=
  s.dexR c f true true true false 2 (fun a b k => znOut k f.rd (BitVec.ofInt 32 (a.toInt * b.toInt / 2 ^ 32)))

/-- MULQ: d = sat32(round(a × b × 2^SH)); ZN; SAT (R114). -/
def execMulq (c : Nat) (f : RFmt) (s : State) : Res :=
  s.dexR c f true true true true 2 (fun a b k => satOut k f.rd (shiftRound (a.toInt * b.toInt) (shVal f.sh)))

/-- DIV: Signed division; ZN; DIVZ, SAT (R114). -/
def execDiv (c : Nat) (f : RFmt) (s : State) : Res :=
  s.dexR c f true true true false 34 (fun a b k => if b = 0 then znOut (k.stick stDivz) f.rd (divZero a) else satOut k f.rd (a.toInt.tdiv b.toInt))

/-- DIVU: Unsigned division; ZN; DIVZ (R114). -/
def execDivu (c : Nat) (f : RFmt) (s : State) : Res :=
  s.dexR c f true true true false 34 (fun a b k => if b = 0 then znOut (k.stick stDivz) f.rd 0xFFFFFFFF else znOut k f.rd (a / b))

/-- REM: Signed remainder; ZN; DIVZ (R114). -/
def execRem (c : Nat) (f : RFmt) (s : State) : Res :=
  s.dexR c f true true true false 34 (fun a b k => if b = 0 then znOut (k.stick stDivz) f.rd a else znOut k f.rd (BitVec.ofInt 32 (a.toInt.tmod b.toInt)))

/-- DIVQ: d = sat32(round(a × 2^SH ÷ b)); ZN; DIVZ, SAT (R114). -/
def execDivq (c : Nat) (f : RFmt) (s : State) : Res :=
  s.dexR c f true true true true 34 (fun a b k => if b = 0 then znOut (k.stick stDivz) f.rd (divZero a) else satOut k f.rd (divScaled a.toInt b.toInt (shVal f.sh)))

/-- MIN: d = smaller of a and b, signed; ZN (R114). -/
def execMin (c : Nat) (f : RFmt) (s : State) : Res :=
  s.dexR c f true true true false 1 (fun a b k => znOut k f.rd (if a.toInt ≤ b.toInt then a else b))

/-- MAX: d = larger of a and b, signed; ZN (R114). -/
def execMax (c : Nat) (f : RFmt) (s : State) : Res :=
  s.dexR c f true true true false 1 (fun a b k => znOut k f.rd (if a.toInt ≤ b.toInt then b else a))

/-- MINU: As MIN, unsigned (R114). -/
def execMinu (c : Nat) (f : RFmt) (s : State) : Res :=
  s.dexR c f true true true false 1 (fun a b k => znOut k f.rd (if a.toNat ≤ b.toNat then a else b))

/-- MAXU: As MAX, unsigned (R114). -/
def execMaxu (c : Nat) (f : RFmt) (s : State) : Res :=
  s.dexR c f true true true false 1 (fun a b k => znOut k f.rd (if a.toNat ≤ b.toNat then b else a))

/-- ABS: d = sat32(|a|); ZN; SAT (R114). -/
def execAbs (c : Nat) (f : RFmt) (s : State) : Res :=
  s.dexR c f true true false false 1 (fun a _ k => satOut k f.rd (a.toInt.natAbs : Int))

/-- NEGS: d = sat32(−a); ZN; SAT (R114). -/
def execNegs (c : Nat) (f : RFmt) (s : State) : Res :=
  s.dexR c f true true false false 1 (fun a _ k => satOut k f.rd (-a.toInt))

/-- CLZ: d = number of leading zero bits; ZN (R114). -/
def execClz (c : Nat) (f : RFmt) (s : State) : Res :=
  s.dexR c f true true false false 1 (fun a _ k => znOut k f.rd (BitVec.ofNat 32 (leadingZeros 32 a)))

/-- SLT: d = 1 if a < b signed, else 0; ZN (R114). -/
def execSlt (c : Nat) (f : RFmt) (s : State) : Res :=
  s.dexR c f true true true false 1 (fun a b k => znOut k f.rd (if a.toInt < b.toInt then 1 else 0))

/-- SLTU: As SLT, unsigned (R114). -/
def execSltu (c : Nat) (f : RFmt) (s : State) : Res :=
  s.dexR c f true true true false 1 (fun a b k => znOut k f.rd (if a.toNat < b.toNat then 1 else 0))

/-- CMP: FLAGS from a − b (R114). -/
def execCmp (c : Nat) (f : RFmt) (s : State) : Res :=
  s.dexR c f false true true false 1 (fun a b k => k.flagsSub a b)

/-- FLGR: d = FLAGS in bits 3:0 (R114). -/
def execFlgr (c : Nat) (f : RFmt) (s : State) : Res :=
  s.dexR c f true false false false 1 (fun _ _ k => k.put f.rd (k.flags.zeroExtend 32))

/-- FLGW: FLAGS = a[3:0] (R114). -/
def execFlgw (c : Nat) (f : RFmt) (s : State) : Res :=
  s.dexR c f false true false false 1 (fun a _ k => { k with flags := a.truncate 4 })

/-- STKR: d = STICKY in bits 3:0 (R114). -/
def execStkr (c : Nat) (f : RFmt) (s : State) : Res :=
  s.dexR c f true false false false 1 (fun _ _ k => k.put f.rd (k.sticky.zeroExtend 32))

/-- STKC: STICKY = STICKY AND NOT a[3:0] (R114). -/
def execStkc (c : Nat) (f : RFmt) (s : State) : Res :=
  s.dexR c f false true false false 1 (fun a _ k => { k with sticky := k.sticky &&& ~~~(a.truncate 4) })

/-- ADDI: d = (a + sext(IMM)) mod 2^32; ZNCV (R115). -/
def execAddi (c : Nat) (f : IFmt) (s : State) : Res :=
  s.dexI c f true true (fun a k => (k.flagsAdd a (immS f.imm)).put f.rd (a + immS f.imm))

/-- CMPI: FLAGS from a − sext(IMM) (R115). -/
def execCmpi (c : Nat) (f : IFmt) (s : State) : Res :=
  s.dexI c f false true (fun a k => k.flagsSub a (immS f.imm))

/-- ANDI: d = a AND zext(IMM); ZN (R115). -/
def execAndi (c : Nat) (f : IFmt) (s : State) : Res :=
  s.dexI c f true true (fun a k => znOut k f.rd (a &&& immZ f.imm))

/-- ORI: d = a OR zext(IMM); ZN (R115). -/
def execOri (c : Nat) (f : IFmt) (s : State) : Res :=
  s.dexI c f true true (fun a k => znOut k f.rd (a ||| immZ f.imm))

/-- XORI: d = a XOR zext(IMM); ZN (R115). -/
def execXori (c : Nat) (f : IFmt) (s : State) : Res :=
  s.dexI c f true true (fun a k => znOut k f.rd (a ^^^ immZ f.imm))

/-- LUI: d = IMM × 2^16; ZN (R115). -/
def execLui (c : Nat) (f : IFmt) (s : State) : Res :=
  s.dexI c f true false (fun _ k => znOut k f.rd (immZ f.imm <<< 16))

/-- ACLR: aAD = 0 (R116). -/
def execAclr (c : Nat) (f : AFmt) (s : State) : Res :=
  s.dexA c f false false false false 1 (fun _ _ k => k.putA f.ad 0)

/-- AMOV: aAD = b × 2^32 + (a as unsigned) (R116). -/
def execAmov (c : Nat) (f : AFmt) (s : State) : Res :=
  s.dexA c f false true true false 1 (fun a b k => k.putA f.ad (b ++ a))

/-- ALD: aAD = round(a × 2^SH) (R116). -/
def execAld (c : Nat) (f : AFmt) (s : State) : Res :=
  s.dexA c f false true false true 2 (fun a _ k => k.putA f.ad (BitVec.ofInt 64 (shiftRound a.toInt (shVal f.sh))))

/-- MAC: aAD = sat64(aAD + a × b); SAT (R116). -/
def execMac (c : Nat) (f : AFmt) (s : State) : Res :=
  s.dexA c f false true true false 2 (fun a b k => satAcc k f.ad ((k.a f.ad).toInt + a.toInt * b.toInt))

/-- MSU: aAD = sat64(aAD − a × b); SAT (R116). -/
def execMsu (c : Nat) (f : AFmt) (s : State) : Res :=
  s.dexA c f false true true false 2 (fun a b k => satAcc k f.ad ((k.a f.ad).toInt - a.toInt * b.toInt))

/-- AADD: aAD = sat64(aAD + aRB), with RB from 0 to 3; SAT (R116). -/
def execAadd (c : Nat) (f : AFmt) (s : State) : Res :=
  s.dexPlain c (f.rd == 0 && f.ra == 0 && f.sh == 0 && decide (f.rb.toNat < 4)) 2
    (fun k => satAcc k f.ad ((k.a f.ad).toInt + (k.a (f.rb.truncate 2)).toInt))

/-- AEXT: d = sat32(round(aAD × 2^SH)); ZN; SAT (R116). -/
def execAext (c : Nat) (f : AFmt) (s : State) : Res :=
  s.dexA c f true false false true 2 (fun _ _ k => satOut k f.rd (shiftRound (k.a f.ad).toInt (shVal f.sh)))

/-- ALO: d = aAD bits 31:0 (R116). -/
def execAlo (c : Nat) (f : AFmt) (s : State) : Res :=
  s.dexA c f true false false false 1 (fun _ _ k => k.put f.rd ((k.a f.ad).truncate 32))

/-- AHI: d = aAD bits 63:32 (R116). -/
def execAhi (c : Nat) (f : AFmt) (s : State) : Res :=
  s.dexA c f true false false false 1 (fun _ _ k => k.put f.rd ((k.a f.ad >>> 32).truncate 32))

end Sys2Proof.Machine
end

