-- ==== Sys2Proof/Machine/DexMem.lean ====
section
/-! DEFINITION. Loads, stores and control transfer of the Dexiz cores (R117 to R120). -/

namespace Sys2Proof.Machine

/-- A load of `n` bytes from data memory; anywhere else, or misaligned, it writes 0 and sets
STICKY.ADDR (R117). -/
def State.dexLoad (s : State) (c : Nat) (f : IFmt) (n : Nat) (ext : Nat → W32) : Res :=
  s.dexPlain c true 2 (fun k =>
    if inData (k.ea f) n n then k.put f.rd (ext (leNat (k.bytes (k.ea f) n)))
    else (k.put f.rd 0).stick stAddr)

/-- LW: a word of data memory, of the snapshot, or of a ring window in place (R84, R117, R118). -/
def execLw (c : Nat) (f : IFmt) (s : State) : Res :=
  .next (s.dex c true 2 (fun t =>
    let k := t.core c
    let a := k.ea f
    let fin := fun (t : State) (v : Option Nat) =>
      let k := t.core c
      let k := match v with
        | some v => k.put f.rd (BitVec.ofNat 32 v)
        | none => (k.put f.rd 0).stick stAddr
      t.setCore c { k with pc := k.pc + 4 }
    if inData a 4 4 then (none, fin t (some (leNat (k.bytes a 4))))
    else
      match regSpace a with
      | some h => if a % 4 = 0 then let r := t.loadReg c h; (none, fin r.1 r.2) else (none, fin t none)
      | none => (none, fin t none)))

/-- LH: a sign-extended halfword (R118). -/
def execLh (c : Nat) (f : IFmt) (s : State) : Res :=
  s.dexLoad c f 2 (fun v => (BitVec.ofNat 16 v).signExtend 32)

/-- LHU: a zero-extended halfword (R118). -/
def execLhu (c : Nat) (f : IFmt) (s : State) : Res := s.dexLoad c f 2 (BitVec.ofNat 32)

/-- LB: a sign-extended byte (R118). -/
def execLb (c : Nat) (f : IFmt) (s : State) : Res :=
  s.dexLoad c f 1 (fun v => (BitVec.ofNat 8 v).signExtend 32)

/-- LBU: a zero-extended byte (R118). -/
def execLbu (c : Nat) (f : IFmt) (s : State) : Res := s.dexLoad c f 1 (BitVec.ofNat 32)

/-- A store of the low `n` bytes of RD to data memory; anywhere else it is ignored and sets
STICKY.ADDR (R117). -/
def Core.store (k : Core) (f : IFmt) (n : Nat) : Core :=
  if inData (k.ea f) n n then k.putBytes (k.ea f) (bytesLE n (k.s f.rd).toNat)
  else k.stick stAddr

/-- Registers that serve hosts only: a program store is ignored and sets STICKY.ADDR (R397). -/
def hostOnly (h : Nat) : Bool :=
  (decide (0x00020000 ≤ h) && decide (h < 0x00030000)) ||
  (decide (0x08000000 ≤ h) && decide (h < 0x09000000)) ||
  (decide (0x00008000 ≤ h) && decide (h < 0x00008080)) || decide (h / 4 * 4 = 0x118) ||
  (decide (0x00040000 ≤ h) && decide (h < 0x00040220)) || decide (h / 4 * 4 = 0x00040C00)

/-- SW: a word of data memory, or an output that is applied at the next boundary (R29, R117). (DEDUCED 57 of
notes/assumptions) -/
def execSw (c : Nat) (f : IFmt) (s : State) : Res :=
  .next (s.dex c true 1 (fun t =>
    let k := t.core c
    let a := k.ea f
    let go := fun (k : Core) => t.setCore c { k with pc := k.pc + 4 }
    if inData a 4 4 then (none, go (k.store f 4))
    else
      match regSpace a with
      | none => (none, go (k.stick stAddr))
      | some h =>
        if a % 4 ≠ 0 ∨ hostOnly h = true then (none, go (k.stick stAddr))
        else
          let p := if (canTx h).isSome || (ethTx h).isSome then 4 else 0
          (none, (go k).pushOut c (.store (BitVec.ofNat 32 h) (k.s f.rd)) p)))

/-- SH: bits 15:0 of RD (R118). -/
def execSh (c : Nat) (f : IFmt) (s : State) : Res := s.dexPlain c true 1 (fun k => k.store f 2)

/-- SB: bits 7:0 of RD (R118). -/
def execSb (c : Nat) (f : IFmt) (s : State) : Res := s.dexPlain c true 1 (fun k => k.store f 1)

/-- BC: branches if condition CC holds, and with L = 1 links s31 (R119, R120). -/
def execBc (c : Nat) (f : BFmt) (s : State) : Res :=
  s.dexJump c (f.z == 0 && (condHolds (s.core c) f.cc).isSome) 2 (fun k =>
    if condHolds k f.cc = some true then
      let t := (k.pc : Int) + f.off.toInt * 4
      if goodTarget t then
        let k' := if f.l = 1 then k.put 31 (BitVec.ofNat 32 (k.pc + 4)) else k
        some { k' with pc := t.toNat }
      else none
    else some { k with pc := k.pc + 4 })

/-- J: PC = PC + sext(OFF26) × 4 (R119). -/
def execJ (c : Nat) (f : JFmt) (s : State) : Res :=
  s.dexJump c true 2 (fun k =>
    let t := (k.pc : Int) + f.off.toInt * 4
    if goodTarget t then some { k with pc := t.toNat } else none)

/-- JAL: as J, and s31 = PC + 4 (R119). -/
def execJal (c : Nat) (f : JFmt) (s : State) : Res :=
  s.dexJump c true 2 (fun k =>
    let t := (k.pc : Int) + f.off.toInt * 4
    if goodTarget t then some { k.put 31 (BitVec.ofNat 32 (k.pc + 4)) with pc := t.toNat } else none)

/-- JALR: the target is computed before RD is written (R119). -/
def execJalr (c : Nat) (f : IFmt) (s : State) : Res :=
  s.dexJump c true 2 (fun k =>
    let t := (k.ea f : Int)
    if goodTarget t then some { k.put f.rd (BitVec.ofNat 32 (k.pc + 4)) with pc := t.toNat } else none)

end Sys2Proof.Machine
end

