-- ==== Sys2Proof/Machine/DexDev.lean ====
section
/-! DEFINITION. The device group of the Dexiz instructions: ending a task, outputs, posted requests
and the reads of snapshot samples (R121 to R132). -/

namespace Sys2Proof.Machine

/-- The fields a device instruction uses; the others must be zero (R112, R122). -/
def devLegal (f : DFmt) (rd ra rb : Bool) : Bool :=
  (rd || f.rd == 0) && (ra || f.ra == 0) && (rb || f.rb == 0) && f.imm == 0

/-- RWAIT: ends the task; after the row task the core idles with its outputs complete (R79, R122). -/
def execRwait (c : Nat) (f : DFmt) (s : State) : Res :=
  .next (s.dex c (devLegal f false false false) 1 (fun t =>
    let t := t.setCore c { t.core c with pc := (t.core c).pc + 4 }
    match (t.core c).run with
    | .task k => if k < 8 then (none, t.nextTask c) else (none, t.endRow c true)
    | .idle => (none, t)))

/-- EVR: raises a program event at the next boundary; any other source is refused (R123). (DESIGN CHOICE 7 of
notes/assumptions) -/
def execEvr (c : Nat) (f : DFmt) (s : State) : Res :=
  s.dexOut c (f.rd == 0 && f.ra == 0 && f.rb == 0) 2 (fun _ _ =>
    if 96 ≤ f.imm.toNat then some (.evr f.imm.toNat, 0) else none)

/-- The endpoint types and index ranges of R159, by which EREQ refuses (R124). -/
def endpointInRange (v : Variant) (ep : Nat) : Bool :=
  let i := ep % 2 ^ 28
  match ep / 2 ^ 28 with
  | 0 => decide (i < v.channels)
  | 1 => decide (i < v.slices)
  | 2 => decide (i < v.slices / 2)
  | 3 => decide (i < 1024)
  | 4 => decide (i < v.cores)
  | _ => false

/-- EREQ: a speculative edge for an endpoint, entered at the next boundary (R124). -/
def execEreq (c : Nat) (f : DFmt) (s : State) : Res :=
  s.dexOut c (devLegal f false true false) 4 (fun t k =>
    let b := (k.s f.ra).toNat
    let blk := k.bytes b 16
    let ep := leAt blk 8 4
    if inData b 16 8 && endpointInRange t.variant ep then
      some (.ereq (BitVec.ofNat 64 (leAt blk 0 8)) (BitVec.ofNat 32 ep) (BitVec.ofNat 24 (leAt blk 12 3)), 0)
    else none)

/-- NCMD with a given command code: node and argument come from the operand block (R125, R154). (DEDUCED 9 of
notes/assumptions) -/
def State.dexNcmd (s : State) (c : Nat) (f : DFmt) (code : BitVec 8) : Res :=
  s.dexOut c (devLegal f false true false) 4 (fun t k =>
    let b := (k.s f.ra).toNat
    let blk := k.bytes b 16
    if inData b 16 8 && decide (leAt blk 0 4 < t.variant.nodes) then
      some (.ncmd code (leAt blk 0 4) (blk.drop 8), 0)
    else none)

/-- NCMD FROG (R154). -/
def execFrog (c : Nat) (f : DFmt) (s : State) : Res := s.dexNcmd c f 0x01
/-- NCMD TINK (R154). -/
def execTink (c : Nat) (f : DFmt) (s : State) : Res := s.dexNcmd c f 0x02
/-- NCMD SET_ANGLE (R154). -/
def execSetAngle (c : Nat) (f : DFmt) (s : State) : Res := s.dexNcmd c f 0x03
/-- NCMD SET_BASELINE (R154). -/
def execSetBaseline (c : Nat) (f : DFmt) (s : State) : Res := s.dexNcmd c f 0x04
/-- NCMD SET_HITCH (R154). -/
def execSetHitch (c : Nat) (f : DFmt) (s : State) : Res := s.dexNcmd c f 0x05
/-- NCMD EXTSET (R154). -/
def execExtset (c : Nat) (f : DFmt) (s : State) : Res := s.dexNcmd c f 0x06
/-- NCMD LEARN_RESET (R154). -/
def execLearnReset (c : Nat) (f : DFmt) (s : State) : Res := s.dexNcmd c f 0x07
/-- NCMD FAIL (R154). -/
def execFail (c : Nat) (f : DFmt) (s : State) : Res := s.dexNcmd c f 0x08
/-- NCMD RECOVER (R154). -/
def execRecover (c : Nat) (f : DFmt) (s : State) : Res := s.dexNcmd c f 0x09
/-- NCMD REMOTE_ACK (R154). -/
def execRemoteAck (c : Nat) (f : DFmt) (s : State) : Res := s.dexNcmd c f 0x0A

/-- NQRY: a node query with a 72-byte reply area (R126). -/
def execNqry (c : Nat) (f : DFmt) (s : State) : Res :=
  s.dexOut c (devLegal f false true false) 3 (fun t k =>
    let b := (k.s f.ra).toNat
    let blk := k.bytes b 8
    if inData b 8 8 && decide (leAt blk 0 4 < t.variant.nodes) && inData (leAt blk 4 4) 72 8 then
      some (.nqry (leAt blk 0 4) (leAt blk 4 4), 0)
    else none)

/-- FPRB: a probe of 1 to 32 points of a coverage or prescription layer (R127). -/
def execFprb (c : Nat) (f : DFmt) (s : State) : Res :=
  s.dexOut c (devLegal f false true false) 6 (fun _ k =>
    let b := (k.s f.ra).toNat
    let hd := k.bytes b 8
    let layer := leAt hd 4 1
    let n := leAt hd 5 1
    let reply := leAt hd 0 4
    if inData b 8 8 && decide (1 ≤ n ∧ n ≤ 32) && (decide (layer ≤ 3) || decide (0x10 ≤ layer ∧ layer ≤ 0x17)) &&
        inData b (8 + 8 * n) 8 && inData reply (8 + 4 * n) 8 then
      let blk := k.bytes b (8 + 8 * n)
      let pts := (List.range n).map (fun i =>
        (BitVec.ofNat 32 (leAt blk (8 + 8 * i) 4), BitVec.ofNat 32 (leAt blk (12 + 8 * i) 4)))
      some (.fprb layer reply pts, 8 * n)
    else none)

/-- The limits of R87 and R128 on one transfer of an operand block. -/
def xferGood (v : Variant) (k : Core) (out : Bool) (off loc len : Nat) : Bool :=
  decide (off % 64 = 0) && decide (loc % 64 = 0) && decide (len % 64 = 0) && decide (64 ≤ len) &&
    decide (len ≤ 4096) && decide (off + len ≤ v.dramBytes) && inData loc len 64 &&
    decide ((if out then k.xferOut else k.xferIn) + len ≤ 16384)

/-- XFER with a given DIR byte: takes its index and its entry even if it is refused (R128). (DEDUCED 9 of
notes/assumptions) -/
def State.dexXfer (s : State) (c : Nat) (f : DFmt) (dir : Nat) : Res :=
  .next (s.dex c (devLegal f false true false) 3 (fun t =>
    let k := t.core c
    let b := (k.s f.ra).toNat
    if !inData b 16 8 || decide (16 ≤ k.xfers) then
      (none, t.setCore c { k.stick stAddr with pc := k.pc + 4 })
    else
      let blk := k.bytes b 16
      let off := leAt blk 0 8
      let loc := leAt blk 8 4
      let len := leAt blk 12 2
      let out := decide (dir = 0)
      let good := decide (dir ≤ 1) && xferGood t.variant k out off loc len
      let k' := { k with
        pc := k.pc + 4, xfers := k.xfers + 1
        xferOut := if good && out then k.xferOut + len else k.xferOut
        xferIn := if good && !out then k.xferIn + len else k.xferIn }
      (none, (t.setCore c k').pushOut c (.xfer k.xfers (!good) out off loc len) 0)))

/-- XFER outbound (R128). -/
def execXferOutbound (c : Nat) (f : DFmt) (s : State) : Res := s.dexXfer c f 0
/-- XFER inbound (R128). -/
def execXferInbound (c : Nat) (f : DFmt) (s : State) : Res := s.dexXfer c f 1

/-- SEMT: posts a take of semaphore a, with its one-word reply (R129). -/
def execSemt (c : Nat) (f : DFmt) (s : State) : Res :=
  s.dexOut c (devLegal f true true false) 2 (fun _ k =>
    let n := (k.s f.ra).toNat
    let reply := (k.s f.rd).toNat
    if decide (n < 32) && inData reply 4 4 then some (.semt n reply, 0) else none)

/-- SEMR: releases semaphore a in step 3 (R129). -/
def execSemr (c : Nat) (f : DFmt) (s : State) : Res :=
  s.dexOut c (devLegal f false true false) 2 (fun _ k =>
    if (k.s f.ra).toNat < 32 then some (.semr (k.s f.ra).toNat, 0) else none)

/-- MSG: sends the 64-byte body at b to core a; a second message of the row to one core is refused, whether or not
the output buffer had room for the first (R130). -/
def execMsg (c : Nat) (f : DFmt) (s : State) : Res :=
  s.dexOut c (devLegal f false true true) 6 (fun t k =>
    let d := (k.s f.ra).toNat
    let b := (k.s f.rb).toNat
    if decide (d ≠ c) && decide (d < t.variant.cores) && !k.sentTo.contains d && inData b 64 8 then
      some (.msg d (k.bytes b 64), 64)
    else none) (fun k => { k with sentTo := (k.s f.ra).toNat :: k.sentTo })

/-- The inputs SMPN and SMP read, and their index ranges (R41, R131). -/
def smpInput (a : Nat) : Bool :=
  let i := a % 2 ^ 16
  match a / 2 ^ 16 with
  | 0x04 => decide (i < 24)
  | 0x05 => decide (i < 16)
  | 0x06 => decide (i = 0)
  | 0x08 => decide (i < 48)
  | 0x0A => decide (i < 16)
  | _ => false

/-- The samples of an input in a snapshot, oldest first (R28, R131). -/
def Snap.of (sn : Snap) (id : Nat) : List Sample := Tab.get [] sn.samples id

/-- SMPN: d = the number of samples of the input in the snapshot; 0 if refused (R131). -/
def execSmpn (c : Nat) (f : DFmt) (s : State) : Res :=
  .next (s.dex c (devLegal f true true false) 2 (fun t =>
    let k := t.core c
    let a := (k.s f.ra).toNat
    let k' := if smpInput a then k.put f.rd (BitVec.ofNat 32 ((t.coreSnap c).of a).length)
      else (k.put f.rd 0).stick stAddr
    (none, t.setCore c { k' with pc := k.pc + 4 })))

/-- The 32-byte record of a sample (R132). -/
def Sample.record (x : Sample) : List Byte :=
  bytesLE 8 x.src.toNat ++ bytesLE 4 x.row.toNat ++ bytesLE 3 x.id.toNat ++ [0] ++ (padTo 16 x.payload).take 16

/-- SMP: writes the record of sample b of the input at the address in RD (R131). (DEDUCED 52 of notes/assumptions)
-/
def execSmp (c : Nat) (f : DFmt) (s : State) : Res :=
  .next (s.dex c (devLegal f true true true) 6 (fun t =>
    let k := t.core c
    let a := (k.s f.ra).toNat
    let d := (k.s f.rd).toNat
    let go := fun (k : Core) => t.setCore c { k with pc := k.pc + 4 }
    if smpInput a && inData d 32 8 then
      match ((t.coreSnap c).of a)[(k.s f.rb).toNat]? with
      | some x => (none, go (k.putBytes d x.record))
      | none => (none, go (k.stick stAddr))
    else (none, go (k.stick stAddr))))

end Sys2Proof.Machine
end

