-- ==== Sys2Proof/Machine/DexRun.lean ====
section
/-! DEFINITION. Running the instruction that stands in a core's instruction memory: the meaning of a
decoded instruction, and the single step of bench mode (R94, R104, R105, R113). -/

namespace Sys2Proof.Machine

/-- The meaning of a decoded instruction; none for a command that is not one. -/
def dexMeaning (i : Instr) (s : State) : Option Res :=
  match i with
  | .nop c f => some (execNop c f s)
  | .add c f => some (execAdd c f s)
  | .sub c f => some (execSub c f s)
  | .adds c f => some (execAdds c f s)
  | .subs c f => some (execSubs c f s)
  | .and c f => some (execAnd c f s)
  | .or c f => some (execOr c f s)
  | .xor c f => some (execXor c f s)
  | .andn c f => some (execAndn c f s)
  | .sll c f => some (execSll c f s)
  | .srl c f => some (execSrl c f s)
  | .sra c f => some (execSra c f s)
  | .srar c f => some (execSrar c f s)
  | .slli c f => some (execSlli c f s)
  | .srli c f => some (execSrli c f s)
  | .srai c f => some (execSrai c f s)
  | .srari c f => some (execSrari c f s)
  | .mul c f => some (execMul c f s)
  | .mulh c f => some (execMulh c f s)
  | .mulq c f => some (execMulq c f s)
  | .div c f => some (execDiv c f s)
  | .divu c f => some (execDivu c f s)
  | .rem c f => some (execRem c f s)
  | .divq c f => some (execDivq c f s)
  | .min c f => some (execMin c f s)
  | .max c f => some (execMax c f s)
  | .minu c f => some (execMinu c f s)
  | .maxu c f => some (execMaxu c f s)
  | .abs c f => some (execAbs c f s)
  | .negs c f => some (execNegs c f s)
  | .clz c f => some (execClz c f s)
  | .slt c f => some (execSlt c f s)
  | .sltu c f => some (execSltu c f s)
  | .cmp c f => some (execCmp c f s)
  | .flgr c f => some (execFlgr c f s)
  | .flgw c f => some (execFlgw c f s)
  | .stkr c f => some (execStkr c f s)
  | .stkc c f => some (execStkc c f s)
  | .addi c f => some (execAddi c f s)
  | .cmpi c f => some (execCmpi c f s)
  | .andi c f => some (execAndi c f s)
  | .ori c f => some (execOri c f s)
  | .xori c f => some (execXori c f s)
  | .lui c f => some (execLui c f s)
  | .lw c f => some (execLw c f s)
  | .lh c f => some (execLh c f s)
  | .lhu c f => some (execLhu c f s)
  | .lb c f => some (execLb c f s)
  | .lbu c f => some (execLbu c f s)
  | .sw c f => some (execSw c f s)
  | .sh c f => some (execSh c f s)
  | .sb c f => some (execSb c f s)
  | .jalr c f => some (execJalr c f s)
  | .aclr c f => some (execAclr c f s)
  | .amov c f => some (execAmov c f s)
  | .ald c f => some (execAld c f s)
  | .mac c f => some (execMac c f s)
  | .msu c f => some (execMsu c f s)
  | .aadd c f => some (execAadd c f s)
  | .aext c f => some (execAext c f s)
  | .alo c f => some (execAlo c f s)
  | .ahi c f => some (execAhi c f s)
  | .j c f => some (execJ c f s)
  | .jal c f => some (execJal c f s)
  | .rwait c f => some (execRwait c f s)
  | .evr c f => some (execEvr c f s)
  | .ereq c f => some (execEreq c f s)
  | .nqry c f => some (execNqry c f s)
  | .fprb c f => some (execFprb c f s)
  | .semt c f => some (execSemt c f s)
  | .semr c f => some (execSemr c f s)
  | .msg c f => some (execMsg c f s)
  | .smpn c f => some (execSmpn c f s)
  | .smp c f => some (execSmp c f s)
  | .bc c f => some (execBc c f s)
  | _ => none

/-- The word at a core's PC. -/
def Core.word (k : Core) : W32 :=
  BitVec.ofNat 32 (leNat ((List.range 4).map (fun i => Tab.get 0 k.imem (k.pc + i))))

/-- Runs the word at the core's PC: NCMD and XFER by the code of their operand block, any other word
by its decoding, and a word that no entry lists as ILLEGAL (R112, R113). (DEDUCED 8 of notes/assumptions) -/
def State.runWord (s : State) (c : Nat) : Res :=
  let k := s.core c
  let w := k.word
  let f := fieldsD w.toNat
  let blk := k.bytes (k.s f.ra).toNat 16
  if field w.toNat 26 6 = 63 ∧ field w.toNat 0 4 = 3 then s.dexNcmd c f (BitVec.ofNat 8 (leAt blk 4 1))
  else if field w.toNat 26 6 = 63 ∧ field w.toNat 0 4 = 6 then s.dexXfer c f (leAt blk 14 1)
  else
    match (dexDecode c w).bind (fun i => dexMeaning i s) with
    | some r => r
    | none => .next (s.dex c false 0 (fun t => (none, t)))

/-- The cycle count of an instruction word (R104); 0 for a word that no entry lists. -/
def wordCycles (w : W32) : Nat :=
  let n := w.toNat
  let op := field n 26 6
  let fn := field n 0 6
  let lo := field n 0 4
  if op = 0 then (if 17 ≤ fn ∧ fn ≤ 19 then 2 else if 20 ≤ fn ∧ fn ≤ 23 then 34 else if fn ≤ 33 then 1
    else if 40 ≤ fn ∧ fn ≤ 43 then 1 else 0)
  else if op = 8 then ([1, 1, 2, 2, 2, 2, 2, 1, 1][lo]?).getD 0
  else if op = 63 then ([1, 2, 4, 4, 3, 6, 3, 2, 2, 6, 2, 6][lo]?).getD 0
  else if 1 ≤ op ∧ op ≤ 6 then 1
  else if 16 ≤ op ∧ op ≤ 20 then 2
  else if 24 ≤ op ∧ op ≤ 26 then 1
  else if (32 ≤ op ∧ op ≤ 34) ∨ op = 48 then 2
  else 0

/-- BUDGET_OVERRUN: the instruction at PC would take the budget counter past DXC_BUDGET, so the core
stops before it (R82, R105). (DESIGN CHOICE 55 of notes/assumptions) -/
def execBudgetOverrun (c : Nat) (s : State) : Res :=
  let k := s.core c
  if s.fetches c && !s.bench c && decide (k.pc < 0x10000) &&
      decide (s.conf Reg.DXC_BUDGET_BUDGET c < k.used + wordCycles k.word) then
    .next (s.overrun c)
  else .next s

end Sys2Proof.Machine
end

