-- ==== Sys2Proof/Machine/Bench.lean ====
section
/-! DEFINITION. Mailboxes between hosts and cores, bench mode and the debug registers, as the hosts use
them (R89, R90, R93 to R95). -/

namespace Sys2Proof.Machine

/-- The register base of core `c`. -/
def coreBase (c : Nat) : Nat := 0x00100000 + 0x10000 * c

/-! ### Mailboxes -/

/-- A POST: the port's copy of DXC_MBI is an admitted message for the core, or is refused when four are
queued (R89, R396). -/
def State.mailPost (s : State) (p : Port) (c : Nat) (stamp : Stamp) : State :=
  let n := s.live Reg.DXC_MBI_CTL_QUEUED c
  if 4 ≤ n then s.setLive Reg.DXC_MBI_CTL_REJ 1 c
  else
    let body := (List.range 16).flatMap (fun i => bytesLE 4 (s.staged (.host p) Reg.DXC_MBI_WORD c i))
    let k := s.core c
    let s := s.setCore c { k with hostMsgs := k.hostMsgs ++ [(stamp, p.idx, body)] }
    (s.setLive Reg.DXC_MBI_CTL_QUEUED (n + 1) c).takeIn (BitVec.ofNat 24 (0x090000 + p.idx)) stamp stamp body

/-- MBI_POST: a host write of DXC_MBI_CTL.POST (R89). -/
def execMbiPost (p : Port) (c : Nat) (s : State) : Res :=
  if c < 8 then
    .next (s.hostLive p (coreBase c + 0xC0) 1 (fun s => s.mailPost p c (floorTo 64 s.now)))
  else .next s

/-- A host write of 1 to DXC_MBO_CTL.VALID releases the mailbox (R90). (DEDUCED 50 of notes/assumptions) -/
def State.mailRelease (s : State) (c : Nat) : State := s.setLive Reg.DXC_MBO_CTL_VALID 0 c

/-- MBO_RELEASE (R90). -/
def execMboRelease (p : Port) (c : Nat) (s : State) : Res :=
  if c < 8 then .next (s.hostLive p (coreBase c + 0x140) 1 (fun s => s.mailRelease c)) else .next s

/-- A program's VALID write at step 3: the outbound copy is delivered, or dropped while a message waits
(R90). (DEDUCED 54 of notes/assumptions) -/
def State.mailSend (s : State) (c : Nat) : State :=
  if s.flag Reg.DXC_MBO_CTL_VALID c then s.setLive Reg.DXC_STAT_MBO_DROP 1 c
  else
    let box := (s.core c).mbo
    let s := (List.range 16).foldl (fun (s : State) i =>
      s.setLive Reg.DXC_MBO_WORD (Tab.get 0 box i).toNat c i) s
    let s := (s.setLive Reg.DXC_MBO_CTL_VALID 1 c).bump Reg.DXC_MBO_CTL_SEQ c
    s.raiseNow (34 + c) (s.live Reg.DXC_MBO_CTL_SEQ c)

/-! ### Bench mode -/

/-- A halted core resumes its interrupted task; the instruction at its PC runs even at a breakpoint (R94). (DEDUCED
60 of notes/assumptions) -/
def State.resumeCore (s : State) (c : Nat) : State :=
  if s.halted c then
    (s.setCore c { s.core c with stepping := true }).setLive Reg.DXC_STAT_HALTED 0 c
  else s

/-- A write of BENCH: it can be set only in TRANSIT or while a replay runs; clearing it ends a halt (R93). -/
def State.benchWrite (s : State) (c : Nat) (v : Bool) : State :=
  if v then
    if s.live Reg.SYS_PWRSTAT_CUR = 4 ∨ s.live Reg.DXC_RPL_STAT_STATE = 2 then s.setLive Reg.DXC_CTL_BENCH 1 c else s
  else ((s.setLive Reg.DXC_CTL_BENCH 0 c).setLive Reg.DXC_CTL_HALT 0 c).resumeCore c

/-- A write of HALT: 1 halts at the next instruction in bench mode, 0 resumes (R94). (DEDUCED 60 of
notes/assumptions) -/
def State.haltWrite (s : State) (c : Nat) (v : Bool) : State :=
  if v then (if s.bench c then s.setLive Reg.DXC_CTL_HALT 1 c else s)
  else (s.setLive Reg.DXC_CTL_HALT 0 c).resumeCore c

/-- One instruction of a halted core; it stays halted (R94). (DEDUCED 8, 60 of notes/assumptions) -/
def State.stepCore (s : State) (c : Nat) : State :=
  if s.bench c && s.halted c then
    match (s.setCore c { s.core c with stepping := true }).runWord c with
    | .next t => t
    | _ => s
  else s

/-- A write of DXC_CTL: BENCH, then a step of a halted core, or HALT (R93, R94). -/
def State.dxcCtl (s : State) (c v : Nat) : State :=
  let s := s.benchWrite c (bitOf v 0)
  if bitOf v 2 && s.halted c then
    (if bitOf v 1 then s.haltWrite c true else s).stepCore c
  else s.haltWrite c (bitOf v 1)

/-- BENCH_SET: a host write of DXC_CTL.BENCH (R93). -/
def execBenchSet (p : Port) (c : Nat) (v : Bool) (s : State) : Res :=
  if c < 8 then
    .next (s.hostLive p (coreBase c) (v.toNat + 2 * s.live Reg.DXC_CTL_HALT c) (fun s => s.benchWrite c v))
  else .next s

/-- HALT: a host write of DXC_CTL.HALT (R94). -/
def execHalt (p : Port) (c : Nat) (v : Bool) (s : State) : Res :=
  if c < 8 then
    .next (s.hostLive p (coreBase c) (s.live Reg.DXC_CTL_BENCH c + 2 * v.toNat) (fun s => s.haltWrite c v))
  else .next s

/-- STEP: a host write of DXC_CTL.STEP (R94). -/
def execStep (p : Port) (c : Nat) (s : State) : Res :=
  if c < 8 then
    .next (s.hostLive p (coreBase c) (s.live Reg.DXC_CTL_BENCH c + 2 * s.live Reg.DXC_CTL_HALT c + 4)
      (fun s => s.stepCore c))
  else .next s

/-- The register that DXC_DBG_SEL selects; other values read 0 (R95). The PC shows its 16 bits: the 17th only says
that the core has run past the last word (R102, R134). (DEDUCED 58 of notes/assumptions) -/
def State.dbgRead (s : State) (c : Nat) : Nat :=
  if !s.halted c then 0
  else
    let k := s.core c
    let n := s.live Reg.DXC_DBG_SEL_SEL c
    if n < 32 then (k.s (BitVec.ofNat 5 n)).toNat
    else if n < 40 then
      let a := (k.a (BitVec.ofNat 2 ((n - 32) / 2))).toNat
      if n % 2 = 0 then a % 2 ^ 32 else a / 2 ^ 32
    else if n = 40 then k.flags.toNat
    else if n = 41 then k.sticky.toNat
    else if n = 42 then k.pc % 2 ^ 16
    else 0

/-- Writes the selected register of a halted core; a write at any other time is ignored (R95). (DEDUCED 60 of
notes/assumptions) -/
def State.dbgWrite (s : State) (c v : Nat) : State :=
  if !s.halted c then s
  else
    let k := s.core c
    let n := s.live Reg.DXC_DBG_SEL_SEL c
    if n < 32 then s.setCore c (k.put (BitVec.ofNat 5 n) (BitVec.ofNat 32 v))
    else if n < 40 then
      let r := BitVec.ofNat 2 ((n - 32) / 2)
      let a := (k.a r).toNat
      let a' := if n % 2 = 0 then a / 2 ^ 32 * 2 ^ 32 + v % 2 ^ 32 else a % 2 ^ 32 + v % 2 ^ 32 * 2 ^ 32
      s.setCore c (k.putA r (BitVec.ofNat 64 a'))
    else if n = 40 then s.setCore c { k with flags := BitVec.ofNat 4 v }
    else if n = 41 then s.setCore c { k with sticky := BitVec.ofNat 4 v }
    else if n = 42 then s.setCore c { k with pc := v % 2 ^ 16 / 4 * 4 }
    else s

/-- DBG_DATA_WRITE: a host write of DXC_DBG_DATA (R95). -/
def execDbgDataWrite (p : Port) (c : Nat) (v : W32) (s : State) : Res :=
  if c < 8 then .next (s.hostLive p (coreBase c + 0x1C4) v.toNat (fun s => s.dbgWrite c v.toNat)) else .next s

/-- A host write to a core's local memory: accepted only while the core is halted (R78). -/
def State.localWrite (s : State) (c o : Nat) (bytes : List Byte) : State :=
  if !(s.bench c && s.halted c) then s
  else
    let k := s.core c
    if o < 0x10000 then
      s.setCore c { k with imem := bytes.zipIdx.foldl (fun t x => Tab.put 0 t (o + x.2) x.1) k.imem }
    else s.setCore c (k.putBytes o bytes)

/-- A word of a core's local memory (R77, R78). -/
def State.localWord (s : State) (c o : Nat) : Nat :=
  let k := s.core c
  leNat ((List.range 4).map (fun i => Tab.get 0 (if o < 0x10000 then k.imem else k.dmem) (o + i)))

end Sys2Proof.Machine
end

