-- ==== Sys2Proof/Machine/Can.lean ====
section
/-! DEFINITION. The CAN controllers: the receive ring and its records, transmit buffers, arbitration,
aborts, error states and recovery (R360 to R377). -/

namespace Sys2Proof.Machine

/-- A skein-held field of controller `c` in force: the old values govern until the first bus idle
(R364). -/
def State.canConf (s : State) (c : Nat) (f : Fld) : Nat :=
  match (s.can c).hold with
  | some t => (f.get t c 0).toNat
  | none => s.conf f c

/-- The controller's error state, with the codes of CAN_ESTAT.STATE. -/
def State.canState (s : State) (c : Nat) : Nat := s.live Reg.CAN_ESTAT_STATE c

/-- The CTRL word of a slot (R366). -/
def canCtrl (k : Nat) (ovr fdf brs esi rtr ide tx : Bool) (len : Nat) (status : Bool) : Nat :=
  k % 2 ^ 16 + 2 ^ 16 + ovr.toNat * 2 ^ 17 + fdf.toNat * 2 ^ 18 + brs.toNat * 2 ^ 19 + esi.toNat * 2 ^ 20 +
    rtr.toNat * 2 ^ 21 + ide.toNat * 2 ^ 22 + tx.toNat * 2 ^ 23 + len * 2 ^ 24 + status.toNat * 2 ^ 31

/-- Writes an entry into the receive ring of controller `c`, overwriting the oldest unread entry of a
full ring, and admits it as an input of class 0x01 (R365, R368, R374). (DEDUCED 127 of notes/assumptions) -/
def State.canEntry (s : State) (c : Nat) (ctrl : Nat → Bool → Nat) (id : Nat) (stamp : Stamp) (info : Nat)
    (data : List Byte) (adm : Stamp) : State :=
  let k := s.live Reg.CAN_RXWR_WR c
  let rd := s.live Reg.CAN_RXRD_RD c
  let full := decide (256 ≤ (k + 2 ^ 32 - rd) % 2 ^ 32)
  let s := if full then (s.setLive Reg.CAN_RXRD_RD ((rd + 1) % 2 ^ 32) c).bump Reg.CAN_RXSTAT_OVRCNT c else s
  let slot := bytesLE 4 (ctrl k full) ++ bytesLE 4 id ++ bytesLE 8 stamp.toNat ++ bytesLE 4 info ++
    List.replicate 12 0 ++ (padTo 64 data).take 64
  let s := s.setWin (0x06010000 + 0x8000 * c + 96 * (k % 256)) slot
  let q := s.can c
  let s := s.setCan c { q with stamps := Tab.put 0 q.stamps (k % 65536) stamp }
  let s := s.setLive Reg.CAN_RXWR_WR ((k + 1) % 2 ^ 32) c
  s.takeIn (BitVec.ofNat 24 (0x010000 + c)) stamp adm slot

/-- Writes a STATUS record for a change of state (R376); in a replay the records come from the input log. -/
def State.canSetState (s : State) (c st : Nat) : State :=
  if s.canState c = st ∨ s.rpl.on = true then s
  else
    let s := s.setLive Reg.CAN_ESTAT_STATE st c
    let k := s.live Reg.CAN_RXWR_WR c
    let info := st + s.live Reg.CAN_ESTAT_TEC c * 2 ^ 8 + s.live Reg.CAN_ESTAT_REC c * 2 ^ 24
    let s := s.canEntry c (fun k o => canCtrl k o false false false false false false 0 true) 0 s.now info [] s.now
    let q := s.can c
    s.setCan c { q with news := q.news ++ [(BitVec.ofNat 32 k, st)] }

/-- A frame as the bus carries it: BRS and ESI in FD frames only, an 11-bit identifier in the base format, and no
data in a remote frame, whose length stands for its data length code (R360, R366). (DEDUCED 127 of
notes/assumptions) -/
def onBus (f : CanFrame) : CanFrame :=
  { f with
    brs := f.brs && f.fdf, esi := f.esi && f.fdf
    id := if f.ide then f.id else BitVec.ofNat 29 (f.id.toNat % 2 ^ 11)
    data := if f.rtr then List.replicate f.data.length 0 else f.data }

/-- A frame received without error is written into the ring, or refused for its age (R27, R367). (DEDUCED 127 of
notes/assumptions) -/
def State.canReceived (s : State) (c : Nat) (fr : CanFrame) (src adm : Stamp) : State :=
  let f := onBus fr
  if inAge src adm (s.canConf c Reg.CAN_CCFG_MAXAGE * msTicks) then
    s.canEntry c (fun n o => canCtrl n o f.fdf f.brs f.esi f.rtr f.ide false f.data.length false) f.id.toNat src 0
      f.data adm
  else (s.refuseAge (BitVec.ofNat 24 (0x010000 + c)) src adm).bump Reg.CAN_RXSTAT_AGEREJ c

/-- The address of a transmit buffer (R371). -/
def canBuf (c b : Nat) : Nat := 0x06030000 + 0x1000 * c + 96 * b

/-- The content of a buffer as a frame (R371). (DEDUCED 81 of notes/assumptions) -/
def State.canFrame (s : State) (c b : Nat) : CanFrame :=
  let w := s.winWord (canBuf c b)
  onBus ⟨bitOf w 18, bitOf w 19, false, bitOf w 21, bitOf w 22, BitVec.ofNat 29 (s.winWord (canBuf c b + 4)),
    s.winBytes (canBuf c b + 32) (min 64 (bitsOf w 24 7))⟩

/-- The LEN field of a buffer. -/
def State.canLen (s : State) (c b : Nat) : Nat := bitsOf (s.winWord (canBuf c b)) 24 7

/-- Content with which a request ends at once as REFUSED (R371). (DEDUCED 125 of notes/assumptions) -/
def State.canInvalid (s : State) (c b : Nat) : Bool :=
  let f := s.canFrame c b
  let n := s.canLen c b
  (f.fdf && decide (s.canConf c Reg.CAN_CCFG_FDEN = 0)) || (f.fdf && f.rtr) ||
    (!f.fdf && decide (8 < n)) || !fdLengths.contains n

/-- A request ends: its TX record is written, and the buffer stays busy until the snapshot holds the
record (R371, R374). A frame sent while error passive carries ESI 1 (R360). -/
def State.canEnd (s : State) (c b status : Nat) (stamp : Stamp) (sent : Bool) : State :=
  let f := s.canFrame c b
  let f := onBus { f with esi := sent && (s.can c).passive }
  let k := s.live Reg.CAN_RXWR_WR c
  let data := if sent then f.data else []
  let s := s.canEntry c
    (fun n o => canCtrl n o f.fdf f.brs f.esi f.rtr f.ide true (if sent then f.data.length else 0) false)
    f.id.toNat stamp (b + status * 2 ^ 8) data s.now
  let q := s.can c
  let s := s.setCan c { q with
    pend := q.pend.filter (· != b), tried := q.tried.filter (· != b), aborted := q.aborted.filter (· != b)
    busy := q.busy ++ [(b, BitVec.ofNat 32 k)] }
  s.setLive Reg.CAN_TXST_ST status c b

/-- A buffer is busy (R371). (DEDUCED 125 of notes/assumptions) -/
def Can.isBusy (q : Can) (b : Nat) : Bool := q.pend.contains b || q.busy.any (fun x => x.1 == b)

/-- One request of a transmit buffer (R371). In replay the frame is captured, and the record that ends
the request comes from the input log (R99, R100, R374). (DEDUCED 77, 81 of notes/assumptions) -/
def State.canRequest (s : State) (c b : Nat) : State :=
  if (s.can c).isBusy b then s.setLive Reg.CAN_RXSTAT_TXREJ 1 c
  else
    let q := s.can c
    let s := (s.setCan c { q with pend := q.pend ++ [b] }).setLive Reg.CAN_TXST_ST 1 c b
    if s.rpl.on then
      let d := (s.canFrame c b).data
      if s.canInvalid c b then s else s.capture 4 s.row.cur.toNat (0x010000 + c) d.length d
    else if s.canInvalid c b then s.canEnd c b 9 s.now false
    else s

/-- The bits set in a mask, ascending. -/
def maskBits (n w : Nat) : List Nat := (List.range n).filter (fun i => bitOf w i)

/-- A write of CAN_TXREQ (R371). -/
def State.canTxReq (s : State) (c mask : Nat) : State :=
  (maskBits 32 mask).foldl (fun s b => s.canRequest c b) s

/-- CAN_TX_REQUEST: a host write of CAN_TXREQ (R371). -/
def execCanTxRequest (p : Port) (k : Nat) (mask : W32) (s : State) : Res :=
  if k < 4 then .next (s.hostLive p (0x06000028 + 0x1000 * k) mask.toNat (fun s => s.canTxReq k mask.toNat))
  else .next s

/-- The sub-ticks of a nominal bit, and of its part up to the sample point (R362). -/
def State.canBit (s : State) (c : Nat) : Nat × Nat :=
  let q := 320 * (s.canConf c Reg.CAN_NBT_BRP_M1 + 1)
  let t1 := s.canConf c Reg.CAN_NBT_TSEG1_M1 + 1
  let t2 := s.canConf c Reg.CAN_NBT_TSEG2_M1 + 1
  (q * (1 + t1 + t2), q * (1 + t1))

/-- One abort, which acts by the instant at which it lands (R373). -/
def State.canAbort (s : State) (c b : Nat) : State :=
  let q := s.can c
  if !q.pend.contains b then s
  else
    let here := match q.active with
      | some (x, t) => if x = b then some t else none
      | none => none
    match here with
    | some sof =>
      let (bit, smp) := s.canBit c
      if cycle (sof + subTicks (bit + smp)) ≤ cycle s.now then
        s.setCan c { q with aborted := b :: q.aborted }
      else (s.setCan c { q with active := none }).canEnd c b 5 s.now false
    | none => if q.tried.contains b then s.canEnd c b 7 s.now false else s.canEnd c b 4 s.now false

/-- A write of CAN_TXABORT (R373). In replay the outcome comes from the input log. -/
def State.canTxAbt (s : State) (c mask : Nat) : State :=
  if s.rpl.on then s else (maskBits 32 mask).foldl (fun s b => s.canAbort c b) s

/-- CAN_TX_ABORT: a host write of CAN_TXABORT (R373). -/
def execCanTxAbort (p : Port) (k : Nat) (mask : W32) (s : State) : Res :=
  if k < 4 then .next (s.hostLive p (0x0600002C + 0x1000 * k) mask.toNat (fun s => s.canTxAbt k mask.toNat))
  else .next s

/-- The bits of a frame's arbitration field in bus order, then FDF: the smaller value wins arbitration
(R372). -/
def arbRank (fdf rtr ide : Bool) (id : Nat) : Nat :=
  let base := if ide then id / 2 ^ 18 else id % 2 ^ 11
  let ext := if ide then id % 2 ^ 18 else 0
  ((base * 2 + (if ide then 1 else rtr.toNat)) * 2 + ide.toNat) * 2 ^ 20 + ext * 4 +
    (if ide then rtr.toNat else 0) * 2 + fdf.toNat

/-- The pending frames of a controller with their ranks, Kwaros frames first: 32 + place for those
(R372). -/
def State.canPending (s : State) (c : Nat) : List (Nat × Nat) :=
  let sa := s.conf Reg.KW_CFG_SA
  let kw := (s.kwQueue c).mapIdx (fun i f => (32 + i, arbRank true false true (f.canId sa)))
  let bufs := sortBy (fun a b => decide (a ≤ b)) (s.can c).pend
  kw ++ bufs.map (fun b => let f := s.canFrame c b; (b, arbRank f.fdf f.rtr f.ide f.id.toNat))

/-- The first entry of the least rank. -/
def bestRank : List (Nat × Nat) → Option (Nat × Nat)
  | [] => none
  | x :: t =>
    match bestRank t with
    | none => some x
    | some y => if x.2 ≤ y.2 then some x else some y

/-- The controller may transmit (R363, R364, R377). -/
def State.canSends (s : State) (c : Nat) : Bool :=
  s.rowsRun && !s.rpl.on && decide (c < 4) && decide (s.canConf c Reg.CAN_CCFG_EN = 1) &&
    decide (s.canConf c Reg.CAN_CCFG_MODE ≠ 1) && !(s.can c).integrating && decide (s.canState c ≤ 2)

/-- CAN_START_OF_FRAME: the pending frame that wins internal arbitration is sent (R372). -/
def execCanStartOfFrame (k : Nat) (sof : Stamp) (s : State) : Res :=
  if s.canSends k && decide ((s.can k).active = none) then
    let s := s.advanceTo sof
    match bestRank (s.canPending k) with
    | none => .next s
    | some (b, _) =>
      let s := s.setCan k { s.can k with active := some (b, floorTo 64 sof), passive := decide (s.canState k = 2) }
      .next (if b < 32 then s.setLive Reg.CAN_TXST_ST 2 k b else s)
  else .next s

/-- An attempt of a buffer fails: it ends after an abort or with ONESHOT, and is retried otherwise
(R372, R373). -/
def State.canFailed (s : State) (c b : Nat) : State :=
  let q := s.can c
  if q.aborted.contains b then s.canEnd c b 7 s.now false
  else if bitOf (s.winWord (canBuf c b)) 23 then s.canEnd c b 8 s.now false
  else (s.setCan c { q with tried := b :: q.tried }).setLive Reg.CAN_TXST_ST 1 c b

/-- Entry into bus-off: the attempt in progress counts as failed, and the Kwaros queue is emptied and
counted as dropped (R375, R377). (DEDUCED 96 of notes/assumptions) -/
def State.canBusOff (s : State) (c : Nat) : State :=
  let s := s.setLive Reg.CAN_KWST_DROP (s.live Reg.CAN_KWST_DROP c + (s.kwQueue c).length) c
  let s := s.setKwQueue c []
  let s := match (s.can c).active with
    | some (b, _) =>
      let s := s.setCan c { s.can c with active := none }
      if b < 32 then s.canFailed c b else s
    | none => s
  let s := s.canSetState c 3
  if s.canConf c Reg.CAN_CCFG_AUTOREC = 1 then s.canSetState c 4 else s

/-- The error state that the counters and thresholds give (R376). -/
def State.canErrState (s : State) (c tec rec_ : Nat) : Nat :=
  if 255 < tec then 3
  else if 128 ≤ tec ∨ 128 ≤ rec_ then 2
  else if s.canConf c Reg.CAN_EWARN_TEC_W ≤ tec ∨ s.canConf c Reg.CAN_EWARN_REC_W ≤ rec_ then 1
  else 0

/-- The state follows the counters and the thresholds (R376). -/
def State.canJudge (s : State) (c : Nat) : State :=
  let st := s.canErrState c (s.live Reg.CAN_ESTAT_TEC c) (s.live Reg.CAN_ESTAT_REC c)
  if st = 3 then s.canBusOff c else s.canSetState c st

/-- New counters of a controller that is neither off nor in bus-off, and the state they give (R376). (PRESUMED 131
of notes/assumptions) -/
def State.canCount (s : State) (c tec rec_ : Nat) : State :=
  if 2 < s.canState c then s
  else ((s.setLive Reg.CAN_ESTAT_TEC tec c).setLive Reg.CAN_ESTAT_REC rec_ c).canJudge c

/-- A frame received without error takes 1 off REC; a REC above 127 takes a value from 119 to 127 that ISO 11898-1
leaves open (R376). (PRESUMED 131 of notes/assumptions) -/
def State.canHeard (s : State) (c : Nat) : State :=
  let r := s.live Reg.CAN_ESTAT_REC c
  if 127 < r then s.drawn.canCount c (s.live Reg.CAN_ESTAT_TEC c) (119 + (Config.freeWord s.draws).toNat % 9)
  else s.canCount c (s.live Reg.CAN_ESTAT_TEC c) (r - 1)

/-- A frame sent takes 1 off TEC (R376). (PRESUMED 131 of notes/assumptions) -/
def State.canSaid (s : State) (c : Nat) : State :=
  s.canCount c (s.live Reg.CAN_ESTAT_TEC c - 1) (s.live Reg.CAN_ESTAT_REC c)

/-- CAN_ERROR: a bus error adds 8 to the TEC of a transmitter, or 1 to the REC of a receiver, 8 where it meets a
dominant bit as its error flag ends or fails (`flag`), and a change of state writes a STATUS record (R376).
(PRESUMED 131 of notes/assumptions) -/
def execCanError (k : Nat) (role : CanRole) (flag : Bool) (s : State) : Res :=
  if s.rowsRun && !s.rpl.on && decide (k < 4) && decide (s.canState k ≤ 2) then
    let tec := s.live Reg.CAN_ESTAT_TEC k
    let r := s.live Reg.CAN_ESTAT_REC k
    .next (match role with
      | .receiver => s.canCount k tec (min 255 (r + if flag then 8 else 1))
      | .transmitter => s.canCount k (tec + 8) r)
  else .next s

/-- CAN_FRAME_RECEIVE: a frame received without error is written into the ring, or refused for its age
(R363 to R368). With MODE INT_LOOP the RX pin is ignored. (DEDUCED 127 of notes/assumptions) -/
def execCanFrameReceive (k : Nat) (sof adm : Stamp) (fr : CanFrame) (s : State) : Res :=
  if s.takesInput && decide (k < 4) && decide (s.canConf k Reg.CAN_CCFG_EN = 1) && !(s.can k).integrating &&
      decide (s.canConf k Reg.CAN_CCFG_MODE ≠ 2) &&
      decide (s.canState k ≤ 2) && (!fr.fdf || decide (s.canConf k Reg.CAN_CCFG_FDEN = 1)) then
    .next (((s.advanceTo adm).canReceived k fr (floorTo 64 sof) adm).canHeard k)
  else .next s

/-- In a loop mode the controller receives the frame it has sent (R363). (DEDUCED 127 of notes/assumptions) -/
def State.canLoops (s : State) (c b : Nat) (sof : Stamp) : State :=
  if s.canConf c Reg.CAN_CCFG_MODE < 2 then s
  else
    let f := s.canFrame c b
    s.canReceived c { f with esi := (s.can c).passive } sof s.now

/-- CAN_TX_END: the attempt in progress ends, sent or failed (R372 to R375). -/
def execCanTxEnd (k : Nat) (out : TxOutcome) (s : State) : Res :=
  match (s.can k).active with
  | none => .next s
  | some (b, sof) =>
    let s := s.setCan k { s.can k with active := none }
    if 32 ≤ b then
      match out, (s.kwQueue k)[b - 32]? with
      | .sent, some f => .next (((s.kwSent k f sof).setKwQueue k ((s.kwQueue k).eraseIdx (b - 32))).canSaid k)
      | _, _ => .next s
    else
      match out with
      | .sent =>
        .next (((s.canLoops k b sof).canEnd k b (if (s.can k).aborted.contains b then 6 else 3) sof true).canSaid k)
      | _ => .next (s.canFailed k b)

/-- A write of CAN_CTL.RECOVER (R377). -/
def State.canRecover (s : State) (c : Nat) : State := if s.canState c = 3 then s.canSetState c 4 else s

/-- CAN_RECOVER: a host write of CAN_CTL.RECOVER starts recovery from bus-off (R377). -/
def execCanRecover (p : Port) (k : Nat) (s : State) : Res :=
  if k < 4 then .next (s.hostLive p (0x06000014 + 0x1000 * k) 1 (fun s => s.canRecover k)) else .next s

/-- CAN_RECOVERY_DONE: recovery ends with TEC and REC at 0 (R377). -/
def execCanRecoveryDone (k : Nat) (s : State) : Res :=
  if s.canState k = 4 ∧ k < 4 then
    .next (((s.setLive Reg.CAN_ESTAT_TEC 0 k).setLive Reg.CAN_ESTAT_REC 0 k).canJudge k)
  else .next s

/-- A write of CAN_RXRD: a value beyond WR is ignored and sets RDREJ (R370). -/
def State.canRxrd (s : State) (c v : Nat) : State :=
  let rd := s.live Reg.CAN_RXRD_RD c
  if (v + 2 ^ 32 - rd) % 2 ^ 32 ≤ (s.live Reg.CAN_RXWR_WR c + 2 ^ 32 - rd) % 2 ^ 32 then
    s.setLive Reg.CAN_RXRD_RD v c
  else s.setLive Reg.CAN_RXSTAT_RDREJ 1 c

/-- CAN_RXRD_WRITE: a host write of CAN_RXRD (R370). -/
def execCanRxrdWrite (p : Port) (k : Nat) (v : W32) (s : State) : Res :=
  if k < 4 then .next (s.hostLive p (0x06000020 + 0x1000 * k) v.toNat (fun s => s.canRxrd k v.toNat))
  else .next s

/-- The new settings of a controller come into force: it turns on or off with them, its state follows the new
thresholds, and AUTOREC starts the recovery of one in bus-off (R364, R376, R377). -/
def State.canApply (s : State) (c : Nat) : State :=
  let s := s.setCan c { s.can c with hold := none }
  let st := s.canState c
  if s.conf Reg.CAN_CCFG_EN c = 0 then s.canSetState c 5
  else if st = 3 then (if s.conf Reg.CAN_CCFG_AUTOREC c = 1 then s.canSetState c 4 else s)
  else if st = 4 ∨ s.rpl.on = true then s
  else s.canJudge c

/-- CAN_SETTINGS_CHANGE: a commit's settings act at the first bus idle (R364). -/
def execCanSettingsChange (k : Nat) (s : State) : Res :=
  if (s.can k).hold.isSome && decide (k < 4) then .next (s.canApply k) else .next s

/-- CAN_INTEGRATION_END: 11 recessive bits end integration (R364). -/
def execCanIntegrationEnd (k : Nat) (s : State) : Res :=
  if (s.can k).integrating && decide (k < 4) then
    .next (s.setCan k { s.can k with integrating := false })
  else .next s

/-- Releases the buffers whose TX record lies in the snapshot, and raises the events of the STATUS
records it holds, at step 3 (R371, R376). -/
def State.canBoundary (s : State) (c : Nat) : State :=
  let wr := (Reg.CAN_RXWR_WR.get s.snap.regs c 0).toNat
  let seen := fun (k : W32) => decide (0 < (wr + 2 ^ 32 - k.toNat) % 2 ^ 32 ∧ (wr + 2 ^ 32 - k.toNat) % 2 ^ 32 < 2 ^ 31)
  let q := s.can c
  let s := s.setCan c { q with
    busy := q.busy.filter (fun x => !seen x.2), news := q.news.filter (fun x => !seen x.1), lost := [] }
  (q.news.filter (fun x => seen x.1)).foldl (fun s x =>
    if 1 ≤ x.2 ∧ x.2 ≤ 3 then s.raise (61 + x.2) c s.row.cur else s) s

end Sys2Proof.Machine
end

