-- ==== Sys2Proof/Machine/Eth.lean ====
section
/-! DEFINITION. The Ethernet MACs: classification, the program ring, transmit slots, links, management
cycles and the 802.1AS engine (R378 to R384). -/

namespace Sys2Proof.Machine

/-- Big-endian bytes as a number. -/
def beAt (l : List Byte) (i n : Nat) : Nat := leNat ((l.drop i).take n).reverse

/-- Nanoseconds in sub-ticks, rounded (R17). -/
def nsTicks (n : Nat) : Nat := (divRound ((n : Int) * 256) 10).toNat

/-- The one's-complement sum of the 16-bit words of a list of bytes, folded to 16 bits. -/
def onesSum (l : List Byte) : Nat :=
  let t := (List.range ((l.length + 1) / 2)).foldl (fun a i => a + beAt (padTo (2 * i + 2) l) (2 * i) 2) 0
  let f := fun x => x % 65536 + x / 65536
  f (f (f t))

/-- The parts of a received frame that its classification uses (R380, R381). -/
structure EthInfo where
  tagged : Bool
  tag2 : Bool
  vid : Nat
  pcp : Nat
  etype : Nat
  /-- The frame from its destination address with any tag removed. -/
  body : List Byte
  deriving DecidableEq, Repr

/-- Reads the header of a frame. -/
def ethInfo (b : List Byte) : EthInfo :=
  let t := beAt b 12 2
  if t = 0x8100 then
    let tci := beAt b 14 2
    let body := b.take 12 ++ b.drop 16
    ⟨true, decide (beAt b 16 2 = 0x8100), tci % 4096, tci / 8192, beAt b 16 2, body⟩
  else ⟨false, false, 0, 0, t, b⟩

/-- The MAC accepts the destination address (R380, order 1). -/
def State.ethForUs (s : State) (e : Nat) (b : List Byte) : Bool :=
  let own := bytesLE 4 (s.conf Reg.ETH_MACADDR_LO_ADDR e) ++ bytesLE 2 (s.conf Reg.ETH_MACADDR_HI_ADDR e)
  let d := b.take 6
  decide (d = own) || decide (d = List.replicate 6 0xFF) || decide (d = [0x01, 0x80, 0xC2, 0, 0, 0x0E]) ||
    (s.conf Reg.ETH_MACCFG_MCAST e == 1 && bitOf ((d.headD 0).toNat) 0)

/-- The length of the IPv4 header of a frame body. -/
def ipHeader (b : List Byte) : Nat := (beAt b 14 1) % 16 * 4

/-- A frame that order 3 of R380 drops: a bad header checksum, a fragment, or a failing UDP checksum. -/
def ipBad (b : List Byte) : Bool :=
  let ip := b.drop 14
  let h := ipHeader b
  let total := beAt ip 2 2
  let frag := beAt ip 6 2
  let udp := (ip.take total).drop h
  let pseudo := (ip.drop 12).take 8 ++ [0, 0x11] ++ (bytesLE 2 udp.length).reverse
  decide (onesSum (ip.take h) ≠ 0xFFFF) || decide (frag % 0x4000 ≠ 0) ||
    (decide (beAt ip 9 1 = 0x11) && decide (beAt udp 6 2 ≠ 0) && decide (onesSum (pseudo ++ udp) ≠ 0xFFFF))

/-- The frame is a datagram of an enabled fusion source on this MAC (R380, order 4). -/
def State.ethFusion (s : State) (e : Nat) (b : List Byte) : Option (BitVec 16 × List Byte) :=
  let ip := b.drop 14
  let h := ipHeader b
  let udp := (ip.take (beAt ip 2 2)).drop h
  let dst := beAt ip 16 4
  let port := beAt udp 2 2
  let hit := (List.range s.variant.sources).any (fun i =>
    s.conf Reg.FGE_SCFG_EN i == 1 && s.conf Reg.FGE_SCFG_PORT i == e && s.conf Reg.FGE_SCFG_UDP i == port)
  if decide (beAt ip 9 1 = 0x11) && (decide (dst = s.conf Reg.ETH_IPV4_IP e) || decide (dst = 0xFFFFFFFF)) && hit
  then some (BitVec.ofNat 16 port, udp.drop 8) else none

/-- Writes an entry into the program ring of MAC `e` and admits it as an input of class 0x02 (R381). (DEDUCED 127 of
notes/assumptions) -/
def State.ethEntry (s : State) (e : Nat) (ctrl : Nat → Bool → Nat) (w1 : Nat) (stamp : Stamp)
    (frame : List Byte) (adm : Stamp) : State :=
  let k := s.live Reg.ETH_RXWR_WR e
  let rd := s.live Reg.ETH_RXRD_RD e
  let full := decide (32 ≤ (k + 2 ^ 32 - rd) % 2 ^ 32)
  let s := if full then s.setLive Reg.ETH_RXRD_RD ((rd + 1) % 2 ^ 32) e else s
  let slot := (padTo 2048 (bytesLE 4 (ctrl k full) ++ bytesLE 4 w1 ++ bytesLE 8 stamp.toNat ++ frame)).take 2048
  let s := s.setWin (0x06120000 + 0x10000 * e + 2048 * (k % 32)) slot
  let q := s.eth e
  let s := s.setEth e { q with stamps := Tab.put 0 q.stamps (k % 65536) stamp }
  let s := s.setLive Reg.ETH_RXWR_WR ((k + 1) % 2 ^ 32) e
  s.takeIn (BitVec.ofNat 24 (0x020000 + e)) stamp adm slot

/-- The fixed bits of a slot's CTRL word: SEQ, NEW and OVR (R381). -/
def ethCtrl (k : Nat) (ovr : Bool) (bits : Nat) : Nat := k % 2 ^ 16 + 2 ^ 16 + ovr.toNat * 2 ^ 17 + bits

/-- The frame goes to the program ring, or is refused for its age (R27, R381). -/
def State.ethToRing (s : State) (e : Nat) (x : EthInfo) (stamp adm : Stamp) : State :=
  if inAge stamp adm (s.conf Reg.ETH_MACCFG_MAXAGE e * msTicks) then
    s.ethEntry e
      (fun k o => ethCtrl k o (x.tagged.toNat * 2 ^ 20 + (decide (x.etype = 0x88F7)).toNat * 2 ^ 21))
      (x.body.length % 2 ^ 11 + x.vid * 2 ^ 16 + x.pcp * 2 ^ 28) stamp x.body adm
  else s.refuseAge (BitVec.ofNat 24 (0x020000 + e)) stamp adm

/-- ETH_FRAME_RECEIVE: a frame is stamped at ingress, checked and classified (R378 to R381). (DEDUCED 127 of
notes/assumptions) -/
def execEthFrameReceive (e : Nat) (ingress adm : Stamp) (fr : EthFrame) (s : State) : Res :=
  if s.takesInput && decide (e < 2) && decide (s.conf Reg.ETH_MACCFG_EN e = 1) then
    let s := s.advanceTo adm
    let stamp := floorTo 64 (ingress - subTicks (nsTicks (s.conf Reg.ETH_LAT_RXLAT e)))
    let x := ethInfo fr.bytes
    if !fr.fcsOk || decide (1522 < fr.bytes.length + 4) || x.tag2 then .next (s.bump Reg.ETH_CNT_DROP_ERR e)
    else if !s.ethForUs e x.body then .next (s.bump Reg.ETH_CNT_DROP_FILTER e)
    else if x.etype = 0x88F7 ∧ beAt x.body 14 1 % 16 = 2 ∧ s.conf Reg.ETH_PTPCFG_PDELAY_EN e = 1 then
      let s := s.setEth e { s.eth e with reqs := (s.eth e).reqs ++ [(stamp, x.body)] }
      .next (s.ethToRing e x stamp adm)
    else if x.etype = 0x0800 ∧ ipBad x.body = true then .next (s.bump Reg.ETH_CNT_DROP_ERR e)
    else
      match (if x.etype = 0x0800 then s.ethFusion e x.body else none) with
      | some (udp, data) =>
        .next { s with fge := { s.fge with ingress := s.fge.ingress ++ [⟨e, udp, stamp, data⟩] } }
      | none => .next (s.ethToRing e x stamp adm)
  else .next s

/-- The address of a transmit slot (R381). -/
def ethSlot (e t : Nat) : Nat := 0x06140000 + 0x8000 * e + 2048 * t

/-- The LEN of a transmit slot. -/
def State.ethLen (s : State) (e t : Nat) : Nat := bitsOf (s.winWord (ethSlot e t)) 0 11

/-- A slot's request ends with its TX record (R381). -/
def State.ethEnd (s : State) (e t : Nat) (refused : Bool) (stamp : Stamp) : State :=
  let len := s.ethLen e t
  let frame := if refused then [] else s.winBytes (ethSlot e t + 16) len
  let x := ethInfo frame
  let k := s.live Reg.ETH_RXWR_WR e
  let s := s.ethEntry e
    (fun k o => ethCtrl k o (2 ^ 18 + x.tagged.toNat * 2 ^ 20 + (decide (x.etype = 0x88F7)).toNat * 2 ^ 21 +
      refused.toNat * 2 ^ 22 + t * 2 ^ 24))
    (x.body.length % 2 ^ 11 + x.vid * 2 ^ 16 + x.pcp * 2 ^ 28) stamp x.body s.now
  let q := s.eth e
  let s := s.setEth e { q with pend := q.pend.filter (· != t), busy := q.busy ++ [(t, BitVec.ofNat 32 k)] }
  s.setLive Reg.ETH_TXST_ST 3 e t

/-- A slot is busy (R371, R381). (DEDUCED 125 of notes/assumptions) -/
def Eth.isBusy (q : Eth) (t : Nat) : Bool := q.pend.contains t || q.busy.any (fun x => x.1 == t)

/-- One request of a transmit slot (R381); in replay the frame is captured (R99, R100). (DEDUCED 77, 81 of
notes/assumptions) -/
def State.ethRequest (s : State) (e t : Nat) : State :=
  if (s.eth e).isBusy t then s
  else
    let len := s.ethLen e t
    let q := s.eth e
    let s := (s.setEth e { q with pend := q.pend ++ [t] }).setLive Reg.ETH_TXST_ST 1 e t
    if s.rpl.on then
      s.capture 4 s.row.cur.toNat (0x020000 + e) len (s.winBytes (ethSlot e t + 16) len)
    else if len < 14 ∨ 1518 < len then s.ethEnd e t true 0
    else s.ethNext e

/-- A write of ETH_TXREQ: slots that land together go in ascending index (R381). -/
def State.ethTxReq (s : State) (e mask : Nat) : State :=
  (maskBits 16 mask).foldl (fun s t => s.ethRequest e t) s

/-- ETH_TX_REQUEST: a host write of ETH_TXREQ (R381). -/
def execEthTxRequest (p : Port) (e : Nat) (mask : BitVec 16) (s : State) : Res :=
  if e < 2 then .next (s.hostLive p (0x06100028 + 0x1000 * e) mask.toNat (fun s => s.ethTxReq e mask.toNat))
  else .next s

/-- The egress stamp of a transmitted frame (R379). (DEDUCED 126 of notes/assumptions) -/
def State.egress (s : State) (e : Nat) (t : Stamp) : Stamp :=
  floorTo 64 (t + subTicks (nsTicks (s.conf Reg.ETH_LAT_TXLAT e)))

/-- A Kwaros frame as a MAC sends it: IPv4 UDP from ETH_IPV4 and KW_UDP.PORT with TTL 64, DF set and no UDP checksum,
to the neighbour entry of its IPv4 address. The rule gives neither the other header fields nor the destination of
SYNC and FOLLOW_UP: these are free values (R382). (DESIGN CHOICE 133 of notes/assumptions) -/
def State.kwEther (s : State) (e : Nat) (f : KwFrame) : List Byte :=
  let free := fun (i n : Nat) => bytesLE n (Config.freeWord (s.draws + i)).toNat
  let be := fun (n v : Nat) => (bytesLE n v).reverse
  let ip := match f.ipv4 with
    | some a => bytesLE 4 a.toNat
    | none => free 0 4
  let entry := (List.range 16).find? (fun j => bitOf (s.confWord (0x06108008 + 0x10 * j)) 31 &&
    be 4 (s.confWord (0x06108000 + 0x10 * j)) == ip)
  let mac := match entry with
    | some j => bytesLE 4 (s.confWord (0x06108004 + 0x10 * j)) ++ bytesLE 2 (s.confWord (0x06108008 + 0x10 * j))
    | none => free 1 4 ++ free 2 2
  let n := f.bytes.length
  let from_ := be 4 (s.conf Reg.ETH_IPV4_IP e)
  let head := fun (sum : Nat) => [0x45] ++ free 3 1 ++ be 2 (28 + n) ++ free 4 2 ++ [0x40, 0, 64, 17] ++ be 2 sum ++
    from_ ++ ip
  mac ++ bytesLE 4 (s.conf Reg.ETH_MACADDR_LO_ADDR e) ++ bytesLE 2 (s.conf Reg.ETH_MACADDR_HI_ADDR e) ++ [8, 0] ++
    head (0xFFFF - onesSum (head 0)) ++ be 2 (s.conf Reg.KW_UDP_PORT) ++ be 2 f.udp.toNat ++ be 2 (8 + n) ++ [0, 0] ++
    f.bytes

/-- The frame in progress has been sent whole, padded to 60 bytes with bytes that the rule does not give: free values
(R381). (DESIGN CHOICE 133 of notes/assumptions) -/
def State.ethSent (s : State) (e : Nat) (frame : List Byte) : State :=
  let pad := (List.range (60 - frame.length)).map (fun i => (Config.freeWord (s.draws + i)).truncate 8)
  { s.setEth e { s.eth e with active := none, wire := frame ++ pad } with draws := s.draws + pad.length }

/-- ETH_TX_END: the frame in progress has been sent, and the next one starts (R381, R382). (DEDUCED 126 of
notes/assumptions) -/
def execEthTxEnd (e : Nat) (egress : Stamp) (s : State) : Res :=
  if s.ethSends e then
    let s := (s.ethNext e).advanceTo egress
    let t := s.egress e egress
    match (s.eth e).active, s.kwQueue (4 + e) with
    | some 16, f :: rest =>
      let s := { s with draws := s.draws + 5 }.ethSent e (s.kwEther e f)
      .next (((s.kwSent (4 + e) f t).setKwQueue (4 + e) rest).ethNext e)
    | some x, _ =>
      let s := s.ethSent e (s.winBytes (ethSlot e x + 16) (s.ethLen e x))
      .next ((s.ethEnd e x false t).ethNext e)
    | none, _ => .next s
  else .next s

/-- The speed of a link: over RGMII that of ETH_MACCFG, over SGMII the in-band status (R378). -/
def State.linkSpeed (s : State) (e : Nat) (inBand : BitVec 2) : Nat :=
  if s.conf Reg.ETH_MACCFG_IF e = 0 then s.conf Reg.ETH_MACCFG_SPEED e else inBand.toNat

/-- ETH_LINK_CHANGE: the link state changes and a LINK record is written (R378, R381). -/
def execEthLinkChange (e : Nat) (up : Bool) (speed : BitVec 2) (s : State) : Res :=
  if s.takesInput && decide (e < 2) && decide (s.conf Reg.ETH_MACCFG_EN e = 1) then
    let v := s.linkSpeed e speed
    let s := (s.setLive Reg.ETH_LINK_UP up.toNat e).setLive Reg.ETH_LINK_SPEED v e
    .next (s.ethEntry e (fun k o => ethCtrl k o (2 ^ 19 + up.toNat * 2 ^ 26 + v * 2 ^ 24)) 0 s.now [] s.now)
  else .next s

/-- A write of ETH_RXRD; a value beyond WR is ignored (R370, R381). -/
def State.ethRxrd (s : State) (e v : Nat) : State :=
  let rd := s.live Reg.ETH_RXRD_RD e
  if (v + 2 ^ 32 - rd) % 2 ^ 32 ≤ (s.live Reg.ETH_RXWR_WR e + 2 ^ 32 - rd) % 2 ^ 32 then
    s.setLive Reg.ETH_RXRD_RD v e
  else s

/-- ETH_RXRD_WRITE: a host write of ETH_RXRD (R381). -/
def execEthRxrdWrite (p : Port) (e : Nat) (v : W32) (s : State) : Res :=
  if e < 2 then .next (s.hostLive p (0x06100024 + 0x1000 * e) v.toNat (fun s => s.ethRxrd e v.toNat))
  else .next s

/-- An 802.1AS message of MAC `e` with the timestamp PTP(t), on domain 0 (R383, R384). (DEDUCED 126 of
notes/assumptions) -/
def State.ptpMsg (s : State) (e typ seq : Nat) (t : Option Stamp) (egress : Stamp) (base : Nat) (phase : Int) :
    PtpMsg :=
  let x := match t with
    | some t => s.ptpTime t
    | none => 0
  let id := BitVec.ofNat 64 (s.conf Reg.ETH_CLKID_LO_ID e + s.conf Reg.ETH_CLKID_HI_ID e * 2 ^ 32)
  ⟨typ, seq, x / 65536 / 1000000000, x / 65536 % 1000000000, x % 65536, egress, base, phase, 0, 0, id, e + 1,
    [0x01, 0x80, 0xC2, 0, 0, 0x0E]⟩

/-- PTP_SYNC: the grandmaster sends the Sync of the latest multiple of its interval, and its Follow_Up, unless a frame
is in progress: then it waits (R381, R383). (DEDUCED 126 of notes/assumptions) -/
def execPtpSync (e : Nat) (egress : Stamp) (s : State) : Res :=
  match s.syncDue e (sMax s.now egress) with
  | none => .next s
  | some g =>
    if (s.eth e).active.isSome then .next s
    else
      let s := s.advanceTo egress
      let t := s.egress e egress
      let q := s.eth e
      let base := s.gnb.steps % 65536
      .next ((s.setEth e { q with
        ptpSeq := (q.ptpSeq + 1) % 65536, syncFrom := g + 1
        sent := [s.ptpMsg e 0 q.ptpSeq none t 0 0, s.ptpMsg e 8 q.ptpSeq (some t) t base s.gnb.stepEps] }).ethNext e)

/-- PDELAY_RESPONSE: the oldest Pdelay_Req is answered with Pdelay_Resp, carrying PTP(t2), and its
Follow_Up, carrying PTP(t3), unless a frame is in progress: then they wait (R381, R384). (DEDUCED 126 of
notes/assumptions) -/
def execPdelayResponse (e : Nat) (egress : Stamp) (s : State) : Res :=
  match (s.eth e).reqs with
  | [] => .next s
  | (t2, b) :: rest =>
    if s.ethSends e && (s.eth e).active.isNone then
      let s := s.advanceTo egress
      let t3 := s.egress e egress
      let seq := beAt b 44 2
      .next ((s.setEth e { s.eth e with
        reqs := rest, sent := [s.ptpMsg e 3 seq (some t2) t3 0 0, s.ptpMsg e 10 seq (some t3) t3 0 0] }).ethNext e)
    else .next s

/-- Starts a management cycle; a GO while a cycle is in progress starts nothing (R378). -/
def State.mdioGo (s : State) (e op phy dev data : Nat) : State :=
  let s := s.setLive Reg.ETH_MDIO_CMD_OP op e
  let s := s.setLive Reg.ETH_MDIO_CMD_PHYAD phy e
  let s := s.setLive Reg.ETH_MDIO_CMD_DEVAD dev e
  let s := s.setLive Reg.ETH_MDIO_CMD_DATA data e
  if s.flag Reg.ETH_MDIO_DATA_BUSY e then s
  else (s.setEth e { s.eth e with mdio := some op }).setLive Reg.ETH_MDIO_DATA_BUSY 1 e

/-- The word of ETH_MDIO_CMD with GO. -/
def mdioWord (op phy dev data : Nat) : Nat :=
  2 ^ 31 + op * 2 ^ 28 + phy * 2 ^ 21 + dev * 2 ^ 16 + data

/-- MDIO_C22_WRITE: OP 0x0 (R378). -/
def execMdioC22Write (p : Port) (e : Nat) (phy dev : BitVec 5) (data : BitVec 16) (s : State) : Res :=
  if e < 2 then .next (s.hostLive p (0x06100040 + 0x1000 * e) (mdioWord 0 phy.toNat dev.toNat data.toNat)
    (fun s => s.mdioGo e 0 phy.toNat dev.toNat data.toNat)) else .next s

/-- MDIO_C22_READ: OP 0x1 (R378). -/
def execMdioC22Read (p : Port) (e : Nat) (phy dev : BitVec 5) (s : State) : Res :=
  if e < 2 then .next (s.hostLive p (0x06100040 + 0x1000 * e) (mdioWord 1 phy.toNat dev.toNat 0)
    (fun s => s.mdioGo e 1 phy.toNat dev.toNat 0)) else .next s

/-- MDIO_C45_ADDRESS: OP 0x2 (R378). -/
def execMdioC45Address (p : Port) (e : Nat) (phy dev : BitVec 5) (data : BitVec 16) (s : State) : Res :=
  if e < 2 then .next (s.hostLive p (0x06100040 + 0x1000 * e) (mdioWord 2 phy.toNat dev.toNat data.toNat)
    (fun s => s.mdioGo e 2 phy.toNat dev.toNat data.toNat)) else .next s

/-- MDIO_C45_READ: OP 0x3 (R378). -/
def execMdioC45Read (p : Port) (e : Nat) (phy dev : BitVec 5) (s : State) : Res :=
  if e < 2 then .next (s.hostLive p (0x06100040 + 0x1000 * e) (mdioWord 3 phy.toNat dev.toNat 0)
    (fun s => s.mdioGo e 3 phy.toNat dev.toNat 0)) else .next s

/-- MDIO_CYCLE_DONE: BUSY clears, and a read's data appear (R378). -/
def execMdioCycleDone (e : Nat) (data : BitVec 16) (s : State) : Res :=
  match (s.eth e).mdio with
  | none => .next s
  | some op =>
    let s := (s.setEth e { s.eth e with mdio := none }).setLive Reg.ETH_MDIO_DATA_BUSY 0 e
    .next (if op = 1 ∨ op = 3 then s.setLive Reg.ETH_MDIO_DATA_DATA data.toNat e else s)

/-- Releases the slots whose TX record lies in the snapshot (R371, R381). -/
def State.ethBoundary (s : State) (e : Nat) : State :=
  let wr := (Reg.ETH_RXWR_WR.get s.snap.regs e 0).toNat
  let seen := fun (k : W32) => decide (0 < (wr + 2 ^ 32 - k.toNat) % 2 ^ 32 ∧ (wr + 2 ^ 32 - k.toNat) % 2 ^ 32 < 2 ^ 31)
  let q := s.eth e
  let s := s.setEth e { q with busy := q.busy.filter (fun x => !seen x.2), lost := [] }
  (q.busy.filter (fun x => seen x.2)).foldl (fun s x => s.setLive Reg.ETH_TXST_ST 0 e x.1) s

end Sys2Proof.Machine
end

