-- ==== Sys2Proof/Machine/Ncmd.lean ====
section
/-! DEFINITION. Node commands as step 3 of a boundary applies them, and what a commit does to the needle bed
(R125, R142 to R145, R151, R153 to R156, R162, R164). -/

namespace Sys2Proof.Machine

/-- A command that does not fit is discarded with the stale-output event (R24, R125, R154). -/
def State.staleOutput (s : State) (core : Nat) : State := s.raiseNow 5 core

/-! ### Source values -/

/-- SET_ANGLE: angle and rate, valid at the boundary of the row that issued them (R142, R145). -/
def State.setAngle (s : State) (i : Nat) (arg : List Byte) : State :=
  s.setNodeRt i { s.nodeRt i with
    src := leAt arg 0 4, rate := sext 32 (leAt arg 4 4), srcStamp := some s.row.prev }

/-- The oldest pose that is known (R143, R171). -/
def State.oldestPose (s : State) : Option Stamp :=
  if s.flag Reg.PLE_POSE_CTL_VALID then
    some (match s.ple.hist.getLast? with
      | some p => if sBefore p.2.t s.pose.t then p.2.t else s.pose.t
      | none => s.pose.t)
  else none

/-- A new baseline value and its rate from the two latest (R142). (DEDUCED 94 of notes/assumptions) -/
def NodeRt.takeBaseline (x : NodeRt) (theta : Nat) (t : Stamp) : NodeRt :=
  let prev := match x.srcStamp with
    | some t0 => if t0 = t then x.srcPrev else some (x.src, t0)
    | none => none
  let rate := match prev with
    | some (v, t0) => divRound (shortWay (((theta : Int) - v) * 65536) / 65536 * secTicks) (sdiff t0 t).toNat
    | none => 0
  { x with src := theta, rate := rate, srcStamp := some t, srcPrev := prev }

/-- SET_BASELINE: the yaw that places the antenna where it was measured, or a discard (R143). (DEDUCED 83, 94 of
notes/assumptions) -/
def State.setBaseline (s : State) (i : Nat) (arg : List Byte) : State :=
  let r := s.node i
  let t := s.row.prev
  match s.oldestPose with
  | none => s
  | some t0 =>
    if sBefore t t0 then s
    else
      let yaw := (s.frameAt r.parent s.row.cur t).yaw
      let u := turned (-yaw) (sext 32 (leAt arg 0 4) * lenOne) (sext 32 (leAt arg 4 4) * lenOne)
      let wx := u.1 + (r.pax - r.tx) * lenOne
      let wy := u.2 + (r.pay - r.ty) * lenOne
      let want : Int := isqrt (((r.cax * r.cax + r.cay * r.cay) * lenOne * lenOne).toNat)
      let got : Int := isqrt ((wx * wx + wy * wy).toNat)
      if want < 32 * ((got - want).natAbs : Int) then
        s.setNodeRt i { s.nodeRt i with disputeRow := some s.row.num }
      else
        let theta := (atan2B wy wx + 2 ^ 32 - atan2B r.cay r.cax) % 2 ^ 32
        s.setNodeRt i ((s.nodeRt i).takeBaseline theta t)

/-- SET_HITCH: the measured relative yaw replaces the model's (R144, R145). -/
def State.setHitch (s : State) (i : Nat) (arg : List Byte) : State :=
  s.setNodeRt i { s.nodeRt i with
    hitch := [(leAt arg 0 4 : Int) * 65536], hitchAt := s.row.prev, srcStamp := some s.row.prev }

/-! ### Endpoints -/

/-- EXTSET: sets or releases the external state for targets from E on (R153). -/
def State.extSet (s : State) (i : Nat) (v : Nat) : State :=
  let lead := if v = 0 then s.lead i false else if v = 1 then s.lead i true else max (s.lead i true) (s.lead i false)
  let e := s.row.cur + subTicks (64 * lead + s.period)
  let held : Option Bool := if v = 2 then none else some (decide (v = 1))
  let x := s.nodeRt i
  s.setNodeRt i { x with exts := x.exts.filter (fun p => sBefore p.1 e) ++ [(e, held)] }

/-- LEARN_RESET. -/
def State.learnReset (s : State) (i : Nat) : State :=
  s.setNodeRt i { s.nodeRt i with learnN := 0, learnedOn := none, learnedOff := none }

/-- RECOVER. (DEDUCED 69 of notes/assumptions) -/
def State.recover (s : State) (i : Nat) : State :=
  let s := (s.failLeave i).setNodeSt i stExcluded false
  s.setNodeRt i { s.nodeRt i with miss := 0 }

/-- The stamp within ±2^37 of a target whose bits 37:6 are given (R164). (DEDUCED 94 of notes/assumptions) -/
def ackStamp (target : Stamp) (v : Nat) : Stamp := sAdd target (sext 38 (unsig 38 ((v : Int) * 64 - (target.toNat : Int))))

/-- The queue entry that an acknowledged item stands for. (DEDUCED 94 of notes/assumptions) -/
def State.ackedEntry (s : State) (i : Nat) (x : RemItem) : Option Nat :=
  ((s.ofNode i).find? (fun p => p.2.isCommitted && decide (p.2.target = x.target) &&
    decide (epType p.2.endpoint = 3) && decide (epIdx p.2.endpoint = x.entry) && (valueOn p.2.value == x.state))).map
    Prod.fst

/-- REMOTE_ACK: an acknowledgement of one of the last 16 COMMAND frames of the remote node (R164). (DEDUCED 94 of
notes/assumptions) -/
def State.remoteAck (s : State) (i : Nat) (arg : List Byte) : State :=
  let n := (s.node i).eidx
  let key := (s.skn.act.remote n).key
  match (Tab.get [] s.kw.items key).find? (fun x => decide (x.seq = leAt arg 0 2) && decide (x.entry = n)) with
  | none => s
  | some x =>
    let st := leAt arg 2 1
    let k := s.ackedEntry i x
    let s := match k with
      | some k => if st ≤ 3 then s.setEntry k { s.entry k with acked := true } else s
      | none => s
    if st ≤ 1 then
      let a := ackStamp x.target (leAt arg 4 4)
      let s := s.learn i x.state (sdiff x.slot a / 64)
      let s := match k with
        | some k => s.resolveEntry k a false
        | none => s
      s.setNodeRt i { s.nodeRt i with miss := 0 }
    else if st = 2 then s.raiseNow 9 i
    else if st = 3 then s.failEnter i s.fStamp true
    else s

/-- A node command at step 3; one that does not fit its node is discarded (R125, R154). (DEDUCED 52 of
notes/assumptions) -/
def State.nodeCommand (s : State) (core code i : Nat) (arg : List Byte) : State :=
  let r := s.node i
  let f := s.fStamp
  if r.kind = 0 then s.staleOutput core
  else if code = 1 then
    (if bitOf (leAt arg 0 1) 0 then s.subtree i else [i]).foldl (fun s j => s.frogNode j f) s
  else if r.kind = kFrame then
    if code = 3 ∧ r.tsrc = 2 ∧ i ≠ 0 then s.setAngle i arg
    else if code = 4 ∧ r.tsrc = 3 ∧ i ≠ 0 then s.setBaseline i arg
    else if code = 5 ∧ r.tsrc = 4 ∧ i ≠ 0 then s.setHitch i arg
    else s.staleOutput core
  else if code = 2 then s.tinkNode i f
  else if code = 6 ∧ leAt arg 0 1 ≤ 2 then s.extSet i (leAt arg 0 1)
  else if code = 7 then s.learnReset i
  else if code = 8 then s.failEnter i f true
  else if code = 9 then s.recover i
  else if code = 10 ∧ r.kind = kLeaf ∧ r.etype = 3 then s.remoteAck i arg
  else s.staleOutput core

/-! ### Commits -/

/-- The skein-held bytes of node `i` differ between two slots. -/
def nodeChanged (a b : Image) (i : Nat) : Bool :=
  (List.range 16).any (fun j => decide (a.nodeWord i j ≠ b.nodeWord i j))

/-- The old actuator of a node goes to the old record's fail state after the last committed edge, unless it
stands there (R162). (DEDUCED 97 of notes/assumptions) -/
def State.orphaned (s : State) (i : Nat) (old : NodeRec) : State :=
  match (if old.actuated then old.failValue else none) with
  | none => s
  | some v =>
    if s.finalState i = valueOn v then s
    else
      let after := match s.lastTarget i with
        | some t => sMax s.fStamp t
        | none => s.fStamp
      let x := s.nodeRt i
      s.setNodeRt i { x with orphan := x.orphan ++ [(BitVec.ofNat 32 old.endpoint, v, after)] }

/-- What a commit does to one node whose bytes differ (R162): `old` is its record before. (DEDUCED 97 of
notes/assumptions) -/
def State.commitNode (s : State) (old : NodeRec) (i : Nat) : State :=
  let r := s.node i
  let s := s.frogNode i s.fStamp
  let moved := decide (old.endpoint ≠ r.endpoint) || decide (old.isEnd ≠ r.isEnd)
  let s := if old.isEnd && moved then s.orphaned i old else s
  if r.kind = 0 then s.setNodeRt i { NodeRt.fresh with orphan := (s.nodeRt i).orphan }
  else
    let s := if old.isEnd && moved then
        s.setNodeRt i { (s.nodeRt i) with learnN := 0, learnedOn := none, learnedOff := none, miss := 0 }
      else s
    let s :=
      if old.kind ≠ r.kind ∨ (r.kind = kFrame ∧ old.tsrc ≠ r.tsrc) then
        s.setNodeRt i { s.nodeRt i with src := 0, rate := 0, srcStamp := none, srcPrev := none }
      else s
    if r.kind = kFrame ∧ r.tsrc = 4 ∧ (old.kind ≠ kFrame ∨ old.tsrc ≠ 4) then
      s.setNodeRt i { s.nodeRt i with hitch := [(r.yaw0 : Int) * 65536], hitchAt := s.row.cur, srcStamp := some s.row.cur }
    else s

/-- Step 2 of a commit for the needle bed, once the slots have rotated: what is due by F is committed first (R162, R195,
R201). -/
def State.commitNodes (s : State) (old : Image) : State :=
  let s := s.commitDue s.fStamp (fun _ => true)
  let keys := sortBy (fun (a b : Nat) => decide (a ≤ b)) (nodeKeys 0 old.nodes ++ nodeKeys 0 s.skn.act.nodes)
  let s := keys.eraseDups.foldl (fun s i =>
    if nodeChanged old s.skn.act i then s.commitNode (old.node i) i else s) s
  s.setLive Reg.NB_STAT_DEFINED s.defined.length

end Sys2Proof.Machine
end

