-- ==== Sys2Proof/Machine/Trail.lean ====
section
/-! DEFINITION. The trailing write: coverage from what happened on the ground, allocation from the pool, and
the release of queue entries (R194, R210 to R215, R224 to R229, R237). -/

namespace Sys2Proof.Machine

/-! ### When a node applies product -/

/-- The node applies product on the ground at a stamp, as far as its edges are resolved (R211). -/
def NodeRt.onGround (x : NodeRt) (t : Stamp) : Bool :=
  x.ground.foldl (fun a p => if sAtOrBefore p.1 t then p.2 else a) false

/-- The node and its actuated ancestor groups (R212). -/
def State.gatedBy (s : State) (i : Nat) : List Nat :=
  i :: (s.above i).filter (fun a => decide ((s.node a).kind = kGroup) && (s.node a).actuated)

/-- The node writes at a stamp: it and every actuated ancestor group apply product (R212). -/
def State.applies (s : State) (i : Nat) (t : Stamp) : Bool := (s.gatedBy i).all (fun j => (s.nodeRt j).onGround t)

/-- The resolved horizon of a node for an interval that ends at `hi` (R214). (DEDUCED 101 of notes/assumptions) -/
def State.horizon (s : State) (i : Nat) (hi : Stamp) : Stamp :=
  (s.gatedBy i).foldl (fun h j =>
    (s.ofNode j).foldl (fun h p =>
      if p.2.isCommitted && !p.2.resolved && sBefore p.2.target h then p.2.target else h) h) hi

/-- The part of time a trailing write covers for node `i`: from where it was written to its horizon (R214). -/
def State.cover (s : State) (q : Trail) (i : Nat) : Stamp × Stamp :=
  ((s.nodeRt i).coverTo.getD q.from_, s.horizon i q.to_)

/-- The sub-intervals of `[lo, hi]` in which every node of a list applies product on the ground (R211). -/
def State.groundIn (s : State) (js : List Nat) (lo hi : Stamp) : List (Stamp × Stamp) :=
  if !sBefore lo hi then []
  else
    let cuts := js.flatMap (fun j => (s.nodeRt j).ground.map Prod.fst)
    let cuts := cuts.filter (fun t => sBefore lo t && sBefore t hi)
    let cuts := lo :: sortBy sAtOrBefore cuts ++ [hi]
    (cuts.zip cuts.tail).filter (fun c => sBefore c.1 c.2 && js.all (fun j => (s.nodeRt j).onGround c.1))

/-- The sub-intervals of `[lo, hi]` in which node `i` writes. (DEDUCED 101 of notes/assumptions) -/
def State.appliedIn (s : State) (i : Nat) (lo hi : Stamp) : List (Stamp × Stamp) := s.groundIn (s.gatedBy i) lo hi

/-- Only LEAF nodes and GROUP nodes without members write coverage (R212). -/
def State.writes (s : State) (i : Nat) : Bool :=
  decide ((s.node i).kind = kLeaf) || (decide ((s.node i).kind = kGroup) && (s.members i).isEmpty)

/-! ### Footprints -/

/-- A point of the field, with 32 fraction bits. -/
abbrev Pt := Int × Int

/-- The corners of the footprint of node `i` at the stamp of a pose (R213). -/
def State.corners (s : State) (i : Nat) (t : Stamp) : List Pt :=
  let r := s.node i
  let hx : Int := 5 * r.fl
  let hy : Int := 5 * r.fw
  [(r.fx - hx, r.fy - hy), (r.fx - hx, r.fy + hy), (r.fx + hx, r.fy - hy), (r.fx + hx, r.fy + hy)].map (fun c =>
    let k := s.pointAt i c.1 c.2 s.row.cur t
    (k.e, k.n))

/-- A point on the chord between two points, at `d` of `span`. -/
def onChord (span d : Int) (a b : Pt) : Pt := (a.1 + (b.1 - a.1) * d / span, a.2 + (b.2 - a.2) * d / span)

/-- The corners at stamp `t` of the chord from `t0` to `t1`. -/
def cornersAt (c0 c1 : List Pt) (t0 t1 t : Stamp) : List Pt :=
  (c0.zip c1).map (fun p => onChord (sdiff t0 t1) (sdiff t0 t) p.1 p.2)

/-- `p` lies to the left of the line from `a` to `b`, or on it. -/
def leftOf (a b p : Pt) : Bool := decide (0 ≤ (b.1 - a.1) * (p.2 - a.2) - (b.2 - a.2) * (p.1 - a.1))

/-- The convex hull of points: its box and its edges, counter-clockwise. -/
structure Hull where
  lo : Pt
  hi : Pt
  edges : List (Pt × Pt)
  deriving DecidableEq, Repr

/-- The convex hull of points. (DEDUCED 100 of notes/assumptions) -/
def hullOf (l : List Pt) : Hull :=
  let p := l.headD (0, 0)
  let lo := l.foldl (fun m q => (min m.1 q.1, min m.2 q.2)) p
  let hi := l.foldl (fun m q => (max m.1 q.1, max m.2 q.2)) p
  ⟨lo, hi, l.flatMap (fun a => l.filterMap (fun b =>
    if decide (a ≠ b) && l.all (fun q => leftOf a b q) then some (a, b) else none))⟩

/-- A point lies in a hull, its edge included. -/
def Hull.has (h : Hull) (p : Pt) : Bool :=
  decide (h.lo.1 ≤ p.1) && decide (p.1 ≤ h.hi.1) && decide (h.lo.2 ≤ p.2) && decide (p.2 ≤ h.hi.2) &&
    h.edges.all (fun e => leftOf e.1 e.2 p)

/-- The centre of a cell of cell size `c` in mm (R220). -/
def cellCentre (c : Nat) (i j : Int) : Pt := ((2 * i + 1) * 5 * c * lenOne, (2 * j + 1) * 5 * c * lenOne)

/-- A range of integers from `a` to `b`. -/
def intsTo (a b : Int) : List Int := (List.range (b - a + 1).toNat).map (fun (k : Nat) => a + (k : Int))

/-- A footprint that moves along the chord between its places at two stamps, for the part of that time from `lo` to
`hi`, in sub-ticks of `span`: its corners at both stamps, and the hull of its places at `lo` and `hi` (R213). -/
structure Swath where
  c0 : List Pt
  c1 : List Pt
  span : Int
  lo : Int
  hi : Int
  hull : Hull
  deriving DecidableEq, Repr

/-- A quadratic in time, in sub-ticks: constant, linear and square terms. -/
abbrev Quad := Int × Int × Int

/-- The value of a quadratic. -/
def quadAt (f : Quad) (x : Int) : Int := f.1 + f.2.1 * x + f.2.2 * (x * x)

/-- The whole sub-ticks next to which a quadratic changes sign. -/
def quadTurns (f : Quad) : List Int :=
  let (c, b, a) := f
  if a = 0 then (if b = 0 then [] else let r := -c / b; [r, r + 1])
  else
    let d := b * b - 4 * a * c
    if d < 0 then []
    else
      let q : Int := isqrt d.toNat
      [(-b - q - 1) / (2 * a), (-b + q) / (2 * a)].flatMap (fun r => [r - 1, r, r + 1, r + 2])

/-- Which side of the moving edge from `a` to `b` a point is on, as a quadratic in time: each corner goes from its
first place to its second in `span` sub-ticks. -/
def edgeSide (span : Int) (a b : Pt × Pt) (p : Pt) : Quad :=
  let e0 : Pt := ((b.1.1 - a.1.1) * span, (b.1.2 - a.1.2) * span)
  let e1 : Pt := ((b.2.1 - b.1.1) - (a.2.1 - a.1.1), (b.2.2 - b.1.2) - (a.2.2 - a.1.2))
  let q0 : Pt := ((p.1 - a.1.1) * span, (p.2 - a.1.2) * span)
  let q1 : Pt := (a.1.1 - a.2.1, a.1.2 - a.2.2)
  let cross := fun (x y : Pt) => x.1 * y.2 - x.2 * y.1
  (cross e0 q0, cross e0 q1 + cross e1 q0, cross e1 q1)

/-- A point lies in a moving footprint, its edge included, at some whole sub-tick (R213). (DEDUCED 100 of
notes/assumptions) -/
def Swath.has (w : Swath) (p : Pt) : Bool :=
  w.hull.has p &&
    (match w.c0.zip w.c1 with
     | [c0, c1, c2, c3] =>
       let sides := [edgeSide w.span c0 c1 p, edgeSide w.span c1 c3 p, edgeSide w.span c3 c2 p, edgeSide w.span c2 c0 p]
       let inside := fun (x : Int) =>
         decide (w.lo ≤ x) && decide (x ≤ w.hi) &&
           (sides.all (fun f => decide (0 ≤ quadAt f x)) || sides.all (fun f => decide (quadAt f x ≤ 0)))
       (w.lo :: w.hi :: sides.flatMap quadTurns).any inside
     | _ => false)

/-- The cells whose centres lie in a hull. (DEDUCED 100 of notes/assumptions) -/
def Hull.cells (h : Hull) (c : Nat) : List (Int × Int) :=
  let u : Int := 10 * c * lenOne
  if u ≤ 0 then []
  else
    (intsTo (h.lo.2 / u) (h.hi.2 / u)).flatMap (fun j =>
      (intsTo (h.lo.1 / u) (h.hi.1 / u)).filterMap (fun i => if h.has (cellCentre c i j) then some (i, j) else none))

/-! ### Counting -/

/-- The intervals between poses in force at successive boundaries, oldest first, up to `to_` (R213). (DEDUCED 100 of
notes/assumptions) -/
def State.poseSteps (s : State) (to_ : Stamp) : List (Stamp × Stamp) :=
  let ts := (s.ple.hist.map (fun p => p.2.t)).reverse
  (ts.zip ts.tail).filter (fun p => sBefore p.1 p.2 && sAtOrBefore p.2 to_)

/-- What one writer sweeps in one interval between poses: its footprint at the start if it applies then, and what it
sweeps while it applies (R213). -/
structure Sweep where
  start : List Hull
  swept : List Swath
  deriving DecidableEq, Repr

/-- The sweep of writer `i` between two pose stamps, within the part of time `c` that is written. (DEDUCED 100 of
notes/assumptions) -/
def State.sweep (s : State) (i : Nat) (c : Stamp × Stamp) (t0 t1 : Stamp) : Sweep :=
  let parts := s.appliedIn i (sMax c.1 t0) (if sBefore c.2 t1 then c.2 else t1)
  let first := s.applies i t0
  if parts.isEmpty && !first then ⟨[], []⟩
  else
    let c0 := s.corners i t0
    let c1 := s.corners i t1
    let at_ := fun t => cornersAt c0 c1 t0 t1 t
    ⟨if first then [hullOf c0] else [],
      parts.map (fun p => ⟨c0, c1, sdiff t0 t1, sdiff t0 p.1, sdiff t0 p.2, hullOf (at_ p.1 ++ at_ p.2)⟩)⟩

/-- The time in one interval between poses in which node `i` applies product on the ground while the centre of its
footprint moves slower than STOP_V, within the part of time `c`; a composing GROUP has no footprint (R211, R215).
(DEDUCED 101 of notes/assumptions) -/
def State.stillTime (s : State) (i : Nat) (c : Stamp × Stamp) (t0 t1 : Stamp) : Nat :=
  let parts := s.groundIn [i] (sMax c.1 t0) (if sBefore c.2 t1 then c.2 else t1)
  if parts.isEmpty || (s.node i).composing then 0
  else
    let r := s.node i
    let a := s.pointAt i r.fx r.fy s.row.cur t0
    let b := s.pointAt i r.fx r.fy s.row.cur t1
    let dx := b.e - a.e
    let dy := b.n - a.n
    let d : Int := isqrt (dx * dx + dy * dy).toNat
    if d * secTicks < (s.conf Reg.PLE_STOP_STOP_V : Int) * 655360000 * sdiff t0 t1 then
      parts.foldl (fun n p => n + (sdiff p.1 p.2).toNat) 0
    else 0

/-- The cells counted before for an interval of a layer (R213, R214). (DEDUCED 101 of notes/assumptions) -/
def State.countedIn (s : State) (t0 t1 : Stamp) (l : Nat) : List (Int × Int) :=
  (s.fab.counted.filter (fun x => decide (x.1 = t0) && decide (x.2.1 = t1) && decide (x.2.2.1 = l))).flatMap
    (fun x => x.2.2.2)

/-- The cells of layer `l` that rise by one in one interval (R213). -/
def State.risen (s : State) (l : Nat) (t0 t1 : Stamp) (sweeps : List Sweep) : List (Int × Int) :=
  let c := (s.layer l).c
  let start := sweeps.flatMap (fun w => w.start)
  let old := s.countedIn t0 t1 l
  let cells := ((sweeps.flatMap (fun w => w.swept)).flatMap (fun w =>
    (w.hull.cells c).filter (fun p => w.has (cellCentre c p.1 p.2)))).eraseDups
  cells.filter (fun p => !old.contains p && !start.any (fun h => h.has (cellCentre c p.1 p.2)))

/-! ### Writing cells -/

/-- Raises a count: it stops at 14, and an excluded cell stays (R213, R225). -/
def raised (v : Nat) : Nat := if v < 14 then v + 1 else v

/-- Raises cell `k` of a tile of coverage layer `l`. -/
def State.raiseCell (s : State) (l tile k : Nat) : State :=
  let off := tile + k / 2
  let b := (s.layerByte l off).toNat
  s.fabByte off (BitVec.ofNat 8 (if k % 2 = 0 then b / 16 * 16 + raised (b % 16) else b % 16 + 16 * raised (b / 16)))

/-- The directory entry as it stands now. -/
def State.dirNow (s : State) (l e : Nat) : Nat := leNat ((List.range 4).map (fun i => s.layerByte l ((s.layer l).dir + 4 * e + i)))

/-- Takes a tile from the pool for a directory entry: none while the pool is empty (R228, R229). (DEDUCED 102 of
notes/assumptions) -/
def State.allocate (s : State) (l e : Nat) : State × Option Nat :=
  let next := s.live Reg.FAB_POOL_NEXT_NEXT
  if next = s.conf Reg.FAB_POOL_N_N then
    let s := s.setLive Reg.FAB_STAT_POOL_EMPTY 1
    if s.fab.emptySeen then (s, none)
    else (({ s with fab := { s.fab with emptySeen := true } }).raiseNow 20 l, none)
  else
    let k := (s.conf Reg.FAB_POOL_BASE_BASE + next) % 2 ^ 28
    let off := k * 32768
    let s := s.setLive Reg.FAB_POOL_NEXT_NEXT (next + 1)
    let s := (List.range 8).foldl (fun (s : State) (j : Nat) => s.zeroLine (8 * k + j)) s
    (s.fabBytes ((s.layer l).dir + 4 * e) (bytesLE 4 (2 ^ 31 + k)), some off)

/-- Writes the cells of one directory entry; answers whether cells were dropped (R213, R224, R228). (DEDUCED 104 of
notes/assumptions) -/
def State.writeTile (s : State) (l e : Nat) (ks : List Nat) : State × Bool :=
  let w := s.dirNow l e
  let s := s.touch ((s.layer l).dir + 4 * e)
  if entryBad w then (s.dirFault l e, true)
  else if bitOf w 31 then (ks.foldl (fun s k => s.raiseCell l ((s.layer l).tileOff w) k) s, false)
  else if bitOf (s.conf Reg.FAB_CFG_AUTO) l then
    match s.allocate l e with
    | (s, some off) => (ks.foldl (fun s k => s.raiseCell l off k) s, false)
    | (s, none) => (s, true)
  else (s, true)

/-- Raises cells of a layer, by ascending directory entry, with trail-drop once for the layer (R213, R228,
R229). -/
def State.raiseCells (s : State) (l : Nat) (cells : List (Int × Int)) : State :=
  let y := s.layer l
  if cells.isEmpty || !y.en then s
  else
    let tagged := cells.map (fun c => let q := tileOf c.1 c.2; (y.entry q.1 q.2.1, q.2.2))
    let outside := tagged.any (fun x => x.1.isNone)
    let es := (sortBy (fun (a b : Nat) => decide (a ≤ b)) (tagged.filterMap Prod.fst)).eraseDups
    let r := es.foldl (fun (acc : State × Bool) e =>
      let o := acc.1.writeTile l e (tagged.filterMap (fun x => if x.1 = some e then some x.2 else none))
      (o.1, acc.2 || o.2)) (s, outside)
    if r.2 then (r.1.setLive Reg.FAB_STAT_TRAIL_DROP 1).raiseNow 18 l else r.1

/-! ### The write -/

/-- The earliest stamp up to which the GROUPs and LEAFs that node `i` gates, itself among them, have been written: none
while one of them has not been (R212, R214). -/
def State.writtenTo (s : State) (i : Nat) : Option Stamp :=
  let l := (s.defined.filter (fun j => (s.node j).isEnd && (s.gatedBy j).contains i)).map (fun j => (s.nodeRt j).coverTo)
  l.foldl (fun a c => match a, c with
    | some x, some y => some (if sBefore y x then y else x)
    | _, _ => none) (l.headD none)

/-- Drops what no later write can need: ground instants before the last one up to which every node that they gate is
written, and cells counted for intervals that every writer has passed. (DEDUCED 102 of notes/assumptions) -/
def State.tidyTrail (s : State) : State :=
  let s := s.defined.foldl (fun s i =>
    let x := s.nodeRt i
    match s.writtenTo i with
    | none => s
    | some c =>
      let past := x.ground.filter (fun p => sAtOrBefore p.1 c)
      s.setNodeRt i { x with ground := past.getLast?.toList ++ x.ground.filter (fun p => !sAtOrBefore p.1 c) }) s
  let open_ := fun (t1 : Stamp) => s.defined.any (fun i => s.writes i &&
    (match (s.nodeRt i).coverTo with | some c => sBefore c t1 | none => false))
  let oldest := (s.ple.hist.getLast?.map (fun p => p.2.t)).getD 0
  { s with fab := { s.fab with counted := s.fab.counted.filter (fun x => sAtOrBefore oldest x.1 && open_ x.2.1) } }

/-- A trailing write is carried out (R213 to R215, R235). (DEDUCED 101 of notes/assumptions) -/
def State.writeTrail (s : State) (q : Trail) : State :=
  let ends := s.defined.filter (fun i => (s.node i).isEnd)
  let writers := (ends.filter (fun i => s.writes i)).map (fun i => (i, s.cover q i))
  let steps := s.poseSteps q.to_
  let swept := steps.map (fun t => (t, writers.map (fun w => ((s.node w.1).cov, s.sweep w.1 w.2 t.1 t.2))))
  let layerCells := fun (l : Nat) => swept.map (fun x =>
    (x.1, s.risen l x.1.1 x.1.2 ((x.2.filter (fun w => decide (w.1 = l))).map Prod.snd)))
  let covers := ends.map (fun i => (i, s.cover q i))
  let still := steps.foldl (fun n t => covers.foldl (fun n c => n + s.stillTime c.1 c.2 t.1 t.2) n) s.fab.still
  let s :=
    if s.conf Reg.PLE_TRAIL_EN = 1 then
      (List.range 4).foldl (fun s l =>
        let cs := layerCells l
        let new := cs.filterMap (fun c => if c.2.isEmpty then none else some (c.1.1, c.1.2, l, c.2))
        let s := { s with fab := { s.fab with counted := s.fab.counted ++ new } }
        s.raiseCells l (cs.flatMap Prod.snd)) s
    else s
  let s := covers.foldl (fun s c =>
    s.setNodeRt c.1 { s.nodeRt c.1 with coverTo := some (sMax c.2.1 c.2.2) }) s
  let s := { s with fab := { s.fab with still := still } }
  let s := (s.setLive Reg.PLE_STILLON_T (min (2 ^ 32 - 1) (still / 2560000))).tidyTrail
  if s.ple.pass.isNone then s.showMisses else s

/-- The trailing write in progress is carried out (R213). -/
def State.doTrail (s : State) : State :=
  match s.fab.trail with
  | none => s
  | some q =>
    let s := s.writeTrail q
    { s with fab := { s.fab with trail := none } }

/-- The trailing write that missed its deadline in the row before is completed (R237). (DEDUCED 101 of
notes/assumptions) -/
def State.endOldTrail (s : State) : State :=
  match s.fab.trailOld with
  | none => s
  | some q =>
    let s := s.writeTrail q
    { s with fab := { s.fab with trailOld := none } }

/-- Step 4: the trailing write of the row starts, and one that a missed deadline left over is completed beside it, by
itself (R213, R237). (DEDUCED 101 of notes/assumptions) -/
def State.startTrail (s : State) : State :=
  let runs := decide (s.power.bind = .none) || decide (s.power.bind = .edges)
  let s := { s with fab := { s.fab with trail := none, trailOld := s.fab.trail } }
  match runs && s.flag Reg.PLE_POSE_CTL_VALID, s.ple.hist with
  | true, a :: b :: _ => { s with fab := { s.fab with trail := some ⟨s.row.num, b.2.t, a.2.t, false⟩ } }
  | _, _ => s

/-- At bind-off the write-back follows the trailing write for the row that contains the last target (R67). -/
def State.bindTrail (s : State) : State :=
  if decide (s.power.bind = .edges) && s.fab.trail.isNone && s.fab.trailOld.isNone && sBefore s.power.lastTarget s.row.cur then
    { s with power := { s.power with bind := .writeBack } }
  else s

/-- TRAILING_WRITE_END: the trailing write that runs in the row ends, one left over from the row before first (R67, R213,
R237). In a replay a write that the record calls late does not end in its row (R42). -/
def execTrailingWriteEnd (s : State) : Res :=
  .next (
    if !s.rowsRun then s
    else if s.fab.trailOld.isSome then s.endOldTrail.bindTrail
    else if s.fab.trail.isSome && !(s.rpl.on && s.rpl.trailLate) then s.doTrail.bindTrail
    else s)

/-- The deadline of the trailing write (R237). (DEDUCED 101 of notes/assumptions) -/
def State.trailLate (s : State) : State :=
  match s.fab.trail with
  | none => s
  | some q =>
    if q.late then s
    else
      let s := s.advanceTo s.deadline
      let s := (s.setLive Reg.FAB_STAT_TRAIL_LATE 1).raiseNow 19 0
      let s := s.logLateEngine 19
      { s with fab := { s.fab with trail := some { q with late := true } } }

/-- The deadline of the trailing write has come: it is late, unless it has ended; in a replay the record says whether
it was kept (R42, R237). -/
def State.trailJudged (s : State) : State :=
  if s.fab.trail.isNone then s
  else if s.rpl.on && !s.rpl.trailLate then s.endOldTrail.doTrail.bindTrail
  else s.trailLate

/-- TRAIL_DEADLINE: 1 µs before the next boundary a trailing write that has not ended is late (R42, R237). -/
def execTrailDeadline (s : State) : Res :=
  .next (if s.rowsRun && !s.recordFirst s.deadline then s.trailJudged else s)

/-! ### Release of queue entries -/

/-- The ground instant of a resolved entry (R211). -/
def State.groundAt (s : State) (e : QEntry) : Stamp :=
  let ty := epType e.endpoint
  let tail := if 4 < ty then 0
    else (if valueOn e.value then s.conf Reg.PLE_TAIL_ON_TAIL ty else s.conf Reg.PLE_TAIL_OFF_TAIL ty) * 2560000
  e.actual + subTicks tail

/-- A trailing write has written the entry's node past its ground instant (R194); a node that is FREE is
written no more. -/
def State.writtenPast (s : State) (e : QEntry) : Bool :=
  !(s.node e.node).isEnd ||
    (match (s.nodeRt e.node).coverTo with
      | some c => sAtOrBefore (s.groundAt e) c
      | none => false)

/-- Entries that are LANDED, resolved and written are freed at a boundary (R194). (DEDUCED 97 of notes/assumptions)
-/
def State.releaseEntries (s : State) : State :=
  let go := sortBy entryLe (s.ple.queue.filter (fun p =>
    decide (p.2.st = .landed) && p.2.resolved && s.writtenPast p.2))
  go.foldl (fun s p =>
    let first := (s.committedOf p.2.node).head?.map Prod.fst
    let s := if first = some p.1 then
        s.setNodeRt p.2.node { s.nodeRt p.2.node with cmd0 := valueOn p.2.value }
      else s
    s.dropEntry p.1) s

/-- The actual instants that have passed at a boundary are settled (R210). -/
def State.settleActual (s : State) : State :=
  s.defined.foldl (fun s i =>
    let x := s.nodeRt i
    if x.acts.any (fun p => sAtOrBefore p.1 s.row.cur) then
      s.setNodeRt i { x with actual := x.actualAt s.row.cur, acts := x.acts.filter (fun p => !sAtOrBefore p.1 s.row.cur) }
    else s) s

/-- PLE_QUSED and PLE_QPEAK at a boundary. -/
def State.showQueue (s : State) : State :=
  let used := s.ple.queue.length
  let spec := (s.ple.queue.filter (fun p => p.2.isSpec)).length
  let s := (s.setLive Reg.PLE_QUSED_USED used).setLive Reg.PLE_QUSED_SPEC spec
  s.setLive Reg.PLE_QPEAK_PEAK (max used (s.live Reg.PLE_QPEAK_PEAK))

end Sys2Proof.Machine
end

