-- ==== Sys2Proof/Machine/Fabric.lean ====
section
/-! DEFINITION. Tile swaps, tile copies, and the write-back of the tile cache (R67, R230 to R236). -/

namespace Sys2Proof.Machine

/-- Swaps a queue holds (R230). -/
def swapQueue : Nat := 4

/-- A writer's code in event arguments: the core, or 256 plus the host port (R424). (DEDUCED 50 of
notes/assumptions) -/
def writerArg : Writer → Nat
  | .host p => 256 + p.idx
  | .core n => n
  | .liveSet => 256

/-- The swap that a writer's copy of FAB_SWAP_A and FAB_SWAP_B describes (R230, R396). -/
def State.stagedSwap (s : State) (w : Writer) : Swap :=
  ⟨writerArg w, s.staged w Reg.FAB_SWAP_A_MODE, s.staged w Reg.FAB_SWAP_A_ROW, s.staged w Reg.FAB_SWAP_A_COL,
    s.staged w Reg.FAB_SWAP_A_LAYER, BitVec.ofNat 32 (s.staged w Reg.FAB_SWAP_B_ENTRY)⟩

/-- A host GO queues a swap, or is refused with REJ while the queue is full (R230). -/
def State.queueHostSwap (s : State) (x : Swap) : State :=
  if swapQueue ≤ s.fab.hostSwaps.length then s.setLive Reg.FAB_SWAP_CTL_REJ 1
  else { s with fab := { s.fab with hostSwaps := s.fab.hostSwaps ++ [x] } }

/-- A program GO queues a swap for this step 3, or is refused with REJ (R230). -/
def State.queueProgSwap (s : State) (x : Swap) : State :=
  if swapQueue ≤ s.fab.progSwaps.length then s.setLive Reg.FAB_SWAP_CTL_REJ 1
  else { s with fab := { s.fab with progSwaps := s.fab.progSwaps ++ [x] } }

/-- A writer's GO: the swap its copy describes (R230). (DEDUCED 9, 27 of notes/assumptions) -/
def State.swapGo (s : State) (w : Writer) : State :=
  match w with
  | .host p => s.queueHostSwap (s.stagedSwap (.host p))
  | .core n => s.queueProgSwap (s.stagedSwap (.core n))
  | .liveSet => s.queueHostSwap (s.stagedSwap .liveSet)

/-- A host GO whose copy has a given MODE. -/
def State.hostSwap (s : State) (p : Port) (mode : Nat) : State :=
  s.hostLive p 0x02000508 1 (fun s => s.queueHostSwap { s.stagedSwap (.host p) with mode := mode })

/-- SWAP_REPLACE (R231). -/
def execSwapReplace (p : Port) (s : State) : Res := .next (s.hostSwap p 0)

/-- SWAP_MERGE (R231). -/
def execSwapMerge (p : Port) (s : State) : Res := .next (s.hostSwap p 1)

/-- SWAP_REMOVE (R231). -/
def execSwapRemove (p : Port) (s : State) : Res := .next (s.hostSwap p 2)

/-- One cell of a merge: the given value, and the live one (R231). -/
def mergedCell (g v : Nat) : Nat := if g = 15 then 15 else if v = 15 then 0 else v

/-- A byte of a merge: two cells. -/
def mergedByte (g v : Nat) : Nat := mergedCell (g % 16) (v % 16) + 16 * mergedCell (g / 16) (v / 16)

/-- Merges the live tile of layer `l` into the new one, in place, line by line of the cache (R231, R235). (DEDUCED
103 of notes/assumptions) -/
def State.mergeTile (s : State) (l : Nat) (live : Option Nat) (new : Nat) : State :=
  (List.range 8).foldl (fun (s : State) (j : Nat) =>
    let s := match live with
      | some t => s.touch (t + 4096 * j)
      | none => s
    (List.range 4096).foldl (fun s i =>
      let k := 4096 * j + i
      let g := (s.dramByte (new + k)).toNat
      let v := match live with
        | some t => (s.layerByte l (t + k)).toNat
        | none => 0
      let b := mergedByte g v
      if b = g then s else s.fabByte (new + k) (BitVec.ofNat 8 b)) (s.touch (new + 4096 * j))) s

/-- Whether a swap can be applied: its layer is enabled, its place lies in the extent, its mode is allowed
there, and a MERGE has a new tile (R230, R231). (DEDUCED 103 of notes/assumptions) -/
def State.swapFits (s : State) (x : Swap) : Bool :=
  let y := s.layer x.layer
  decide (x.layer < 12) && y.en && decide (x.col < y.cols) && decide (x.row < y.rows) && decide (x.mode < 3) &&
    (decide (x.mode ≠ 1) || (y.cover && x.entry.getLsbD 31))

/-- Applies a swap at step 3; one that does not fit is discarded, and so is every one from the boundary on at which
the linger begins (R24, R67, R224, R230, R231). (DEDUCED 103 of notes/assumptions) -/
def State.applySwap (s : State) (x : Swap) : State :=
  if !s.swapFits x || decide (s.power.bind = .parkNext) || decide (s.power.bind = .linger) then s.raiseNow 5 x.who
  else
    let y := s.layer x.layer
    let e := x.row * y.cols + x.col
    let old := s.dirNow x.layer e
    let s := if entryBad old then s.dirFault x.layer e else s
    let s :=
      if entryGood old then
        { s with fab := { s.fab with leaving := s.fab.leaving ++ [(y.tileOff old, y.tileSize)] } }
      else s
    let s :=
      if x.mode = 1 then
        s.mergeTile x.layer (if entryGood old then some (y.tileOff old) else none) (y.tileOff x.entry.toNat)
      else s
    let new := if x.mode = 2 then old % 2 ^ 31 else x.entry.toNat
    (s.fabBytes (y.dir + 4 * e) (bytesLE 4 new)).bump Reg.FAB_SWAP_STAT_APPLIED

/-- Step 3: the host swaps of the row before, then the program swaps (R230). -/
def State.applySwaps (s : State) : State :=
  let l := s.fab.hostSwaps ++ s.fab.progSwaps
  l.foldl State.applySwap { s with fab := { s.fab with hostSwaps := [], progSwaps := [] } }

/-! ### Copies -/

/-- A write of FAB_COPY_CTL.GO (R233). (DEDUCED 27 of notes/assumptions) -/
def State.startCopy (s : State) (p : Port) : State :=
  match s.fab.copy with
  | some _ => s.setLive Reg.FAB_COPY_CTL_REJ 1
  | none =>
    let w := Writer.host p
    { s with fab := { s.fab with copy := some (s.staged w Reg.FAB_COPY_A_LAYER, s.staged w Reg.FAB_COPY_A_COL,
      s.staged w Reg.FAB_COPY_A_ROW, s.staged w Reg.FAB_COPY_B_DEST * 4096) } }

/-- COPY_GO: a host write of FAB_COPY_CTL.GO (R233). (DEDUCED 46 of notes/assumptions) -/
def execCopyGo (p : Port) (s : State) : Res := .next (s.hostLive p 0x02000518 1 (fun s => s.startCopy p))

/-- Step 3: an outstanding copy takes its tile, as this row's probes see it (R233). -/
def State.takeCopy (s : State) : State :=
  match s.fab.copy, s.fab.copyRes with
  | some (l, c, r, _), none =>
    let y := s.layer l
    let at_ := y.dir + 4 * (r * y.cols + c)
    let w := s.seenNat l at_ 4
    let bad := !y.en || decide (12 ≤ l) || decide (y.cols ≤ c) || decide (y.rows ≤ r)
    let res := if bad then 3 else if entryGood w then 1 else 2
    let s := if bad then s else s.touch at_
    let s :=
      if res = 2 ∧ entryBad w = true then s.dirFault l (r * y.cols + c)
      else s
    { s with fab := { s.fab with copyRes := some (res, false) } }
  | _, _ => s

/-- The copy of the row is made (R233). -/
def State.makeCopy (s : State) : State :=
  match s.fab.copy, s.fab.copyRes with
  | some (l, c, r, dest), some (res, false) =>
    let y := s.layer l
    let from_ := y.tileOff (s.seenNat l (y.dir + 4 * (r * y.cols + c)) 4)
    let s :=
      if res = 1 then
        let bytes := (List.range y.tileSize).map (fun k => s.seenByte l (from_ + k))
        (s.touchAll from_ y.tileSize).setDramBytes dest bytes
      else s
    { s with fab := { s.fab with copyRes := some (res, true) } }
  | _, _ => s

/-- COPY_DONE: the copy ends during its row (R233). -/
def execCopyDone (s : State) : Res := .next (if s.rowsRun then s.makeCopy else s)

/-- The boundary after: the result is reported (R233). -/
def State.reportCopy (s : State) : State :=
  let s := s.makeCopy
  match s.fab.copyRes with
  | some (res, _) =>
    let s := (s.setLive Reg.FAB_COPY_STAT_RESULT res).bump Reg.FAB_COPY_STAT_SEQ
    { s with fab := { s.fab with copy := none, copyRes := none } }
  | none => s

/-- TILE_WRITEBACK_DONE: at bind-off, every dirty line has been written back (R67, R236). -/
def execTileWritebackDone (s : State) : Res :=
  if s.power.bind = .writeBack then .next { s.writeBack with power := { s.power with bind := .parkNext } } else .next s

end Sys2Proof.Machine
end

