-- ==== Sys2Proof/Machine/FusionIn.lean ====
section
/-! DEFINITION. Fusion sources: their clock models and the assembly of their feature frames (R332 to
R339). -/

namespace Sys2Proof.Machine

/-- The runtime state of source `i`. -/
def State.source (s : State) (i : Nat) : Source := Tab.get Source.fresh s.fge.sources i

/-- Replaces the runtime state of source `i`. -/
def State.setSource (s : State) (i : Nat) (q : Source) : State :=
  { s with fge := { s.fge with sources := Tab.put Source.fresh s.fge.sources i q } }

/-- SOFF of source `i`. -/
def State.soff (s : State) (i : Nat) : Stamp :=
  BitVec.ofNat 64 (s.live64 Reg.FGE_SOFF_LO_SOFF Reg.FGE_SOFF_HI_SOFF i)

/-- SREF of source `i`. -/
def State.sref (s : State) (i : Nat) : Stamp :=
  BitVec.ofNat 64 (s.live64 Reg.FGE_SREF_LO_SREF Reg.FGE_SREF_HI_SREF i)

/-- DT(s) of a source stamp (R333). -/
def State.sourceTime (s : State) (i : Nat) (t : Stamp) : Stamp :=
  sAdd (s.soff i) (divRound (sdiff (s.sref i) t * (s.source i).rate) (2 ^ 24))

/-- Sets the model of source `i`, its rate kept in UQ8.24 (R17, R333). -/
def State.setModel (s : State) (i : Nat) (soff sref : Stamp) (rate : Int) (good : Nat) : State :=
  let s := s.setLive64 Reg.FGE_SOFF_LO_SOFF Reg.FGE_SOFF_HI_SOFF soff.toNat i
  let s := s.setLive64 Reg.FGE_SREF_LO_SREF Reg.FGE_SREF_HI_SREF sref.toNat i
  let s := s.setSource i { s.source i with rate := clampI 0 (2 ^ 32 - 1) rate }
  s.setLive Reg.FGE_SSTAT_GOOD good i

/-- `anchor(e, d)` of R334. -/
def State.anchorModel (s : State) (i : Nat) (e d : Stamp) : State :=
  s.setModel i (d - subTicks (s.conf Reg.FGE_SNET_NETLAT i * usTicks)) e (s.conf Reg.FGE_SRATE_RATE0 i) 1

/-- `observe(i, e, d)`: one sync observation of the clock model (R334, R335). -/
def State.observe (s : State) (i : Nat) (e d : Stamp) : State :=
  let p := s.sourceTime i e
  let r := sdiff p (d - subTicks (s.conf Reg.FGE_SNET_NETLAT i * usTicks))
  let de := sdiff (s.sref i) e
  let kr := s.conf Reg.FGE_SGAIN_KR i
  let ko := s.conf Reg.FGE_SGAIN_KO i
  let rate := (s.source i).rate + divRound (r * 2 ^ (24 - kr)) de.toNat
  let soff := sAdd p (divRound r (2 ^ ko))
  let good := s.live Reg.FGE_SSTAT_GOOD i
  if s.live Reg.FGE_SSTAT_STATE i = 1 then
    if s.conf Reg.FGE_STIME_FPER i * 256000 < r.natAbs ∨ de ≤ 0 then
      let s := (s.setLive Reg.FGE_SSTAT_STATE 2 i).anchorModel i e d
      (s.bump Reg.FGE_SSTAT_QCNT i).raiseNow 54 i
    else s.setModel i soff e rate good
  else if 1 ≤ good ∧ 0 < de ∧ r.natAbs ≤ s.conf Reg.FGE_SNET_RELTOL i * usTicks then
    let s := s.setModel i soff e rate (good + 1)
    if good + 1 = 8 then (s.setLive Reg.FGE_SSTAT_STATE 1 i).raiseNow 55 i else s
  else s.anchorModel i e d

/-- The source whose datagrams arrive on a MAC and a UDP port (R332). -/
def State.sourceOf (s : State) (mac : Nat) (udp : BitVec 16) : Option Nat :=
  (List.range s.variant.sources).find? (fun i =>
    s.conf Reg.FGE_SCFG_EN i == 1 && s.conf Reg.FGE_SCFG_PORT i == mac && s.conf Reg.FGE_SCFG_UDP i == udp.toNat)

/-- A source after a frame has ended, complete or discarded: what still comes of it is dropped (R338). (DEDUCED 124
of notes/assumptions) -/
def Source.endFrame (q : Source) (fseq : W32) : Source :=
  { q with partials := q.partials.filter (fun f => f.fseq != fseq), ended := (fseq :: q.ended).take 16 }

/-- A frame of source `i` is discarded under R338. (DEDUCED 124 of notes/assumptions) -/
def State.discardFrame (s : State) (i : Nat) (fseq : W32) : State :=
  (s.setSource i ((s.source i).endFrame fseq)).bump Reg.FGE_SSTAT_INCOMPLETE i

/-- The datagram's header lies in the ranges of R337 and agrees with its frame (R338). (DEDUCED 124 of
notes/assumptions) -/
def frameOk (c0 : Nat) (f : Frame) (h : List Byte) : Bool :=
  let cw := leAt h 28 2
  let ch := leAt h 30 2
  let c := leAt h 32 1
  let cc := leAt h 33 1
  let pc := leAt h 10 2
  decide (f.cw = cw) && decide (f.ch = ch) && decide (f.c = c) && decide (f.ccell = cc) &&
    decide (1 ≤ cw ∧ cw ≤ 512) && decide (1 ≤ ch ∧ ch ≤ 512) && decide (1 ≤ c ∧ c ≤ 64) &&
    decide (4 ≤ cc ∧ cc ≤ 10) && decide (1 ≤ pc ∧ pc ≤ 4096) && decide (leAt h 8 2 < pc) && decide (f.pcnt = pc) &&
    decide (leAt h 36 4 + leAt h 40 2 ≤ cw * ch * c) && decide (c0 + c ≤ 64)

/-- Writes the raster bytes of a datagram into its frame. -/
def putRaster (t : Tab Byte) (off : Nat) (bytes : List Byte) : Tab Byte :=
  bytes.zipIdx.foldl (fun t x => Tab.put 0 t (off + x.2) x.1) t

/-- The header of packet 0 followed by the whole raster (R339). -/
def Frame.payload (f : Frame) : List Byte :=
  f.header ++ (List.range (f.cw * f.ch * f.c)).map (fun k => Tab.get 0 f.raster k)

/-- A frame of source `i` is complete: rejected unless the model is LOCKED, else it awaits admission
with the source stamp DT(T_CAP) (R335, R338). -/
def State.frameComplete (s : State) (i : Nat) (f : Frame) (t : Stamp) : State :=
  let s := s.setSource i ((s.source i).endFrame f.fseq)
  if s.live Reg.FGE_SSTAT_STATE i = 1 then s.complete (inputId 3 i) (s.sourceTime i f.tcap) t f.payload else s

/-- FUSION_DATAGRAM: the oldest datagram of fusion ingress gives its sync observation and joins its
frame (R334 to R338). (DEDUCED 124 of notes/assumptions) -/
def execFusionDatagram (s : State) : Res :=
  match s.fge.ingress with
  | [] => .next s
  | d :: rest =>
    let s := { s with fge := { s.fge with ingress := rest } }
    match s.sourceOf d.mac d.udp with
    | none => .next s
    | some i =>
      let h := d.bytes.take 48
      let fseq : W32 := BitVec.ofNat 32 (leAt h 4 4)
      if leAt h 0 1 ≠ 1 ∨ h.length < 48 then .next s
      else
        let p0 := leAt h 8 2 = 0
        let s :=
          if p0 then
            let q := s.source i
            let prev := (q.ingress.find? (fun x => x.1 == fseq - 1)).map Prod.snd
            let s := s.setSource i { q with ingress := ((fseq, d.ingress) :: q.ingress).take 16 }
            match prev with
            | some t => if leAt h 20 8 = 0 then s else s.observe i (BitVec.ofNat 64 (leAt h 20 8)) t
            | none => s
          else s
        let q := s.source i
        let old := (q.partials.find? (fun f => f.fseq == fseq)).getD
          ⟨i, fseq, leAt h 10 2, 0, leAt h 28 2, leAt h 30 2, leAt h 32 1, leAt h 33 1, [], [], [], d.ingress, 0⟩
        if q.ended.contains fseq then .next s
        else if !frameOk (s.conf Reg.FGE_SCFG_C0 i) old h then .next (s.discardFrame i fseq)
        else
          let f := { old with
            tcap := BitVec.ofNat 64 (leAt h 12 8)
            header := if p0 then h else old.header
            got := if old.got.contains (leAt h 8 2) then old.got else leAt h 8 2 :: old.got
            raster := putRaster old.raster (leAt h 36 4) ((d.bytes.drop 48).take (leAt h 40 2)) }
          let s := s.setSource i { q with partials := f :: q.partials.filter (fun g => g.fseq != fseq) }
          if s.conf Reg.FGE_STIME_FPER i * 256000 < (d.ingress - f.first).toNat then
            .next (s.discardFrame i fseq)
          else if f.got.length = f.pcnt then .next (s.frameComplete i f d.ingress) else .next s

/-- FRAME_TIMEOUT: the oldest frame of source `i` that is not complete within FPER of its first datagram
is discarded (R338). -/
def execFrameTimeout (i : Nat) (s : State) : Res :=
  match sortBy (fun (f g : Frame) => sAtOrBefore f.first g.first) (s.source i).partials with
  | [] => .next s
  | f :: _ =>
    let t := f.first + subTicks (s.conf Reg.FGE_STIME_FPER i * 256000)
    .next (if s.recordFirst t then s else (s.advanceTo t).discardFrame i f.fseq)

end Sys2Proof.Machine
end

