-- ==== Sys2Proof/Machine/Fusion.lean ====
section
/-! DEFINITION. The fusion grid engine: alignment of the frames, the grid, the fusion head, calibration,
ego-motion and tracks, and when a result becomes visible; and the dispute unit (R340 to R359). -/

namespace Sys2Proof.Machine

/-! ### Frames and poses -/

/-- The frame that an admitted fusion sample holds (R339). -/
def frameOf (x : Sample) : Frame :=
  let h := x.payload
  ⟨x.id.toNat % 2 ^ 16, BitVec.ofNat 32 (leAt h 4 4), leAt h 10 2, BitVec.ofNat 64 (leAt h 12 8), leAt h 28 2, leAt h 30 2,
    leAt h 32 1, leAt h 33 1, h.take 48, [], putRaster [] 0 (h.drop 48), x.src, x.src⟩

/-- A fusion sample that enters a snapshot (R28, R340); frames that no later output can use are let go. -/
def State.latchFrame (s : State) (x : Sample) : State :=
  let i := x.id.toNat % 2 ^ 16
  let q := s.source i
  let keep := q.frames.filter (fun f => sAtOrBefore (s.row.cur - subTicks (4000 * msTicks)) f.stamp)
  s.setSource i { q with frames := frameOf x :: keep }

/-- The raster byte of channel `c` of cell (a, b), signed (R338). -/
def Frame.at (f : Frame) (a b c : Nat) : Int := sext 8 (Tab.get 0 f.raster ((b * f.cw + a) * f.c + c)).toNat

/-- The pose at an instant, as fusion may use it: none beyond XMAX or before the history (R341). (DEDUCED 123 of
notes/assumptions) -/
def State.fusionPose (s : State) (t : Stamp) : Option Kin :=
  let p := s.pose
  if sBefore p.t t then
    if sdiff p.t t ≤ (s.conf Reg.FGE_XMAX_XMAX * 2560000 : Nat) then some (s.lim.predict p (sdiff p.t t)) else none
  else if p.t = t then some (s.lim.predict p 0)
  else
    match (p :: s.ple.hist.map Prod.snd).getLast? with
    | some o => if sBefore t o.t then none else some (s.machineAt t)
    | none => none

/-- The frame of source `i` nearest to the output instant, the later of two (R341). -/
def State.nearest (s : State) (i : Nat) (t : Stamp) : Option Frame :=
  (s.source i).frames.foldl (fun best f =>
    match best with
    | none => some f
    | some g =>
      let df := (sdiff t f.stamp).natAbs
      let dg := (sdiff t g.stamp).natAbs
      if df < dg ∨ (df = dg ∧ sBefore g.stamp f.stamp = true) then some f else some g) none

/-- A source used in an output: its frame, and the machine at the frame's stamp. -/
structure Used where
  i : Nat
  f : Frame
  at_ : Kin
  deriving DecidableEq, Repr

/-- The source is ABSENT at an output instant because the machine cannot be predicted as far as XMAX allows: its EXTRAP
bit is set (R341). (DEDUCED 123 of notes/assumptions) -/
def State.beyondPose (s : State) (i : Nat) (t : Stamp) : Bool :=
  let late := fun (x : Stamp) => decide ((s.conf Reg.FGE_XMAX_XMAX * 2560000 : Nat) < sdiff s.pose.t x)
  match s.nearest i t with
  | none => false
  | some f =>
    decide (s.conf Reg.FGE_SCFG_EN i = 1) &&
      decide ((sdiff t f.stamp).natAbs ≤ (s.conf Reg.FGE_STIME_ALIGN_MAX i * msTicks : Nat)) && (late t || late f.stamp)

/-- Sets the EXTRAP bits of the sources at an output instant (R341). (DEDUCED 123 of notes/assumptions) -/
def State.markExtrap (s : State) (t : Stamp) : State :=
  (List.range s.variant.sources).foldl (fun (s : State) (i : Nat) =>
    if s.beyondPose i t then s.setSource i { s.source i with extrap := true } else s) s

/-- The sources used at an output instant, by their admitted frames alone (R336, R341); the others are ABSENT. A
quarantined source has no frame admitted (R335). (DEDUCED 124 of notes/assumptions) -/
def State.usedSources (s : State) (t : Stamp) : List Used :=
  (List.range s.variant.sources).filterMap (fun i =>
    if s.conf Reg.FGE_SCFG_EN i = 1 then
      match s.nearest i t with
      | none => none
      | some f =>
        if (s.conf Reg.FGE_STIME_ALIGN_MAX i * msTicks : Nat) < (sdiff t f.stamp).natAbs then none
        else
          match s.fusionPose t, s.fusionPose f.stamp with
          | some _, some k => some ⟨i, f, k⟩
          | _, _ => none
    else none)

/-! ### The grid -/

/-- The shape of the grid (R342). -/
structure Shape where
  gw : Nat
  gh : Nat
  /-- Cell size in mm. -/
  g : Nat
  x0 : Int
  y0 : Int
  deriving DecidableEq, Repr

/-- The grid of the ACTIVE skein. -/
def State.shape (s : State) : Shape :=
  ⟨s.conf Reg.FGE_GRID_GW_M1 + 1, s.conf Reg.FGE_GRID_GH_M1 + 1, 2 ^ s.conf Reg.FGE_GRID_GCELL,
    sext 32 (s.conf Reg.FGE_GX0_X), sext 32 (s.conf Reg.FGE_GY0_Y)⟩

/-- The centre of a cell in the machine frame, with 32 fraction bits (R342). -/
def Shape.centre (h : Shape) (k : Nat) : Pt :=
  ((h.x0 + (2 * (k / h.gw : Nat) + 1) * 5 * h.g) * lenOne, (h.y0 - (2 * (k % h.gw : Nat) + 1) * 5 * h.g) * lenOne)

/-- The cell of a point of the machine frame. (DEDUCED 122 of notes/assumptions) -/
def Shape.cellOf (h : Shape) (p : Pt) : Option Nat :=
  let u : Int := 10 * h.g * lenOne
  let v := (p.1 - h.x0 * lenOne) / u
  let w := (h.y0 * lenOne - p.2) / u
  if 0 ≤ v ∧ v < h.gh ∧ 0 ≤ w ∧ w < h.gw then some (v.toNat * h.gw + w.toNat) else none

/-- A point of the machine frame in the field. -/
def Kin.toField (k : Kin) (p : Pt) : Pt :=
  let r := turned k.yaw p.1 p.2
  (k.e + r.1, k.n + r.2)

/-- A point of the field in the machine frame. -/
def Kin.toMachine (k : Kin) (p : Pt) : Pt := turned (-k.yaw) (p.1 - k.e) (p.2 - k.n)

/-- The extrinsic of source `i` with its calibration offsets: origin, and yaw in 2^−48 turn (R342, R349). -/
def State.extrinsic (s : State) (i : Nat) : Pt × Int :=
  let x := sext 32 (s.conf Reg.FGE_SEXT_X_X i) + sext 32 (s.live Reg.FGE_SCAL_X_X i)
  let y := sext 32 (s.conf Reg.FGE_SEXT_Y_Y i) + sext 32 (s.live Reg.FGE_SCAL_Y_Y i)
  ((x * lenOne, y * lenOne),
    ((s.conf Reg.FGE_SEXT_YAW_YAW i : Int) + sext 32 (s.live Reg.FGE_SCAL_YAW_YAW i)) * 65536)

/-- The raster cell of source `q` nearest to a point of the machine frame at its stamp, seen through an
extrinsic (R338, R342). -/
def Used.cellAt (q : Used) (ext : Pt × Int) (p : Pt) : Option (Nat × Nat) :=
  let r := turned (-ext.2) (p.1 - ext.1.1) (p.2 - ext.1.2)
  let u : Int := 10 * 2 ^ q.f.ccell * lenOne
  let b := r.1 / u
  let a := ((q.f.cw : Int) * u / 2 - r.2) / u
  if 0 ≤ a ∧ a < q.f.cw ∧ 0 ≤ b ∧ b < q.f.ch then some (a.toNat, b.toNat) else none

/-- Where source `q` sees the centre of cell `k`: the raster cell, by the poses at t_o and t_s (R342). -/
def Used.sees (q : Used) (h : Shape) (ko : Kin) (ext : Pt × Int) (k : Nat) : Option (Nat × Nat) :=
  q.cellAt ext (q.at_.toMachine (ko.toField (h.centre k)))

/-- Sources in the order in which they write a cell: the later t_s stands, then the lower index (R342). -/
def writeOrder (l : List Used) : List Used :=
  sortBy (fun (a b : Used) => sBefore a.f.stamp b.f.stamp || (decide (a.f.stamp = b.f.stamp) && decide (b.i ≤ a.i))) l

/-- A channel of a cell of the grid, signed. (DEDUCED 122 of notes/assumptions) -/
def cellVal (g : Tab Byte) (k c : Nat) : Int := sext 8 (Tab.get 0 g (128 * k + c)).toNat

/-- The projection of the sources onto the grid (R342). -/
def State.project (s : State) (h : Shape) (ko : Kin) (l : List Used) : Tab Byte :=
  (writeOrder l).foldl (fun g q =>
    let ext := s.extrinsic q.i
    (List.range (h.gw * h.gh)).foldl (fun g k =>
      match q.sees h ko ext k with
      | none => g
      | some (a, b) =>
        (List.range q.f.c).foldl (fun g c =>
          Tab.put 0 g (128 * k + s.conf Reg.FGE_SCFG_C0 q.i + c) (BitVec.ofInt 8 (q.f.at a b c))) g) g) []

/-- The COVER mask of cell `k` (R342). -/
def State.coverMask (s : State) (h : Shape) (ko : Kin) (l : List Used) (k : Nat) : Nat :=
  l.foldl (fun m q => if (q.sees h ko (s.extrinsic q.i) k).isSome then m + 2 ^ q.i else m) 0

/-- The SUPPORT mask of cell `k`: the covering sources whose evidence channel reaches EVTHR (R352). (DEDUCED 121 of
notes/assumptions) -/
def State.supportMask (s : State) (h : Shape) (ko : Kin) (l : List Used) (k : Nat) : Nat :=
  l.foldl (fun m q =>
    match q.sees h ko (s.extrinsic q.i) k with
    | none => m
    | some (a, b) =>
      let ev := s.conf Reg.FGE_SGAIN_EVCH q.i
      let v := if ev < q.f.c then q.f.at a b ev else 0
      if sext 8 (s.conf Reg.FGE_SGAIN_EVTHR q.i) ≤ v then m + 2 ^ q.i else m) 0

/-! ### The fusion head -/

/-- A layer of the head (R343). -/
structure HeadLayer where
  op : Nat
  relu : Bool
  inBase : Nat
  inN : Nat
  outBase : Nat
  outN : Nat
  sh : Nat
  m : Nat
  woff : Nat
  deriving DecidableEq, Repr

/-- Layer `l` of the layer table of a skein (R343). -/
def Image.headLayer (m : Image) (l : Nat) : HeadLayer :=
  let w := fun j => m.word (0x05040000 + 16 * l + 4 * j)
  ⟨bitsOf (w 0) 0 8, decide (bitsOf (w 0) 8 8 = 1), bitsOf (w 0) 16 8, bitsOf (w 0) 24 8, bitsOf (w 1) 0 8, bitsOf (w 1) 8 8,
    bitsOf (w 1) 16 8, bitsOf (w 2) 0 16, w 3⟩

/-- A byte of weight memory. -/
def Image.weight (m : Image) (off : Nat) : Nat := bitsOf (m.word (0x05800000 + off / 4 * 4)) (8 * (off % 4)) 8

/-- The layers of the head in table order. -/
def Image.head (m : Image) : List HeadLayer := (List.range (m.fld Reg.FGE_HEAD_NL_M1 + 1)).map m.headLayer

/-- Weights of one output channel (R343). -/
def HeadLayer.perOut (y : HeadLayer) : Nat := if y.op = 1 then y.inN else if y.op = 2 then 9 * y.inN else 9

/-- Head cycles of a layer on a grid of `cells` (R344). -/
def HeadLayer.cycles (y : HeadLayer) (cells : Nat) : Nat := (cells * y.outN * y.perOut + 8191) / 8192 + 64

/-- Head cycles on a grid (R344). -/
def Image.headCycles (m : Image) (cells : Nat) : Nat := m.head.foldl (fun n y => n + y.cycles cells) 0

/-- The value of an input at a neighbour of cell `k`; 0 beyond the grid's edge (R344). -/
def nearVal (h : Shape) (g : Tab Byte) (k c : Nat) (kx ky : Nat) : Int :=
  let u : Int := (k % h.gw : Nat) + kx - 1
  let v : Int := (k / h.gw : Nat) + ky - 1
  if 0 ≤ u ∧ u < h.gw ∧ 0 ≤ v ∧ v < h.gh then cellVal g (v.toNat * h.gw + u.toNat) c else 0

/-- The accumulator of output channel `o` of a layer at cell `k` (R344). (DEDUCED 122 of notes/assumptions) -/
def Image.accum (m : Image) (h : Shape) (g : Tab Byte) (y : HeadLayer) (o k : Nat) : Int :=
  let at_ := y.woff + o * (4 + y.perOut)
  let bias := sext 32 (leNat ((List.range 4).map (fun j => BitVec.ofNat 8 (m.weight (at_ + j)))))
  let wt := fun j => sext 8 (m.weight (at_ + 4 + j))
  if y.op = 1 then
    (List.range y.inN).foldl (fun a c => a + wt c * cellVal g k (y.inBase + c)) bias
  else
    let chans := if y.op = 2 then (List.range y.inN) else [o]
    chans.zipIdx.foldl (fun a c =>
      (List.range 9).foldl (fun a j => a + wt (9 * c.2 + j) * nearVal h g k (y.inBase + c.1) (j % 3) (j / 3)) a) bias

/-- One output value, and whether its accumulation saturates (R344). (DEDUCED 122 of notes/assumptions) -/
def HeadLayer.value (y : HeadLayer) (acc : Int) : Int × Bool :=
  let a := satS 32 acc
  let v := if y.relu then max 0 a else a
  (satS 8 (shiftRound (v * y.m) (-(y.sh : Int))), decide (a ≠ acc))

/-- Runs one layer over the grid. -/
def Image.runLayer (m : Image) (h : Shape) (g : Tab Byte × Bool) (y : HeadLayer) : Tab Byte × Bool :=
  let outs := (List.range (h.gw * h.gh)).flatMap (fun k => (List.range y.outN).map (fun o =>
    let v := y.value (m.accum h g.1 y o k)
    (128 * k + y.outBase + o, v)))
  (outs.foldl (fun t x => Tab.put 0 t x.1 (BitVec.ofInt 8 x.2.1)) g.1, g.2 || outs.any (fun x => x.2.2))

/-- The head over a projected grid (R343, R344). -/
def Image.runHead (m : Image) (h : Shape) (g : Tab Byte) : Tab Byte × Bool :=
  m.head.foldl (fun g y => m.runLayer h g y) (g, false)

/-! ### Detections -/

/-- A detection: cell, score, centre in the field as lengths, radius in mm, and its masks (R345, R352). -/
structure Det where
  cell : Nat
  score : Int
  e : Int
  n : Int
  rad : Nat
  support : Nat
  cover : Nat
  deriving DecidableEq, Repr

/-- Cell `k` is a detection (R345). -/
def isDet (h : Shape) (g : Tab Byte) (ch : Nat) (thr : Int) (k : Nat) : Bool :=
  let v := cellVal g k ch
  decide (thr ≤ v) && (List.range 9).all (fun j =>
    let u : Int := (k % h.gw : Nat) + (j % 3 : Nat) - 1
    let w : Int := (k / h.gw : Nat) + (j / 3 : Nat) - 1
    if j = 4 ∨ ¬(0 ≤ u ∧ u < h.gw ∧ 0 ≤ w ∧ w < h.gh) then true
    else
      let x := cellVal g (w.toNat * h.gw + u.toNat) ch
      if j < 4 then decide (x < v) else decide (x ≤ v))

/-- The detections of a grid in descending score, ties in ascending cell index; at most 4,096 (R345, R352). -/
def State.detections (s : State) (h : Shape) (g : Tab Byte) (ko : Kin) (l : List Used) : List Det × Bool :=
  let sc := s.conf Reg.FGE_HEAD_SCORE_CH
  let rc := s.conf Reg.FGE_HEAD_RAD_CH
  let cells := (List.range (h.gw * h.gh)).filter (isDet h g sc (sext 8 (s.conf Reg.FGE_HEAD_DET_THR)))
  let ds := cells.map (fun k =>
    let p := ko.toField (h.centre k)
    (⟨k, cellVal g k sc, divRound p.1 (2 ^ 32), divRound p.2 (2 ^ 32), (max 0 (cellVal g k rc)).toNat * h.g / 8,
      s.supportMask h ko l k, s.coverMask h ko l k⟩ : Det))
  let ds := sortBy (fun (a b : Det) => decide (b.score < a.score) || (decide (a.score = b.score) && decide (a.cell ≤ b.cell))) ds
  (ds.take 4096, decide (4096 < ds.length))

/-! ### Tracks -/

/-- A track record (R354). -/
structure Trk where
  e : Int
  n : Int
  rad : Nat
  st : Nat
  score : Int
  hits : Nat
  miss : Nat
  split : Bool
  injected : Bool
  assoc : Bool
  id : Nat
  birth : Nat
  last : Nat
  support : Nat
  cover : Nat
  deriving DecidableEq, Repr

/-- Track slots (R354). -/
def trackSlots : Nat := 8192

/-- The record of track `i` (R354). -/
def trkOf (t : Tab W32) (i : Nat) : Trk :=
  let w := fun j => (Tab.get 0 t (8 * i + j)).toNat
  ⟨sext 32 (w 0), sext 32 (w 1), bitsOf (w 2) 0 16, bitsOf (w 2) 16 8, sext 8 (bitsOf (w 2) 24 8), bitsOf (w 3) 0 8,
    bitsOf (w 3) 8 8, bitOf (w 3) 16, bitOf (w 3) 17, bitOf (w 3) 18, w 4, w 5, w 6, bitsOf (w 7) 0 16, bitsOf (w 7) 16 16⟩

/-- The words of a track record. -/
def Trk.words (q : Trk) : List Nat :=
  [unsig 32 q.e, unsig 32 q.n, q.rad % 2 ^ 16 + 2 ^ 16 * q.st + 2 ^ 24 * unsig 8 q.score,
    min 255 q.hits + 2 ^ 8 * min 255 q.miss + 2 ^ 16 * (q.split.toNat + 2 * q.injected.toNat + 4 * q.assoc.toNat),
    q.id % 2 ^ 32, q.birth % 2 ^ 32, q.last % 2 ^ 32, q.support + 2 ^ 16 * q.cover]

/-- Writes track `i`; a FREE one reads zero. -/
def putTrk (t : Tab W32) (i : Nat) (q : Trk) : Tab W32 :=
  (if q.st = 0 then List.replicate 8 0 else q.words).zipIdx.foldl (fun t x => Tab.put 0 t (8 * i + x.2) (BitVec.ofNat 32 x.1)) t

/-- The slots that are not FREE, in ascending index. -/
def trkSlots (t : Tab W32) : List Nat :=
  ((t.map (fun p => p.1 / 8)).foldl (fun (l : List Nat) k => if l.head? = some k then l else k :: l) []).reverse.filter
    (fun i => decide ((trkOf t i).st ≠ 0))

/-- The lowest number from `k` that a rising list does not hold. (DEDUCED 121 of notes/assumptions) -/
def lowestFree : Nat → List Nat → Nat
  | k, [] => k
  | k, i :: t => if i = k then lowestFree (k + 1) t else k

/-- The slot a birth or an INJECT takes: the lowest FREE, else the oldest TENT; none when all are CONF (R355).
(DEDUCED 121 of notes/assumptions) -/
def takeSlot (t : Tab W32) : Option Nat :=
  let used := trkSlots t
  if used.length < trackSlots then some (lowestFree 0 used)
  else
    (used.filter (fun i => decide ((trkOf t i).st = 1))).foldl (fun best i =>
      match best with
      | none => some i
      | some b => if (trkOf t i).birth < (trkOf t b).birth then some i else some b) none

/-- The track step under way. -/
structure TStep where
  t : Tab W32
  births : Nat
  refused : Bool
  split : Bool
  deriving DecidableEq, Repr

/-- Places a new track in a slot, or is refused (R355). (DEDUCED 121 of notes/assumptions) -/
def TStep.place (x : TStep) (q : Trk) : TStep :=
  match takeSlot x.t with
  | none => { x with refused := true }
  | some i => { x with t := putTrk x.t i { q with id := x.births + 1 }, births := x.births + 1 }

/-- A track command at the track step (R356). (DEDUCED 121 of notes/assumptions) -/
def TStep.command (x : TStep) (num : Nat) (c : TCmd) : TStep :=
  if c.inject then
    x.place ⟨sext 32 c.e.toNat, sext 32 c.n.toNat, c.rad.toNat, 2, 0, 0, 0, false, true, false, 0, num, num, 0, 0⟩
  else { x with t := putTrk x.t c.index { trkOf x.t c.index with st := 0 } }

/-- The nearest unassociated track whose centre lies within GATE of a detection (R352). -/
def nearestTrk (t : Tab W32) (open_ : List Nat) (gate : Int) (d : Det) : Option Nat :=
  let dist := fun i => let q := trkOf t i; (q.e - d.e) * (q.e - d.e) + (q.n - d.n) * (q.n - d.n)
  open_.foldl (fun best i =>
    if gate * gate < dist i then best
    else match best with
      | none => some i
      | some b => if dist i < dist b then some i else some b) none

/-- The target policy: whether an association is a hit (R352). -/
def isHit (tpol prim support cover : Nat) : Bool :=
  if tpol = 0 then true
  else if tpol = 1 then decide (support = cover)
  else bitOf support prim || !bitOf cover prim

/-- An associated track after its detection (R352, R353). (DEDUCED 121 of notes/assumptions) -/
def Trk.matched (q : Trk) (d : Det) (hit : Bool) (num confN : Nat) : Trk :=
  let q := { q with e := divRound (q.e + d.e) 2, n := divRound (q.n + d.n) 2, rad := (divRound (q.rad + d.rad : Nat) 2).toNat
                    score := d.score, support := d.support, cover := d.cover, miss := 0, assoc := true }
  let q := if q.st = 2 then { q with last := num }
    else if hit then
      let q := { q with hits := min 255 (q.hits + 1), last := num }
      if confN ≤ q.hits then { q with st := 2 } else q
    else q
  { q with split := decide (q.st = 2) && decide (d.support ≠ d.cover) }

/-- The association of the detections, in order: the tracks, and the detections left (R352). -/
def State.associate (s : State) (num : Nat) (x : TStep) (ds : List Det) : TStep × List Det :=
  let gate : Int := 10 * s.conf Reg.FGE_TRK2_GATE
  let r := ds.foldl (fun (acc : TStep × List Nat × List Det) d =>
    match nearestTrk acc.1.t acc.2.1 gate d with
    | none => (acc.1, acc.2.1, d :: acc.2.2)
    | some i =>
      let hit := isHit (s.conf Reg.FGE_TRK_TPOL) (s.conf Reg.FGE_TRK_TPRIM) d.support d.cover
      let q := (trkOf acc.1.t i).matched d hit num (s.conf Reg.FGE_TRK_CONF_N)
      ({ acc.1 with t := putTrk acc.1.t i q, split := acc.1.split || q.split }, acc.2.1.erase i, acc.2.2))
    (x, trkSlots x.t, [])
  (r.1, r.2.2.reverse)

/-- A track that no detection took: in view it misses, and far behind the machine it is deleted (R353). -/
def State.ageTrk (s : State) (h : Shape) (ko : Kin) (l : List Used) (t : Tab W32) (i : Nat) : Tab W32 :=
  let q := trkOf t i
  let p := ko.toMachine (q.e * lenOne, q.n * lenOne)
  let seen := match h.cellOf p with
    | some k => decide (s.coverMask h ko l k ≠ 0)
    | none => false
  let q :=
    if !q.assoc && seen then
      let q := { q with miss := min 255 (q.miss + 1) }
      if (if q.st = 1 then s.conf Reg.FGE_TRK_TDEL else s.conf Reg.FGE_TRK_CDEL) ≤ q.miss then { q with st := 0 } else q
    else q
  let q := if p.1 < -((s.conf Reg.FGE_TRK2_DROP : Int) * 1000 * lenOne) then { q with st := 0 } else q
  putTrk t i q

/-- The track step of an output: commands, association, ageing, births (R352 to R356). -/
def State.trackStep (s : State) (h : Shape) (ko : Kin) (l : List Used) (num : Nat) (cmds : List TCmd) (ds : List Det) : TStep :=
  let fresh := (trkSlots s.fge.tracks).foldl (fun t i => putTrk t i { trkOf t i with assoc := false, split := false }) s.fge.tracks
  let x : TStep := ⟨fresh, s.fge.births, false, false⟩
  let x := cmds.foldl (fun x c => x.command num c) x
  let (x, left) := s.associate num x ds
  let x := { x with t := (trkSlots x.t).foldl (fun t i => s.ageTrk h ko l t i) x.t }
  (left.filter (fun d => decide (sext 8 (s.conf Reg.FGE_TRK_BIRTH_THR) ≤ d.score))).foldl (fun x d =>
    x.place ⟨d.e, d.n, d.rad, 1, d.score, 1, 0, false, false, true, 0, num, num, d.support, d.cover⟩) x

/-! ### Registration -/

/-- A candidate of a search: shifts in u and v, and yaw steps, with its sum of absolute differences. -/
abbrev Shift := Int × Int × Int × Int

/-- Integers from −n to n. -/
def pm (n : Nat) : List Int := (List.range (2 * n + 1)).map (fun k => (k : Int) - n)

/-- The best candidate: the least sum, then the smaller shift, then the smaller yaw (R349). (DEDUCED 120 of
notes/assumptions) -/
def bestShift (l : List Shift) : Shift :=
  let size := fun (x : Shift) => x.1 * x.1 + x.2.1 * x.2.1
  let lt := fun (a b : Shift) => decide (a.2.2.2 < b.2.2.2) || (decide (a.2.2.2 = b.2.2.2) &&
    (decide (size a < size b) || (decide (size a = size b) && decide (a.2.2.1.natAbs < b.2.2.1.natAbs))))
  match l with
  | [] => (0, 0, 0, 0)
  | a :: t => t.foldl (fun b x => if lt x b then x else b) a

/-- The move of a candidate: a vector of the machine frame, and an angle in 2^−48 turn. -/
def moveOf (h : Shape) (ystep : Nat) (u v y : Int) : Pt × Int :=
  ((v * 10 * h.g * lenOne, -(u * 10 * h.g * lenOne)), y * ystep * 2 ^ 32)

/-- REG_CH of the previous grid where the pose and a residual put the centre of cell `k` (R350). -/
def regPrev (h : Shape) (prev : Tab Byte) (ko kp : Kin) (ch : Nat) (mv : Pt × Int) (k : Nat) : Int :=
  let c := h.centre k
  let r := turned mv.2 c.1 c.2
  match h.cellOf (kp.toMachine (ko.toField (r.1 + mv.1.1, r.2 + mv.1.2))) with
  | some j => cellVal prev j ch
  | none => 0

/-- The sum of absolute differences of a candidate against the previous grid. (DEDUCED 120 of notes/assumptions) -/
def regCost (h : Shape) (g prev : Tab Byte) (ko kp : Kin) (ch : Nat) (mv : Pt × Int) : Int :=
  (List.range (h.gw * h.gh)).foldl (fun a k => a + ((cellVal g k ch - regPrev h prev ko kp ch mv k).natAbs : Int)) 0

/-- The vertex of a parabola through three costs, in 1/256 of a step. (DEDUCED 120 of notes/assumptions) -/
def vertex (a b c : Int) : Int :=
  let den := a - 2 * b + c
  if den ≤ 0 then 0 else clampI (-128) 128 (divRound ((a - c) * 128) den.toNat)

/-- The ego-motion record of an output after the first, with the residual along x (R350). (DEDUCED 120 of
notes/assumptions) -/
def State.egoMotion (s : State) (h : Shape) (g prev : Tab Byte) (ko kp : Kin) (t t0 : Stamp) : List W32 × Int × Bool :=
  let ch := s.conf Reg.FGE_EGO_REG_CH
  let ys := s.conf Reg.FGE_EGO2_YSTEP
  let n := s.conf Reg.FGE_EGO_SRCH
  let cost := fun (u v y : Int) => regCost h g prev ko kp ch (moveOf h ys u v y)
  let best := bestShift ((pm n).flatMap (fun u => (pm n).flatMap (fun v => (pm 2).map (fun y => (u, v, y, cost u v y)))))
  let (u, v, y, c0) := best
  let edge := decide (u.natAbs = n) || decide (v.natAbs = n)
  let fu := if u.natAbs = n then 0 else vertex (cost (u - 1) v y) c0 (cost (u + 1) v y)
  let fv := if v.natAbs = n then 0 else vertex (cost u (v - 1) y) c0 (cost u (v + 1) y)
  let resx := divRound ((256 * v + fv) * 10 * h.g) 256
  let resy := -divRound ((256 * u + fu) * 10 * h.g) 256
  let mv := moveOf h ys u v y
  let q := ((List.range (h.gw * h.gh)).filter (fun k =>
    decide (cellVal g k ch ≠ 0) && decide (regPrev h prev ko kp ch mv k ≠ 0))).length
  let d := kp.toMachine (ko.e, ko.n)
  let dx := divRound d.1 (2 ^ 32) + resx
  let dy := divRound d.2 (2 ^ 32) + resy
  let dyaw := divRound (ko.yaw - kp.yaw) 65536 + y * ys * 2 ^ 16
  let dt := sdiff t0 t
  let vel := if 0 < dt then divRound (dx * 65536 * secTicks) (10000 * dt.toNat) else 0
  let valid := decide (s.conf Reg.FGE_EGO2_QMIN ≤ min 65535 q)
  let w := fun (x : Int) => BitVec.ofNat 32 (unsig 32 x)
  let speed := decide (s.conf Reg.FGE_EGO_EGO_CHK = 1) && valid &&
    decide ((s.conf Reg.FGE_EGO_EGO_TOL : Int) * 10 * dt < (resx.natAbs : Int) * secTicks)
  ([BitVec.ofNat 32 t.toNat, BitVec.ofNat 32 (t.toNat / 2 ^ 32), w dx, w dy, w dyaw, w (satS 32 vel), w resx,
    BitVec.ofNat 32 (min 65535 q + 2 ^ 16 * (valid.toNat + 2 * edge.toNat))], resx, speed)

/-! ### Calibration -/

/-- The reading of REG_CH by one source at cell `k` through an extrinsic; 0 where it has none. (DEDUCED 120 of
notes/assumptions) -/
def State.regOf (s : State) (h : Shape) (ko : Kin) (ch : Nat) (q : Used) (ext : Pt × Int) (k : Nat) : Int :=
  let c0 := s.conf Reg.FGE_SCFG_C0 q.i
  match q.sees h ko ext k with
  | some (a, b) => if c0 ≤ ch ∧ ch < c0 + q.f.c then q.f.at a b (ch - c0) else 0
  | none => 0

/-- One step of an offset towards a target, within a bound: the offset, and whether the bound acts. -/
def stepOffset (x move step bound : Int) : Int × Bool :=
  let y := x + clampI (-step) step move
  (clampI (-bound) bound y, decide (y < -bound ∨ bound < y))

/-- The calibration of one used source at an output (R349): none where it overlaps the others too little. (DEDUCED
120 of notes/assumptions) -/
def State.calibrate (s : State) (h : Shape) (ko : Kin) (l : List Used) (q : Used) : Option Calib :=
  let ch := s.conf Reg.FGE_EGO_REG_CH
  let ys := s.conf Reg.FGE_EGO2_YSTEP
  let others := s.project h ko (l.filter (fun x => decide (x.i ≠ q.i)))
  let ext := s.extrinsic q.i
  let cells := List.range (h.gw * h.gh)
  let both := cells.filter (fun k => decide (cellVal others k ch ≠ 0) && decide (s.regOf h ko ch q ext k ≠ 0))
  if both.length < 256 then none
  else
    let cost := fun (u v y : Int) =>
      let mv := moveOf h ys u v y
      let e : Pt × Int := ((ext.1.1 + mv.1.1, ext.1.2 + mv.1.2), ext.2 + mv.2)
      cells.foldl (fun a k =>
        let o := cellVal others k ch
        if o = 0 then a else a + ((o - s.regOf h ko ch q e k).natAbs : Int)) (0 : Int)
    let (u, v, y, _) := bestShift ((pm 1).flatMap (fun u => (pm 1).flatMap (fun v => (pm 1).map (fun y => (u, v, y, cost u v y)))))
    let step : Int := 10 * s.conf Reg.FGE_CAL_CAL_STEP
    let bound : Int := 10 * s.conf Reg.FGE_CAL_CAL_XY
    let ybound : Int := 65536 * s.conf Reg.FGE_CAL_CAL_YAW
    let x0 := sext 32 (s.live Reg.FGE_SCAL_X_X q.i)
    let y0 := sext 32 (s.live Reg.FGE_SCAL_Y_Y q.i)
    let w0 := sext 32 (s.live Reg.FGE_SCAL_YAW_YAW q.i)
    let x := stepOffset x0 (v * 10 * h.g) step bound
    let yy := stepOffset y0 (-(u * 10 * h.g)) step bound
    let w := stepOffset w0 (y * ys * 65536) (ys * 65536) ybound
    some ⟨q.i, x.1, yy.1, w.1, ([x.2, yy.2, w.2].zipIdx.filter Prod.fst).map Prod.snd⟩

/-! ### Outputs -/

/-- The fusion grid engine forms outputs: the variant has it, it is enabled, and the mode has fusion output
(R44, R340, R348). -/
def State.fuses (s : State) : Bool :=
  s.variant.fge && s.rowsRun && decide (s.power.bind = .none) && decide (s.live Reg.SYS_PWRSTAT_CUR ≤ 2) &&
    decide (s.conf Reg.FGE_CFG_EN = 1)

/-- The output due at this boundary, computed from its snapshot and poses (R340 to R356). (DESIGN CHOICE 119 of
notes/assumptions) -/
def State.formOutput (s : State) : FOut × Tab Byte :=
  let t := s.row.cur - subTicks (s.conf Reg.FGE_OCFG_OLAG * 256000)
  let h := s.shape
  let ko := (s.fusionPose t).getD (s.machineAt t)
  let l := s.usedSources t
  let num := s.fge.onum + 1
  let (g, sat) := s.skn.act.runHead h (s.project h ko l)
  let (ds, ovf) := s.detections h g ko l
  let x := s.trackStep h ko l num s.fge.cmds ds
  let ego := s.fge.prevGrid.map (fun p =>
    let kp := (s.fusionPose p.1).getD (s.machineAt p.1)
    s.egoMotion h g p.2 ko kp t p.1)
  let used := l.foldl (fun m q => m + 2 ^ q.i) 0
  let all := (List.range s.variant.sources).foldl (fun m i => if s.conf Reg.FGE_SCFG_EN i = 1 then m + 2 ^ i else m) 0
  (⟨s.row.num + BitVec.ofNat 32 (s.conf Reg.FGE_CFG_VIS), t, num, false, used, all - used, ds.length,
    s.skn.act.headCycles (h.gw * h.gh), ego.map (fun e => e.1), (ego.map (fun e => e.2.2)).getD false, x.split, x.t,
    x.births, x.refused, ovf, sat, g, l.filterMap (fun q => s.calibrate h ko l q)⟩, g)

/-- An output is due at this boundary: fusion starts (R340, R341). (DESIGN CHOICE 119 of notes/assumptions) -/
def State.startOutput (s : State) : State :=
  let div := s.conf Reg.FGE_CFG_ODIV
  if s.fuses && s.flag Reg.PLE_POSE_CTL_VALID && decide (0 < div) &&
      decide (s.row.num.toNat % div = s.conf Reg.FGE_OCFG_OPH) && s.fge.out.isNone then
    let r := s.formOutput
    let s := s.markExtrap r.1.to_
    { s with fge := { s.fge with out := some r.1, onum := s.fge.onum + 1, cmds := [] } }
  else s

/-- FUSION_OUTPUT_DONE: the work of the output ends (R346). (DESIGN CHOICE 119 of notes/assumptions) -/
def execFusionOutputDone (s : State) : Res :=
  match s.fge.out with
  | some o => .next { s with fge := { s.fge with out := some { o with ended := true } } }
  | none => .next s

/-- The output under way is abandoned (R347): the row concerned is that of its visibility boundary (R40, R43). -/
def State.abandonOutput (s : State) : State :=
  let row := match s.fge.out with
    | some o => o.due
    | none => s.row.num
  let s := (s.setLive Reg.FGE_STAT_LATE 1).logEntry 0x06 57 (if row = s.row.num then s.row.cur else s.row.next) row
  ({ s with fge := { s.fge with out := none } }).raiseNow 57 0

/-- The output under way becomes visible at the next boundary and is late: it has not ended, or in a replay the record
says so (R42, R347). -/
def State.outputLate (s : State) : Bool :=
  match s.fge.out with
  | some o => decide (o.due = s.row.num + 1) && (if s.rpl.on then decide (0 < s.lateCount 57 o.due) else !o.ended)
  | none => false

/-- FUSION_DEADLINE: an output that has not ended 1 µs before its visibility boundary is abandoned (R347). -/
def execFusionDeadline (s : State) : Res :=
  if s.rowsRun && s.outputLate && !s.recordFirst s.deadline then .next (s.advanceTo s.deadline).abandonOutput
  else .next s

/-- The track counts (R354). -/
def State.countTracks (s : State) : State :=
  let l := trkSlots s.fge.tracks
  let n := fun st => (l.filter (fun i => decide ((trkOf s.fge.tracks i).st = st))).length
  (s.setLive Reg.FGE_NTRK_TENT (n 1)).setLive Reg.FGE_NTRK_CONF (n 2)

/-- Applies a calibration correction; the event tells of each entry into the clamp (R349). (DEDUCED 120 of
notes/assumptions) -/
def State.applyCalib (s : State) (c : Calib) : State :=
  let s := (s.setLive Reg.FGE_SCAL_X_X (unsig 32 c.x) c.src).setLive Reg.FGE_SCAL_Y_Y (unsig 32 c.y) c.src
  let s := s.setLive Reg.FGE_SCAL_YAW_YAW (unsig 32 c.yaw) c.src
  let q := s.source c.src
  let s := s.setSource c.src { q with clamped := c.clamped }
  let s := if c.clamped.isEmpty then s else (s.setLive Reg.FGE_SSTAT_CALLIM 1 c.src).setLive Reg.FGE_STAT_CALLIM 1
  if c.clamped.any (fun k => !q.clamped.contains k) then s.raiseNow 56 c.src else s

/-- A result becomes visible (R346): its grid stands in the other buffer, its records in the registers. (DESIGN
CHOICE 119; DEDUCED 122 of notes/assumptions) -/
def State.showOutput (s : State) (o : FOut) : State :=
  let h := s.shape
  let buf := 1 - s.live Reg.FGE_STAT_BUF
  let base := s.conf Reg.FGE_GBASE_BASE * 4096 + buf * (h.gw * h.gh * 128)
  let s := s.setDramBytes base ((List.range (h.gw * h.gh * 128)).map (fun k => Tab.get 0 o.grid k))
  let s := s.setLive Reg.FGE_STAT_BUF buf
  let s := s.setLive64 Reg.FGE_OUTT_LO_T Reg.FGE_OUTT_HI_T o.to_.toNat
  let s := ((s.setLive Reg.FGE_ONUM_N o.num).setLive Reg.FGE_OSRC_USED o.used).setLive Reg.FGE_OSRC_ABSENT o.absent
  let s := (s.setLive Reg.FGE_NDET_N o.ndet).setLive Reg.FGE_HCYC_CYC o.hcyc
  let s := match o.ego with
    | some l => l.zipIdx.foldl (fun (s : State) (x : W32 × Nat) => s.setLive Reg.FGE_EGOREC_WORD x.1.toNat x.2) s
    | none => s
  let s := { s with fge := { s.fge with
    out := none, tracks := o.tracks, births := o.births, prevGrid := some (o.to_, o.grid)
    devSpeed := o.speed, devTargets := o.split } }
  let s := s.countTracks
  let s := if o.sat then s.setLive Reg.FGE_STAT_SAT 1 else s
  let s := if o.dropped then s.setLive Reg.FGE_STAT_DET_OVF 1 else s
  let s := if o.refused then (s.setLive Reg.FGE_STAT_BIRTH_REJ 1).raiseNow 58 0 else s
  o.cal.foldl State.applyCalib s

/-- A boundary at which a result is due shows it, or abandons it (R346, R347). -/
def State.visibleOutput (s : State) : State :=
  match s.fge.out with
  | some o => if o.due = s.row.num then (if o.ended then s.showOutput o else s.abandonOutput) else s
  | none => s

/-- The engine stops: no tracks are seen from then on (R348). -/
def State.stopFusion (s : State) : State :=
  ({ s with fge := { s.fge with out := none, tracks := [], prevGrid := none, cmds := [], devSpeed := false
                                devTargets := false } }).countTracks

/-- What a commit does to the sources and to the engine (R335, R348, R349). -/
def State.commitFusion (s : State) (old : Image) : State :=
  let new := s.skn.act
  let s := if s.fuses then s else s.stopFusion
  (List.range s.variant.sources).foldl (fun s i =>
    let on := decide (new.fld Reg.FGE_SCFG_EN i = 1)
    let init := on && (decide (old.fld Reg.FGE_SCFG_EN i = 0) ||
      decide (old.fld Reg.FGE_SRATE_RATE0 i ≠ new.fld Reg.FGE_SRATE_RATE0 i))
    let moved := decide (old.fld Reg.FGE_SEXT_X_X i ≠ new.fld Reg.FGE_SEXT_X_X i) ||
      decide (old.fld Reg.FGE_SEXT_Y_Y i ≠ new.fld Reg.FGE_SEXT_Y_Y i) ||
      decide (old.fld Reg.FGE_SEXT_YAW_YAW i ≠ new.fld Reg.FGE_SEXT_YAW_YAW i)
    let s :=
      if init then
        let s := (s.setLive Reg.FGE_SSTAT_STATE 0 i).setLive Reg.FGE_SSTAT_GOOD 0 i
        s.setSource i { s.source i with rate := new.fld Reg.FGE_SRATE_RATE0 i }
      else s
    if moved then
      let s := s.setSource i { s.source i with clamped := [] }
      let s := { s with fge := { s.fge with
        out := s.fge.out.map (fun (o : FOut) => { o with cal := o.cal.filter (fun (c : Calib) => decide (c.src ≠ i)) }) } }
      ((s.setLive Reg.FGE_SCAL_X_X 0 i).setLive Reg.FGE_SCAL_Y_Y 0 i).setLive Reg.FGE_SCAL_YAW_YAW 0 i
    else s) s

/-! ### Track commands -/

/-- Posts a track command of a writer; the fifth for an output is refused, and other codes are discarded
(R356). -/
def State.postTrack (s : State) (w : Writer) (code : Nat) : State :=
  if code = 1 ∨ code = 2 then
    if 4 ≤ s.fge.cmds.length then s.setLive Reg.FGE_TCMD_CTL_REJ 1
    else
      let c : TCmd := ⟨decide (code = 2), BitVec.ofNat 32 (s.staged w Reg.FGE_TCMD_E_E),
        BitVec.ofNat 32 (s.staged w Reg.FGE_TCMD_N_N), BitVec.ofNat 16 (s.staged w Reg.FGE_TCMD_R_RAD),
        s.staged w Reg.FGE_TCMD_CTL_INDEX⟩
      { s with fge := { s.fge with cmds := s.fge.cmds ++ [c] } }
  else s

/-- A host GO of a track command: CODE reaches the port's copy before the GO acts (R396). (DEDUCED 9 of
notes/assumptions) -/
def State.hostTrack (s : State) (p : Port) (code : Nat) : State :=
  let v := 2 ^ 31 + code * 2 ^ 28 + s.staged (.host p) Reg.FGE_TCMD_CTL_INDEX
  s.hostLive p 0x0500014C v (fun s => (s.setStaged (.host p) Reg.FGE_TCMD_CTL_CODE code).postTrack (.host p) code)

/-- TRACK_DELETE (R356). -/
def execTrackDelete (p : Port) (s : State) : Res := .next (s.hostTrack p 1)

/-- TRACK_INJECT (R356). -/
def execTrackInject (p : Port) (s : State) : Res := .next (s.hostTrack p 2)

/-! ### Disputes -/

/-- Quantity `q` is asserted: by a program or by the device (R351, R352, R357). -/
def State.asserted (s : State) (q : Nat) : Bool × Bool :=
  (bitOf (s.live Reg.DSP_ASSERT_Q) q, (decide (q = 1) && s.fge.devSpeed) || (decide (q = 4) && s.fge.devTargets))

/-- Step 3: one dispute quantity (R358). -/
def State.updateDispute (s : State) (q : Nat) : State :=
  let (prog, dev) := s.asserted q
  let b := s.row.cur
  let st := s.live Reg.DSP_STAT_STATE q
  let lim := s.conf Reg.DSP_CFG_LIMIT q
  let s := (s.setLive Reg.DSP_STAT_PROG prog.toNat q).setLive Reg.DSP_STAT_DEV dev.toNat q
  let s :=
    if !(prog || dev) then s.setLive Reg.DSP_STAT_STATE 0 q
    else if st = 0 then
      let s := { s with fge := { s.fge with since := Tab.put 0 s.fge.since q b } }
      (s.setLive Reg.DSP_STAT_STATE 1 q).raiseNow 59 q
    else if st = 1 ∧ lim ≠ 0 ∧ lim * 10 * msTicks ≤ (b - Tab.get 0 s.fge.since q).toNat then
      (s.setLive Reg.DSP_STAT_STATE 2 q).raiseNow 60 q
    else s
  let age := if s.live Reg.DSP_STAT_STATE q = 0 then 0 else (b - Tab.get 0 s.fge.since q).toNat / (10 * msTicks)
  s.setLive Reg.DSP_STAT_AGE (min 65535 age) q

/-- Step 3: every dispute quantity, after the program outputs (R358). -/
def State.updateDisputes (s : State) : State := (List.range 8).foldl State.updateDispute s

/-- The stale-source event of the visible fusion result, once per entry into staleness (R433). -/
def State.noteFusionStale (s : State) : State :=
  let old := s.fusionOld s.row.cur
  let s := if old && !s.ple.fusionStale then s.raiseNow 6 0x1FFFF else s
  { s with ple := { s.ple with fusionStale := old } }

end Sys2Proof.Machine
end

