-- ==== Sys2Proof/Machine/Gauge.lean ====
section
/-! DEFINITION. The gauge store, the boot port's pass-through and the seal: the guarded actions of hosts
(R410 to R415, R420). -/

namespace Sys2Proof.Machine

/-- The staging buffer of the gauge store (R415). -/
def gaugeStage : Nat := 0x08004000

/-- The image to be programmed: the staging buffer with ORIGIN, WCNT and CRC as the device sets them
(R415). -/
def State.gaugeImage (s : State) : Tab Byte :=
  let raw := s.winBytes gaugeStage 8188
  let wcnt := bytesLE 4 (s.live Reg.GSB_WCNT_N + 1)
  let body := raw.take 6 ++ [0x02#8] ++ (raw.drop 7).take 1 ++ wcnt ++ raw.drop 12
  let all := body ++ bytesLE 4 (crc32 body)
  (all.zipIdx.map (fun x => (x.2, x.1))).filter (fun p => p.2 != 0)

/-- The first failed check of a gauge-store write, as its RESULT code; none if all pass (R415). -/
def State.gaugeRefusal (s : State) (p : Port) : Option Nat :=
  if s.live Reg.SEM_CTL_OWNER 1 ≠ ownerCode (.host p) then some 2
  else if s.grantOpen = false then some 3
  else if s.flag Reg.SYS_AON_SEAL_SEAL_BROKEN = false then some 4
  else if 1000 ≤ s.live Reg.GSB_WCNT_N then some 5
  else if s.winWord gaugeStage ≠ 0x53475654 ∨ s.winWord (gaugeStage + 4) % 2 ^ 16 ≠ 1 then some 6
  else none

/-- A write of GSB_CTL.PROG (R415); it is ignored while a programming runs. (DEDUCED 71 of notes/assumptions) -/
def State.gaugeStart (s : State) (p : Port) : State :=
  if s.flag Reg.GSB_STAT_BUSY then s
  else
    match s.gaugeRefusal p with
    | some r => s.setLive Reg.GSB_STAT_RESULT r
    | none =>
      let s := { s with boot := { s.boot with prog := some s.gaugeImage } }
      s.consumeGrant.setLive Reg.GSB_STAT_BUSY 1

/-- GAUGE_PROGRAM (R415). -/
def execGaugeProgram (p : Port) (s : State) : Res := .next (s.hostLive p 0x08000000 1 (fun s => s.gaugeStart p))

/-- GAUGE_PROGRAM_DONE: the write of the store ends, within 250 ms; after a failed one what the store holds is
not stated (R415). (DESIGN CHOICE 21 of notes/assumptions) -/
def execGaugeProgramDone (ok : Bool) (s : State) : Res :=
  match s.boot.prog with
  | none => .next s
  | some g =>
    let d := s.draws
    let store := if ok then g else tabOf 8192 (fun i => Config.brokenGauge d i)
    let s := { s.drawn with boot := { s.boot with gauge := store, prog := none } }
    let s := s.bump Reg.GSB_WCNT_N
    .next ((s.setLive Reg.GSB_STAT_BUSY 0).setLive Reg.GSB_STAT_RESULT (if ok then 1 else 7))

/-! ### Boot pass-through -/

/-- A write of GSB_CTL.SESS_OPEN opens a session by consuming a grant (R412, R420). (DEDUCED 71 of
notes/assumptions) -/
def State.openSession (s : State) : State :=
  if !s.flag Reg.SYS_PWRSTAT_CAST_DONE then s
  else if s.conf Reg.GSB_BOOTCFG_WT = 0 then s.setLive Reg.GSB_STAT_RESULT 8
  else if !s.grantOpen then s.setLive Reg.GSB_STAT_RESULT 3
  else s.consumeGrant.setLive Reg.GSB_STAT_SESS 1

/-- A session closes (R420). -/
def State.closeSession (s : State) : State := s.setLive Reg.GSB_STAT_SESS 0

/-- SESSION_OPEN (R420). -/
def execSessionOpen (p : Port) (s : State) : Res := .next (s.hostLive p 0x08000000 0x100 (fun s => s.openSession))

/-- SESSION_CLOSE (R420). -/
def execSessionClose (p : Port) (s : State) : Res := .next (s.hostLive p 0x08000000 0x200 (fun s => s.closeSession))

/-- SESSION_TIMEOUT: 600 s after it opened, a session closes (R420). -/
def execSessionTimeout (s : State) : Res := .next s.closeSession

/-- A write of GSB_CTL: PROG, SESS_OPEN and SESS_CLOSE, in the order of their bits. -/
def State.gsbCtl (s : State) (p : Port) (v : Nat) : State :=
  let s := if bitOf v 0 then s.gaugeStart p else s
  let s := if bitOf v 8 then s.openSession else s
  if bitOf v 9 then s.closeSession else s

/-- A write of GSB_BCMD.GO: without WT and an open session the command is refused (R420); while a command is
under way it is ignored. (DEDUCED 71 of notes/assumptions) -/
def State.bootGo (s : State) : State :=
  if s.flag Reg.GSB_BSTAT_BUSY || !s.flag Reg.SYS_PWRSTAT_CAST_DONE then s
  else if s.conf Reg.GSB_BOOTCFG_WT = 0 ∨ s.flag Reg.GSB_STAT_SESS = false then s.setLive Reg.GSB_BSTAT_REJ 1
  else s.setLive Reg.GSB_BSTAT_BUSY 1

/-- The word of GSB_BCMD with GO. -/
def State.bootWord (s : State) : Nat :=
  2 ^ 31 + s.live Reg.GSB_BCMD_DIR * 2 ^ 24 + s.live Reg.GSB_BCMD_NDATA * 2 ^ 12 + s.live Reg.GSB_BCMD_ADDRLEN * 2 ^ 8 +
    s.live Reg.GSB_BCMD_OP

/-- BOOT_COMMAND (R420). -/
def execBootCommand (p : Port) (s : State) : Res := .next (s.hostLive p 0x08000020 s.bootWord (fun s => s.bootGo))

/-- BOOT_COMMAND_DONE: the flash transaction ends; the bytes of a read stand in GSB_BDATA (R420). -/
def execBootCommandDone (data : List Byte) (s : State) : Res :=
  if s.flag Reg.GSB_BSTAT_BUSY then
    let n := min 256 (s.live Reg.GSB_BCMD_NDATA)
    let s := s.setLive Reg.GSB_BSTAT_BUSY 0
    .next (if s.live Reg.GSB_BCMD_DIR = 0 then s.setWin 0x08000100 ((padTo n data).take n) else s)
  else .next s

/-! ### The seal -/

/-- A write of SYS_AON_SEAL.CLR (R412). -/
def State.clearSeal (s : State) : State :=
  if s.grantOpen && s.flag Reg.SYS_AON_SEAL_SEAL_BROKEN && !s.flag Reg.SYS_AON_SEAL_OPEN then
    s.consumeGrant.setLive Reg.SYS_AON_SEAL_SEAL_BROKEN 0
  else s.setLive Reg.SYS_AON_SEAL_CLR_REJ 1

/-- SEAL_CLEAR (R412). -/
def execSealClear (p : Port) (s : State) : Res := .next (s.hostLive p 0x118 (2 ^ 31) (fun s => s.clearSeal))

/-- SEAL_CHECK: one pulse of the seal loop (R410). -/
def execSealCheck (pass : Bool) (s : State) : Res :=
  if !s.aon.xtal then .next s
  else if pass then
    let n := min 2 (s.aon.sealPass + 1)
    let s := { s with aon := { s.aon with sealPass := n, sealFail := 0 } }
    .next (if n = 2 then s.setLive Reg.SYS_AON_SEAL_OPEN 0 else s)
  else
    let n := min 2 (s.aon.sealFail + 1)
    let s := { s with aon := { s.aon with sealPass := 0, sealFail := n } }
    .next (if n = 2 then (s.setLive Reg.SYS_AON_SEAL_OPEN 1).setLive Reg.SYS_AON_SEAL_SEAL_BROKEN 1 else s)

end Sys2Proof.Machine
end

