-- ==== Sys2Proof/Machine/GnbNav.lean ====
section
/-! DEFINITION. The navigation units of the tracked signals: their kinds and lengths, and the checks of their bits
(R312, R319). -/

namespace Sys2Proof.Machine

/-- How a navigation unit is checked (R312). -/
inductive NavCheck where
  /-- The parity of a 30-bit word. -/
  | parity
  /-- BCH(15,11) on each protected half of a 30-bit word. -/
  | halves
  /-- CRC-24Q over the pieces of the unit from a bit on, of a length each. -/
  | crc (pieces : List (Nat × Nat))
  /-- The Hamming check of an 85-bit string. -/
  | hamming
  /-- The code that carries the bits: its decoder reports the result. -/
  | decoder
  deriving DecidableEq, Repr

/-- A navigation unit of a signal: KIND, NBITS, its check, and whether forward error correction precedes it (R312,
R319). -/
structure NavForm where
  kind : Nat
  nbits : Nat
  check : NavCheck
  fec : Bool
  deriving DecidableEq, Repr

/-- The navigation units of a signal code; a pilot has none. The lengths that R312 does not give, and the bits that a
CRC covers, are those of the signals' own standards (R312). (PRESUMED 116 of notes/assumptions) -/
def navForms (sig : Nat) : List NavForm :=
  match sig with
  | 0x01 | 0x15 => [⟨1, 30, .parity, false⟩]
  | 0x02 | 0x16 => [⟨2, 9, .decoder, true⟩, ⟨3, 600, .crc [(0, 600)], true⟩, ⟨4, 274, .crc [(0, 274)], true⟩]
  | 0x04 | 0x06 | 0x18 | 0x1A => [⟨5, 300, .crc [(0, 300)], true⟩]
  | 0x08 | 0x0C => [⟨6, 240, .crc [(0, 114), (120, 106)], true⟩]
  | 0x0A => [⟨6, 244, .crc [(0, 238)], true⟩]
  | 0x0E => [⟨1, 30, .halves, false⟩]
  | 0x0F => [⟨2, 14, .decoder, true⟩, ⟨3, 600, .crc [(0, 600)], true⟩, ⟨4, 264, .crc [(0, 264)], true⟩]
  | 0x11 => [⟨5, 288, .crc [(0, 288)], true⟩]
  | 0x13 | 0x14 => [⟨7, 85, .hamming, false⟩]
  | 0x1C => [⟨5, 250, .crc [(0, 250)], true⟩]
  | _ => []

/-- The first `n` bits of bytes, most significant bit of each byte first (R319). -/
def bitsIn (n : Nat) (l : List Byte) : List Bool :=
  (l.flatMap (fun b => (List.range 8).map (fun i => b.getMsbD i))).take n

/-- A number from bits, the first one the most significant. -/
def bitsNat (l : List Bool) : Nat := l.foldl (fun r b => 2 * r + b.toNat) 0

/-- Bits packed into bytes, most significant bit first, the last byte filled with 0 (R319). -/
def packBits : Nat → List Bool → List Byte
  | 0, _ => []
  | n + 1, l => BitVec.ofNat 8 (bitsNat (l.take 8 ++ List.replicate (8 - l.length) false)) :: packBits n (l.drop 8)

/-- The remainder of bits, as a polynomial over GF(2), by a generator of degree `d` with the low terms `g`. -/
def polyRem (d g : Nat) (l : List Bool) : Nat :=
  l.foldl (fun r b =>
    let r := 2 * r + b.toNat
    if 2 ^ d ≤ r then Nat.xor (r - 2 ^ d) g else r) 0

/-- The parity of the bits of a number that a mask takes. -/
def maskParity (mask n : Nat) : Bool :=
  ((List.range 96).filter (fun i => (Nat.land mask n).testBit i)).length % 2 == 1

/-- The six parity bits of an LNAV word over D29* and D30* of the word before, in the two top bits of 32, and its 24
source bits, in the next. (PRESUMED 116 of notes/assumptions) -/
def lnavMasks : List Nat := [0xBB1F3480, 0x5D8F9A40, 0xAEC7CD00, 0x5763E680, 0x6BB1F340, 0x8B7A89C0]

/-- The parity of an LNAV word after D30* inversion is removed (R312, R319). (PRESUMED 116 of notes/assumptions) -/
def lnavOk (star : Nat) (l : List Bool) : Bool :=
  let n := star * 2 ^ 30 + bitsNat (l.take 24) * 2 ^ 6
  lnavMasks.map (fun m => maskParity m n) == (l.drop 24).take 6

/-- The checks C1 to C7 and the overall check of a GLONASS string, over its 85 bits and three zeros. (PRESUMED 116
of notes/assumptions) -/
def hammingMasks : List Nat :=
  [0x55555AAAAAAAB5556AD808, 0x66666CCCCCCCD999B36810, 0x87878F0F0F0F1E1E3C7020, 0x07F80FF00FF01FE03F8040,
    0xF8000FFFF0001FFFC00080, 0x00000FFFFFFFE000000100, 0xFFFFF00000000000000200, 0xFFFFFFFFFFFFFFFFFFFFF8]

/-- The Hamming check of a string: no check fails, or one check bit alone is wrong (R312). (PRESUMED 116 of
notes/assumptions) -/
def hammingOk (l : List Bool) : Bool :=
  let c := hammingMasks.map (fun m => maskParity m (bitsNat l * 8))
  let n := ((c.take 7).filter id).length
  decide (n = 0 ∧ c.getLast? = some false) || decide (n = 1 ∧ c.getLast? = some true)

/-- The two BCH(15,11) codewords of a D1 or D2 word are interleaved bit by bit; of the first word of a subframe, which
starts with the preamble, only the second half is protected (R312). (PRESUMED 116 of notes/assumptions) -/
def halvesOk (l : List Bool) : Bool :=
  let ok := fun (w : List Bool) => decide (polyRem 4 3 w = 0)
  if bitsNat (l.take 11) = 0x712 then ok (l.drop 15)
  else
    let part := fun (k : Nat) => (l.zipIdx.filter (fun x => decide (x.2 % 2 = k))).map Prod.fst
    ok (part 0) && ok (part 1)

/-- The check of a unit passes (R312). `decoded` is the decoder's report. -/
def NavCheck.passes (c : NavCheck) (star : Nat) (decoded : Bool) (l : List Bool) : Bool :=
  match c with
  | .parity => lnavOk star l
  | .halves => halvesOk l
  | .crc pieces => decide (polyRem 24 0x864CFB (pieces.flatMap (fun p => (l.drop p.1).take p.2)) = 0)
  | .hamming => hammingOk l
  | .decoder => decoded

/-- The bits of a unit as the record holds them: the source bits of an LNAV word are freed from D30* inversion
(R319). -/
def NavCheck.corrected (c : NavCheck) (star : Nat) (l : List Bool) : List Bool :=
  if c = .parity ∧ star % 2 = 1 then (l.take 24).map (fun b => !b) ++ l.drop 24 else l

/-- A completed unit with its result and its corrected bits, `star` being the last two bits of the word before: D29*
and D30*. A unit that forward error correction could not decode keeps its bits and result 0x3. None for a unit that
the signal does not have (R312, R319). (PRESUMED 116 of notes/assumptions) -/
def checkedUnit (u : NavUnit) (sig star : Nat) : Option NavUnit :=
  ((navForms sig).find? (fun f => decide (f.kind = u.kind.toNat) && decide (f.nbits = u.nbits.toNat))).map (fun f =>
    let l := bitsIn f.nbits (padTo ((f.nbits + 7) / 8) u.data)
    let l := f.check.corrected star l
    let r := if f.fec && decide (u.result = 3) then 3
      else if f.check.passes star (decide (u.result = 1)) l then 1 else 2
    { u with sig := BitVec.ofNat 8 sig, result := r, data := packBits ((f.nbits + 7) / 8) l })

end Sys2Proof.Machine
end

