-- ==== Sys2Proof/Machine/Gnb.lean ====
section
/-! DEFINITION. The GNSS baseband: tracking channels, measurement epochs and their consistency checks, the
discipline of device time, and the PPS outputs (R310 to R331). -/

namespace Sys2Proof.Machine

/-- Tracking channel `k`. -/
def State.track (s : State) (k : Nat) : Track := Tab.get Track.fresh s.gnb.chans k

/-- Replaces tracking channel `k`. -/
def State.setTrack (s : State) (k : Nat) (x : Track) : State :=
  { s with gnb := { s.gnb with chans := Tab.put Track.fresh s.gnb.chans k x } }

/-- A signal component: carrier and GLONASS step in Hz, chips per second, chips in a code period, and
whether it is a pilot (R312). Chip rates and code lengths are those of the signals' own standards. (PRESUMED 116 of
notes/assumptions) -/
structure Signal where
  carrier : Nat
  slot : Nat
  rate : Nat
  chips : Nat
  pilot : Bool
  deriving DecidableEq, Repr

/-- The signal of a code (R312). (PRESUMED 116 of notes/assumptions) -/
def signalOf (sig : Nat) : Option Signal :=
  match sig with
  | 0x01 | 0x15 | 0x1C => some ⟨1575420000, 0, 1023000, 1023, false⟩
  | 0x02 | 0x0F | 0x16 => some ⟨1575420000, 0, 1023000, 10230, false⟩
  | 0x03 | 0x10 | 0x17 => some ⟨1575420000, 0, 1023000, 10230, true⟩
  | 0x04 | 0x18 => some ⟨1227600000, 0, 511500, 10230, false⟩
  | 0x05 | 0x19 => some ⟨1227600000, 0, 511500, 767250, true⟩
  | 0x06 | 0x0A | 0x11 | 0x1A => some ⟨1176450000, 0, 10230000, 10230, false⟩
  | 0x07 | 0x0B | 0x12 | 0x1B => some ⟨1176450000, 0, 10230000, 10230, true⟩
  | 0x08 => some ⟨1575420000, 0, 1023000, 4092, false⟩
  | 0x09 => some ⟨1575420000, 0, 1023000, 4092, true⟩
  | 0x0C => some ⟨1207140000, 0, 10230000, 10230, false⟩
  | 0x0D => some ⟨1207140000, 0, 10230000, 10230, true⟩
  | 0x0E => some ⟨1561098000, 0, 2046000, 2046, false⟩
  | 0x13 => some ⟨1602000000, 562500, 511000, 511, false⟩
  | 0x14 => some ⟨1246000000, 437500, 511000, 511, false⟩
  | _ => none

/-- The fields of a channel configuration word (R313). -/
structure TcCfg where
  en : Bool
  mode : Nat
  port : Nat
  lane : Nat
  sig : Nat
  sv : Nat
  slot : Nat
  deriving DecidableEq, Repr

/-- The configuration that a word of GNB_TCCFG spells. -/
def tcCfg (w : W32) : TcCfg :=
  let n := w.toNat
  ⟨bitOf n 31, bitsOf n 28 2, bitsOf n 24 2, bitsOf n 26 1, bitsOf n 16 8, bitsOf n 8 8, bitsOf n 0 4⟩

/-- The carrier of a channel in Hz, its GLONASS offset included (R312). (PRESUMED 116 of notes/assumptions) -/
def TcCfg.carrier (c : TcCfg) : Int :=
  match signalOf c.sig with
  | some g => (g.carrier : Int) + ((c.slot : Int) - 7) * g.slot
  | none => 0

/-- The GNB runs: present, enabled, in a mode with rows (R310). -/
def State.gnbRuns (s : State) : Bool := s.variant.gnb && s.rowsRun && decide (s.conf Reg.GNB_CFG_EN = 1)

/-- A configuration is refused (R311, R313, R318). -/
def State.tcRefused (s : State) (c : TcCfg) : Bool :=
  match signalOf c.sig with
  | none => true
  | some g =>
    let laneOn := if c.lane = 1 then s.conf Reg.GNB_PCFG_L1EN c.port else s.conf Reg.GNB_PCFG_L0EN c.port
    let lo : Int := if c.lane = 1 then s.conf Reg.GNB_LO1_LO c.port else s.conf Reg.GNB_LO0_LO c.port
    let fs := match s.conf Reg.GNB_PCFG_FS c.port with | 0 => 16368000 | 1 => 20460000 | 2 => 40920000 | _ => 81840000
    decide (s.variant.ports ≤ c.port) || decide (s.conf Reg.GNB_PCFG_EN c.port = 0) || decide (laneOn = 0) ||
      decide (2 * fs < 5 * (c.carrier - lo).natAbs) || (g.pilot && (c.mode == 1 || c.mode == 2)) || c.mode == 3

/-- A channel is stopped by TRANSIT (R314). -/
def State.tcStopped (s : State) (k : Nat) : Bool := decide (64 ≤ k) && decide (s.live Reg.SYS_PWRSTAT_CUR = 4)

/-- The state of channel `k` after its configuration is applied (R313). -/
def State.tcStart (s : State) (k : Nat) (restart : Bool) : State :=
  let c := tcCfg (s.track k).cfg
  if !c.en || s.tcStopped k then s.setLive Reg.GNB_TCSTAT_STATE 0 k
  else if s.tcRefused c then (s.setLive Reg.GNB_TCSTAT_STATE 0 k).setLive Reg.GNB_TCSTAT_REJ 1 k
  else if restart then (s.setLive Reg.GNB_TCSTAT_STATE 1 k).setTrack k { s.track k with hist := [], star := 0 }
  else s

/-- Applies the writes of channel `k` that have landed before the cycle of instant `t`; answers the
prediction in use at it (R313, R322). -/
def State.tcApply (s : State) (k : Nat) (t : Stamp) : State × W32 :=
  let x := s.track k
  let due := fun (w : Nat × W32 × Stamp) => decide (cycle w.2.2 < cycle t)
  let now := x.writes.filter due
  if now.isEmpty then (s, 0x80000000)
  else
    let last := fun (o : Nat) (d : W32) => (now.filter (fun w => w.1 == o)).foldl (fun _ w => w.2.1) d
    let old := tcCfg x.cfg
    let cfg := last 0 x.cfg
    let s := s.setTrack k { x with cfg := cfg, aid := last 4 x.aid, writes := x.writes.filter (fun w => !due w) }
    let touched := now.any (fun w => w.1 == 0 || w.1 == 4)
    let new := tcCfg cfg
    let restart := { new with mode := 0 } != { old with mode := 0 } || s.live Reg.GNB_TCSTAT_STATE k == 0
    (if touched then s.tcStart k restart else s, last 8 0x80000000)

/-- A write of a channel register at offset `o` that lands at `land` (R313). -/
def State.tcWrite (s : State) (k o : Nat) (v : W32) (land : Stamp) : State :=
  let s :=
    if o = 0 then
      let c := tcCfg v
      let s := ((s.setLive Reg.GNB_TCCFG_EN c.en.toNat k).setLive Reg.GNB_TCCFG_MODE c.mode k).setLive
        Reg.GNB_TCCFG_ANT (c.port + 4 * c.lane) k
      ((s.setLive Reg.GNB_TCCFG_SIG c.sig k).setLive Reg.GNB_TCCFG_SV c.sv k).setLive Reg.GNB_TCCFG_GSLOT c.slot k
    else if o = 4 then
      (s.setLive Reg.GNB_TCAID_DOPP_AID (v.toNat / 2 ^ 16) k).setLive Reg.GNB_TCAID_WIN (v.toNat % 2 ^ 16) k
    else s.setLive Reg.GNB_TCPRED_PRED v.toNat k
  s.setTrack k { s.track k with writes := (s.track k).writes ++ [(o, v, land)] }

/-- TCCFG_WRITE: a host write of GNB_TCCFG (R313). -/
def execTccfgWrite (p : Port) (k : Nat) (v : W32) (s : State) : Res :=
  if k < 256 then .next (s.hostLive p (0x04001000 + 0x10 * k) v.toNat (fun s => s.tcWrite k 0 v s.now)) else .next s

/-- The code of a channel state in GNB_TCSTAT. -/
def tcCode : TcState → Nat
  | .idle => 0
  | .acq => 1
  | .pullIn => 2
  | .track => 3
  | .reacq => 4

/-- The acquisition of channel `k` searches a Doppler in Hz: DOPP_AID ± WIN, a WIN of 0 being 6 kHz (R313). -/
def State.searches (s : State) (k : Nat) (dopp : Int) : Bool :=
  let w := (s.track k).aid.toNat
  let win := if w % 2 ^ 16 = 0 then 6000 else w % 2 ^ 16
  decide ((dopp - sext 16 (w / 2 ^ 16)).natAbs ≤ win)

/-- CHANNEL_LOCK_CHANGE: an enabled channel that is not refused acquires its signal, which stands at a Doppler, or loses and re-acquires it (R313). An acquisition finds only what it searches. -/
def execChannelLockChange (k : Nat) (c : LockChange) (s : State) : Res :=
  let cur := s.live Reg.GNB_TCSTAT_STATE k
  if s.gnbRuns && !s.rpl.on && decide (k < s.variant.tracks) && decide (cur ≠ 0) && c.state != .idle &&
      (decide (cur ≠ 1) || c.state == .acq || s.searches k c.dopp) then
    .next (s.setLive Reg.GNB_TCSTAT_STATE (tcCode c.state) k)
  else .next s

/-- NAV_UNIT_COMPLETE: a unit of a tracking channel in NAV or BOTH mode is checked and joins the next epoch (R312,
R319). -/
def execNavUnitComplete (u : NavUnit) (s : State) : Res :=
  let x := s.track u.tc
  let c := tcCfg x.cfg
  if s.gnbRuns && !s.rpl.on && decide (u.tc < s.variant.tracks) && decide (s.live Reg.GNB_TCSTAT_STATE u.tc = 3) &&
      (c.mode == 1 || c.mode == 2) then
    match checkedUnit u c.sig x.star with
    | some v =>
      let s := s.setTrack u.tc { x with star := bitsNat ((bitsIn v.nbits.toNat v.data).drop (v.nbits.toNat - 2)) }
      .next { s with gnb := { s.gnb with units := s.gnb.units ++ [v] } }
    | none => .next s
  else .next s

/-! ### Consistency checks -/

/-- A measured channel at an instant: its measurement, configuration, prediction and check flags. -/
structure Meas where
  m : ChanMeas
  c : TcCfg
  pred : W32
  chk : Nat
  deriving DecidableEq, Repr

/-- A bit of the TRK byte (R318). -/
def Meas.trk (x : Meas) (i : Nat) : Bool := bitOf x.m.trk.toNat i

/-- Sets check flag `i` (from 1) of a channel. -/
def Meas.mark (x : Meas) (i : Nat) (b : Bool) : Meas := if b then { x with chk := withBit x.chk (i - 1) true } else x

/-- Check 1: the changes of code range and carrier range since the oldest instant of the last second differ
by more than CC_MAX (R320). (DEDUCED 117 of notes/assumptions) -/
def State.check1 (s : State) (t : Stamp) (x : Meas) : Bool :=
  match signalOf x.c.sig,
    ((s.track x.m.tc).hist.filter (fun h => sAtOrBefore (t - 25600000000) h.1)).getLast? with
  | some g, some (t0, m0) =>
    if s.conf Reg.GNB_CHK1_EN = 1 ∧ x.trk 1 = true then
      let dt := sdiff t0 t
      let rate : Int := g.rate
      let f := x.c.carrier
      let chips := (sext 32 ((x.m.codeCnt - m0.codeCnt).toNat) * g.chips) * 65536 + (x.m.codePh.toNat : Int) - m0.codePh.toNat
      let carr := (x.m.carrPh - m0.carrPh).toInt
      let num := 299792458 * ((dt * 65536 * rate - chips * 25600000000) * f - carr * 25600000000 * rate)
      let den := 25600000000 * 65536 * rate * f
      decide ((s.conf Reg.GNB_CHK1_CC_MAX : Int) * den < 100 * num.natAbs)
    else false
  | _, _ => false

/-- C/N0 of the channels of antenna `a` with code lock (R320). -/
def cn0Of (xs : List Meas) (a : Nat) : List Nat := (xs.filter (fun x => x.c.port == a && x.trk 0)).map (fun x => x.m.cn0.toNat)

/-- `n² × variance` of a list of `n` values. -/
def spread2 (l : List Nat) : Nat := l.length * (l.foldl (fun a x => a + x * x) 0) - (l.foldl (· + ·) 0) ^ 2

/-- Check 2 flags an antenna (R320). (DEDUCED 117 of notes/assumptions) -/
def State.check2 (s : State) (xs : List Meas) (a : Nat) : Bool :=
  let l := cn0Of xs a
  let n := l.length
  decide (s.conf Reg.GNB_CHK2_EN = 1) && decide (s.conf Reg.GNB_CHK2_NMIN ≤ n) && decide (0 < n) &&
    decide (spread2 l < (s.conf Reg.GNB_CHK2_SDMIN * 10 * n) ^ 2) &&
    decide (s.conf Reg.GNB_CHK2_MEANMIN * 100 * n < l.foldl (· + ·) 0)

/-- The C/N0 spread of antenna `a` (R317). (DEDUCED 117 of notes/assumptions) -/
def State.cnSpread (s : State) (xs : List Meas) (a : Nat) : Nat :=
  let l := cn0Of xs a
  if s.conf Reg.GNB_CHK2_EN = 1 ∧ s.conf Reg.GNB_CHK2_NMIN ≤ l.length ∧ l.length ≠ 0 then
    min 0xFFFE ((isqrt (4 * spread2 l) + l.length) / (2 * l.length))
  else 0xFFFF

/-- The Doppler residual of a channel, in 2^−8 Hz. -/
def Meas.residual (x : Meas) : Int := x.m.dopp.toInt - x.pred.toInt

/-- The common term of the residuals as a fraction, numerator over denominator in 2^−8: the median over the
channels that checks 1 and 2 leave unflagged (R320, R321). (DEDUCED 117 of notes/assumptions) -/
def State.drift (s : State) (xs : List Meas) : Option (Int × Int) :=
  let ps := xs.filter (fun x => x.trk 6)
  if s.conf Reg.GNB_CHK3_EN = 1 ∧ 4 ≤ ps.length then
    let l := sortBy (fun (a b : Int × Int) => decide (a.1 * b.2 ≤ b.1 * a.2))
      ((ps.filter (fun x => x.chk % 4 == 0)).map (fun x => (x.residual, x.c.carrier)))
    let n := l.length
    match l[(n - 1) / 2]?, l[n / 2]? with
    | some a, some b => some (a.1 * b.2 + b.1 * a.2, 2 * a.2 * b.2)
    | _, _ => none
  else none

/-- The antenna pairs in the order of R317. -/
def antPairs : List (Nat × Nat) := [(0, 1), (0, 2), (0, 3), (1, 2), (1, 3), (2, 3)]

/-- Two channels track the same satellite: by its frequency number on GLONASS, by its SV elsewhere (R318, R320). -/
def TcCfg.sameSat (c d : TcCfg) : Bool :=
  c.sig == d.sig && (if c.sig = 0x13 ∨ c.sig = 0x14 then c.slot == d.slot else c.sv == d.sv)

/-- The sums of the cosines and sines of the inter-antenna differences of a pair, and their number (R320). -/
def pairSums (xs : List Meas) (a b : Nat) : Int × Int × Nat :=
  (xs.filter (fun x => x.c.port == a && x.trk 1)).foldl (fun acc x =>
    match xs.find? (fun y => y.c.port == b && y.trk 1 && y.c.sameSat x.c) with
    | none => acc
    | some y =>
      let sc := sinCos 0 ((x.m.carrPh - y.m.carrPh).toInt % 65536 * 65536)
      (acc.1 + sc.2, acc.2.1 + sc.1, acc.2.2 + 1)) (0, 0, 0)

/-- Check 4 of pair `i`: the coherence byte and whether the pair is flagged (R317, R320). (DEDUCED 117 of
notes/assumptions) -/
def State.check4 (s : State) (xs : List Meas) (i : Nat) : Nat × Bool :=
  match antPairs[i]? with
  | none => (0xFF, false)
  | some (a, b) =>
    let (c, q, n) := pairSums xs a b
    if s.conf Reg.GNB_CHK4_EN = 0 ∨ s.conf Reg.GNB_BL_BL i < 400 ∨ n < s.conf Reg.GNB_CHK4_NMIN ∨ n = 0 then (0xFF, false)
    else
      let r2 := (c * c + q * q).toNat * 65025
      let one := n * 2 ^ 48
      let coh := (isqrt (4 * r2) + one) / (2 * one)
      (min 255 coh, decide ((s.conf Reg.GNB_CHK4_COHMAX * one) ^ 2 ≤ r2))

/-- The checks of an epoch over its measured channels (R320, R321). -/
def State.checks (s : State) (t : Stamp) (xs : List Meas) : List Meas :=
  let xs := xs.map (fun x => x.mark 1 (s.check1 t x))
  let bad := (List.range 4).filter (fun a => s.check2 xs a)
  let xs := xs.map (fun x => x.mark 2 (x.trk 0 && decide (s.conf Reg.GNB_CHK2_EN = 1) &&
    (bad.contains x.c.port || decide (s.conf Reg.GNB_CHK2_CNMAX * 100 < x.m.cn0.toNat))))
  let xs := match s.drift xs with
    | none => xs
    | some (n, d) =>
      xs.map (fun x => x.mark 3 (x.trk 6 &&
        decide ((s.conf Reg.GNB_CHK3_DRMAX : Int) * 16 * d < (x.residual * d - n * x.c.carrier).natAbs)))
  let pairs := ((List.range 6).filter (fun i => (s.check4 xs i).2)).filterMap (fun i => antPairs[i]?)
  xs.map (fun x => x.mark 4 (pairs.any (fun p => p.1 == x.c.port || p.2 == x.c.port)))

/-! ### The measurement epoch -/

/-- A measurement block (R318). -/
def Meas.block (x : Meas) : List Byte :=
  let glo := decide (x.c.sig = 0x13) || decide (x.c.sig = 0x14)
  bytesLE 1 x.m.tc ++ bytesLE 1 x.c.sig ++ bytesLE 1 (if glo then 0 else x.c.sv) ++
  bytesLE 1 (x.c.port + 4 * x.c.lane + (if glo then 16 * x.c.slot else 0)) ++ bytesLE 4 x.m.codePh.toNat ++
  bytesLE 4 x.m.codeCnt.toNat ++ bytesLE 8 x.m.carrPh.toNat ++ bytesLE 4 x.m.dopp.toNat ++
  bytesLE 2 x.m.cn0.toNat ++ bytesLE 2 x.m.lock.toNat ++ [x.m.trk] ++ bytesLE 1 x.chk ++ [0, 0]

/-- A navigation block (R319). -/
def navBlock (u : NavUnit) : List Byte :=
  let n := (u.nbits.toNat + 7) / 8
  let d := (padTo n u.data).take n
  bytesLE 8 u.stamp.toNat ++ bytesLE 1 u.tc ++ [u.sig] ++ bytesLE 2 u.nbits.toNat ++ [u.result, u.kind, 0, 0] ++
    padTo ((n + 15) / 16 * 16) d

/-- Adds navigation blocks while they fit the window; answers the bytes, their number, and whether one was
dropped (R319). -/
def navFit : Nat → List NavUnit → List Byte × Nat × Bool
  | _, [] => ([], 0, false)
  | room, u :: t =>
    let b := navBlock u
    if b.length ≤ room then
      let r := navFit (room - b.length) t
      (b ++ r.1, r.2.1 + 1, r.2.2)
    else
      let r := navFit room t
      (r.1, r.2.1, true)

/-- The epoch record of instant `t` (R317 to R319), with the union of the check flags. (DEDUCED 118 of
notes/assumptions) -/
def State.epochRecord (s : State) (t : Stamp) (xs : List Meas) : List Byte × Nat × Bool :=
  let sum := xs.foldl (fun a x => a ||| x.chk) 0 + (if s.gnb.jumped then 16 else 0)
  let units := sortBy (fun (a b : NavUnit) =>
    sBefore a.stamp b.stamp || (decide (a.stamp = b.stamp) && decide (a.tc ≤ b.tc))) s.gnb.units
  let (nav, nn, trunc) := navFit (0x8000 - 64 - 32 * xs.length) units
  let body := (xs.map Meas.block).flatten ++ nav
  let phase := s.live Reg.GNB_DSTAT_PHASE
  let driftC := match s.drift xs with
    | some (n, d) => unsig 32 (satS 32 (divRound (n * 100000000000) (256 * d).toNat))
    | none => 0x80000000
  let free := s.live Reg.SYS_DISC_STAT_STATE = 0
  let head :=
    bytesLE 8 t.toNat ++ bytesLE 4 s.gnb.count.toNat ++ bytesLE 2 xs.length ++ bytesLE 2 nn ++
    bytesLE 4 (64 + body.length) ++ bytesLE 1 (phase + 8 * trunc.toNat) ++ bytesLE 1 sum ++ [0, 0] ++
    ((List.range 4).map (fun a => bytesLE 2 (s.cnSpread xs a))).flatten ++ bytesLE 4 driftC ++
    ((List.range 6).map (fun i => bytesLE 1 (s.check4 xs i).1)).flatten ++ List.replicate 6 0 ++
    bytesLE 8 (if free then 0 else unsig 64 (s.gpsNs t)) ++ List.replicate 8 0
  (head ++ body, sum, trunc)

/-- Keeps the measurements of the last second for check 1 (R320). -/
def State.tcKeep (s : State) (t : Stamp) (xs : List Meas) : State :=
  xs.foldl (fun s x =>
    let q := s.track x.m.tc
    let old := q.hist.filter (fun h => sAtOrBefore (t - 25600000000) h.1)
    s.setTrack x.m.tc { q with hist := if x.trk 1 then (t, x.m) :: old else [] }) s

/-- What a channel measures at an instant for which the operand has no values: free ones. (DEDUCED 118 of
notes/assumptions) -/
def freeMeas (n k : Nat) : ChanMeas :=
  let w := fun (i : Nat) => Config.freeWord (n + 8 * k + i)
  ⟨k, w 0, w 1, w 2 ++ w 3, w 4, (w 5).truncate 16, (w 6).truncate 16, (w 7).truncate 8⟩

/-- MEASUREMENT_INSTANT: channel writes are applied, every tracking channel is latched, and the epoch
record is formed (R313, R315 to R322). The measured values are the operand's. -/
def execMeasurementInstant (meas : List ChanMeas) (s : State) : Res :=
  if !s.gnbRuns || s.rpl.on then .next s
  else
    let t := s.nextGrid (s.conf Reg.GNB_CFG_MPER * msTicks) 0 s.gnb.instant
    let s := s.advanceTo t
    let (s, preds) := (List.range s.variant.tracks).foldl (fun (acc : State × Tab W32) k =>
      let r := acc.1.tcApply k t
      (r.1, Tab.put 0x80000000 acc.2 k r.2)) (s, [])
    let xs := (List.range s.variant.tracks).filterMap (fun k =>
      let c := tcCfg (s.track k).cfg
      if s.live Reg.GNB_TCSTAT_STATE k = 3 ∧ (c.mode = 0 ∨ c.mode = 2) then
        let m := (meas.find? (fun m => m.tc == k)).getD (freeMeas s.draws k)
        let p := Tab.get 0x80000000 preds k
        let trk := m.trk.toNat % 64 + (if p = 0x80000000 then 0 else 64)
        some (⟨{ m with trk := BitVec.ofNat 8 trk }, c, p, 0⟩ : Meas)
      else none)
    let s := if xs.all (fun x => meas.any (fun m => m.tc == x.m.tc)) then s else { s with draws := s.draws + 2048 }
    let xs := s.checks t xs
    let s := { s with gnb := { s.gnb with count := s.gnb.count + 1, instant := some t } }
    let (rec_, _, trunc) := s.epochRecord t xs
    let s := s.tcKeep t xs
    let s := if trunc then s.setLive Reg.GNB_EVT_NAV_TRUNC 1 else s
    .next { s with gnb := { s.gnb with epoch := some (t, rec_), units := [], jumped := false } }

/-- EPOCH_ADMISSION: the record is admitted 200 µs after its instant (R316); an epoch that any check flags
raises its event once (R321). (DEDUCED 117 of notes/assumptions) -/
def execEpochAdmission (s : State) : Res :=
  match s.gnb.epoch with
  | none => .next s
  | some (t, r) =>
    let s := s.advanceTo (t + 5120000)
    let s := { s with gnb := { s.gnb with epoch := none, record := r } }
    let s := s.takeIn (inputId 7 0) t (t + 5120000) r
    let sum := leAt r 21 1
    if sum = 0 then .next s else .next ((s.setLive Reg.GNB_EVT_CHECK 1).raiseNow 47 sum)

/-! ### The discipline of device time -/

/-- The GNB maintains the relation (R55, R324). -/
def State.gnbDisc (s : State) : Bool := s.gnbRuns && decide (s.conf Reg.SYS_DISC_STAT_SRC = 0)

/-- Sets GNB_DSTAT.PHASE with SYS_DISC_STAT.STATE (R325). -/
def State.setPhase (s : State) (p : Nat) : State :=
  (s.setLive Reg.GNB_DSTAT_PHASE p).putDisc (if p ≤ 1 then 0 else if p = 2 then 1 else 2)

/-- A 24-bit signed value; a value outside the format takes its nearest limit (R17). -/
def fit24 (x : Int) : Nat := unsig 24 (satS 24 x)

/-- Writes the trim from FREQ and the slew term (R324). -/
def State.steerTrim (s : State) (slew : Int) : State :=
  let s := { s with gnb := { s.gnb with slew := slew } }
  let lim : Int := s.conf Reg.GNB_DJUMP_SLEW_MAX
  let s := s.setLive Reg.GNB_DSTAT_SLEWING (decide (slew.natAbs = lim.natAbs) && decide (slew ≠ 0)).toNat
  s.putTrim (fit24 (sext 24 (s.live Reg.GNB_FREQ_FREQ) + slew))

/-- FREQ ← FREQ − DRIFT (R324). -/
def State.takeDrift (s : State) (d : Int) : State :=
  s.setLive Reg.GNB_FREQ_FREQ (fit24 (sext 24 (s.live Reg.GNB_FREQ_FREQ) - d))

/-- The slew term of ε in 2^−16 ns (R324). -/
def State.slewOf (s : State) (eps : Int) : Int :=
  let lim : Int := s.conf Reg.GNB_DJUMP_SLEW_MAX
  clampI (-lim) lim (divRound (eps * 100) (65536 * s.conf Reg.GNB_DISC_TAU))

/-- The solution is used: its SIG governs the uncertainty (R327). -/
def State.useSig (s : State) (q : Solution) : State := { s with gnb := { s.gnb with sig0 := q.sig } }

/-- Steering by a solution (R324). -/
def State.steer (s : State) (q : Solution) (eps : Int) : State :=
  ((s.takeDrift q.drift).steerTrim (s.slewOf eps)).useSig q

/-- GPS time of a stamp under a relation, exact, in 2^−16 ns (R323). -/
def relExact (a : Stamp) (g : Nat) (t : Stamp) : Int := (g : Int) * 65536 + sdiff a t * 2560

/-- ε of a solution against the relation in force, in 2^−16 ns (R323). (DEDUCED 118 of notes/assumptions) -/
def State.epsOf (s : State) (q : Solution) : Int :=
  (q.gps.toNat : Int) * 65536 + q.frac.toNat - relExact s.anchor s.gpsAnchor q.t

/-- Decides a step by ε at the applying boundary `b`; a step decided before and still to come gives way to it
(R326). (DEDUCED 118 of notes/assumptions) -/
def State.decideStep (s : State) (eps : Int) (b : Stamp) (event : Bool) : State :=
  let a := s.anchor
  let g := s.gpsAnchor
  let lastPps := (List.range 2).foldl (fun m o =>
    match Tab.get none s.gnb.lastPulse o with | some t => sMax m (t + 12800000000) | none => m) (b + 15360000000)
  let lo := relExact a g lastPps + eps
  let sec : Int := 65536000000000
  let k := (lo + sec - 1) / sec
  let at_ := sAdd a (divRound (k * sec - eps - (g : Int) * 65536) 2560)
  { s with gnb := { s.gnb with
    step := some ⟨at_, (k * 1000000000).toNat, eps, event⟩, stepMark := [(0, true), (1, true)] } }

/-- Sets the solution count, saturating at 255 (R325). -/
def State.setCount (s : State) (n : Nat) : State := s.setLive Reg.GNB_DSTAT_COUNT (min 255 n)

/-- Entry into HOLDOVER at `t` (R325). (DEDUCED 118 of notes/assumptions) -/
def State.enterHoldover (s : State) (cause : Nat) (t : Stamp) : State :=
  let s := (s.steerTrim 0).setPhase 3
  let s := { s with gnb := { s.gnb with holdAt := t, jumps := 0 } }
  let s := (s.setLive Reg.GNB_DSTAT_CAUSE cause).setLive Reg.GNB_EVT_HOLD 1
  s.raiseNow 49 cause

/-- COUNT reaches LOCK_N in RETURNING: the solution is used, by a slew or a step, and PHASE is LOCKED (R325). -/
def State.relock (s : State) (q : Solution) (eps : Int) (b : Stamp) : State :=
  let s := (s.takeDrift q.drift).useSig q
  let s :=
    if eps.natAbs < s.conf Reg.GNB_DTOL_STEP * 65536 then s.steerTrim (s.slewOf eps)
    else (s.decideStep eps b true).steerTrim 0
  let s := ((s.setLive Reg.GNB_DSTAT_EXPIRED 0).setLive Reg.GNB_DSTAT_ACCEPTED 0).setLive Reg.GNB_DSTAT_CAUSE 0
  (s.setPhase 2).raiseNow 48 0

/-- A solution counts in RETURNING, which COUNT may end (R325). -/
def State.returning (s : State) (n : Nat) (q : Solution) (eps : Int) (b : Stamp) : State :=
  let s := (s.setCount n).setPhase 4
  if s.conf Reg.GNB_DISC_LOCK_N ≤ n then s.relock q eps b else s

/-- An accepted solution drives the discipline state machine at boundary `b`; a steering beside a step takes its slew
from the solution's own ε (R324, R325). -/
def State.discipline (s : State) (q : Solution) (eps : Int) (b : Stamp) : State :=
  let tol := fun (f : Fld) (x : Int) => decide (x.natAbs ≤ s.conf f * 65536)
  let cnt := s.live Reg.GNB_DSTAT_COUNT
  let lockN := s.conf Reg.GNB_DISC_LOCK_N
  match s.live Reg.GNB_DSTAT_PHASE with
  | 0 => (((s.decideStep eps b false).steer q eps).setCount 1).setPhase 1
  | 1 =>
    if tol Reg.GNB_DTOL_LOCK_TOL eps then
      let s := (s.steer q eps).setCount (cnt + 1)
      if lockN ≤ cnt + 1 then (s.setPhase 2).raiseNow 48 0 else s
    else ((s.decideStep eps b false).steer q eps).setCount 1
  | 2 =>
    if tol Reg.GNB_DJUMP_JUMP eps then
      let s := s.steer q eps
      { s with gnb := { s.gnb with jumps := 0 } }
    else
      let n := s.gnb.jumps + 1
      let s := s.setLive Reg.GNB_EVT_TJUMP 1
      let s := { s with gnb := { s.gnb with jumps := n, jumped := true } }
      if s.conf Reg.GNB_DISC2_JUMP_N ≤ n then s.enterHoldover 2 (b + 25600) else s
  | 3 =>
    if s.live Reg.GNB_DSTAT_CAUSE = 2 ∧ s.live Reg.GNB_DSTAT_ACCEPTED = 0 then s.setCount (cnt + 1)
    else s.returning 1 q eps b
  | _ => s.returning (if tol Reg.GNB_DTOL_LOCK_TOL (eps - s.gnb.lastEps) then cnt + 1 else 1) q eps b

/-- A solution takes effect in step 3 of the boundary `b`: refused, or accepted with its ε (R323). -/
def State.solutionAct (s : State) (q : Solution) (b : Stamp) : State :=
  if !s.gnbDisc then s
  else if q.t.toNat % (s.conf Reg.GNB_CFG_MPER * msTicks) ≠ 0 ∨ sBefore b q.t = true ∨
      sBefore q.t (b - 51200000000) = true then
    s.setLive Reg.GNB_SOL_CTL_REJ 1
  else
    let eps := s.epsOf q
    let s := s.setLive Reg.GNB_EPS_EPS (unsig 32 (satS 32 (divRound (eps * 10) 65536)))
    let s := s.discipline q eps b
    { s with gnb := { s.gnb with lastEps := eps, lastSol := b } }

/-- The solution staged in a writer's copies (R168, R323). -/
def State.stagedSolution (s : State) (w : Writer) : Solution :=
  let g := fun (f : Fld) => s.staged w f
  ⟨BitVec.ofNat 64 (g Reg.GNB_SOL_T_LO_T + 2 ^ 32 * g Reg.GNB_SOL_T_HI_T),
    BitVec.ofNat 64 (g Reg.GNB_SOL_GPS_LO_GPS + 2 ^ 32 * g Reg.GNB_SOL_GPS_HI_GPS),
    BitVec.ofNat 16 (g Reg.GNB_SOL_FRAC_FRAC), sext 32 (g Reg.GNB_SOL_DRIFT_DRIFT),
    BitVec.ofNat 32 (g Reg.GNB_SOL_SIG_SIG)⟩

/-- An APPLY of a host: its set waits for step 3 (R168, R323). -/
def State.hostApplySol (s : State) (p : Port) : State :=
  { s with gnb := { s.gnb with hostSol := s.gnb.hostSol ++ [(p, s.stagedSolution (.host p))] } }

/-- SOLUTION_APPLY: a host write of GNB_SOL_CTL.APPLY (R323). -/
def execSolutionApply (p : Port) (s : State) : Res :=
  .next (s.hostLive p 0x040000DC 1 (fun s => s.hostApplySol p))

/-- A write of GNB_SOL_CTL.HOLD enters HOLDOVER from LOCKED (R325). -/
def State.holdWrite (s : State) (t : Stamp) : State :=
  if s.gnbDisc ∧ s.live Reg.GNB_DSTAT_PHASE = 2 then s.enterHoldover 3 t else s

/-- HOLD: a host write of GNB_SOL_CTL.HOLD (R325). (DEDUCED 118 of notes/assumptions) -/
def execHold (p : Port) (s : State) : Res := .next (s.hostLive p 0x040000DC 4 (fun s => s.holdWrite s.now))

/-- A write of GNB_SOL_CTL.ACCEPT (R325). -/
def State.acceptWrite (s : State) : State :=
  let p := s.live Reg.GNB_DSTAT_PHASE
  if s.gnbDisc ∧ (p = 3 ∨ p = 4) then s.setLive Reg.GNB_DSTAT_ACCEPTED 1 else s

/-- ACCEPT: a host write of GNB_SOL_CTL.ACCEPT (R325). (DEDUCED 118 of notes/assumptions) -/
def execAccept (p : Port) (s : State) : Res := .next (s.hostLive p 0x040000DC 8 (fun s => s.acceptWrite))

/-- SOLUTION_LOSS: no solution has been accepted for LOSS ms (R325). (DEDUCED 118 of notes/assumptions) -/
def execSolutionLoss (s : State) : Res :=
  if !s.gnbDisc then .next s
  else
    let t := sMax s.now (s.gnb.lastSol + subTicks (s.conf Reg.GNB_DISC2_LOSS * msTicks))
    if s.recordFirst t then .next s else
    match s.live Reg.GNB_DSTAT_PHASE with
    | 1 => .next ((s.advanceTo t).setPhase 0)
    | 2 => .next ((s.advanceTo t).enterHoldover 1 t)
    | 4 => .next (((s.advanceTo t).setCount 0).setPhase 3)
    | _ => .next s

/-- HOLDOVER_EXPIRY: the holdover time reaches HOLD_LIM (R325). -/
def execHoldoverExpiry (s : State) : Res :=
  let p := s.live Reg.GNB_DSTAT_PHASE
  let t := sMax s.now (s.gnb.holdAt + subTicks (s.conf Reg.GNB_DISC_HOLD_LIM * 25600000000))
  if s.gnbDisc && (p == 3 || p == 4) && !s.flag Reg.GNB_DSTAT_EXPIRED && !s.recordFirst t then
    let s := ((s.advanceTo t).setLive Reg.GNB_DSTAT_EXPIRED 1).setLive Reg.GNB_EVT_EXPIRED 1
    .next (s.raise 50 0 (floorTo 64 t))
  else .next s

/-- RELATION_STEP: at S the stepped anchor and GPS time take effect (R326). -/
def execRelationStep (s : State) : Res :=
  match s.gnb.step with
  | none => .next s
  | some x =>
    if s.recordFirst x.at_ then .next s else
    let s := (s.advanceTo x.at_).setRelation x.at_ x.gps
    let s := { s with gnb := { s.gnb with step := none, steps := s.gnb.steps + 1, stepEps := x.eps } }
    .next (if x.event then (s.setLive Reg.GNB_EVT_STEP 1).raise 51 0 (floorTo 64 x.at_) else s)

/-- The uncertainty U at a stamp, in ns (R327). -/
def State.uncertainty (s : State) (t : Stamp) : Nat :=
  let p := s.live Reg.GNB_DSTAT_PHASE
  let sec : Int := 25600000000
  let d := if p = 3 ∨ p = 4 then max 0 (sdiff s.gnb.holdAt t) else 0
  let num := (s.gnb.sig0.toNat : Int) * 1000 * sec * sec + (s.conf Reg.GNB_HO_HO_R : Int) * 100 * d * sec +
    (s.conf Reg.GNB_HO_HO_Q : Int) * d * d
  min 0xFFFFFFFF (divRound num (10000 * 25600000000 * 25600000000)).toNat

/-- GNB_HOLDT and GNB_UNC at a stamp (R325, R327). -/
def State.gnbShow (s : State) (t : Stamp) : State :=
  if s.gnbDisc then
    let p := s.live Reg.GNB_DSTAT_PHASE
    let h := if p = 3 ∨ p = 4 then (max 0 (sdiff s.gnb.holdAt t)).toNat / msTicks else 0
    (s.setLive Reg.GNB_HOLDT_T h).setLive Reg.GNB_UNC_U (s.uncertainty t)
  else s

/-! ### PPS outputs -/

/-- The next pulse of output `o` whose time-mark instant has not passed: stamp, GPS time and q in ps (R328,
R329, R330). -/
def State.nextPps (s : State) (o : Nat) : Option (Stamp × Nat × Int) :=
  let p := s.live Reg.GNB_DSTAT_PHASE
  let from_ := s.now + 12800000000
  let after := fun (t : Stamp) =>
    sAtOrBefore from_ t && (match Tab.get none s.gnb.lastPulse o with | some l => sBefore l t | none => true)
  if p ≤ 1 then
    if s.conf Reg.GNB_PPSCFG_FREEPPS o = 1 then
      let t := gridUp 25600000000 from_
      let t := if after t then t else t + 25600000000
      some (t, 0, 0)
    else none
  else if p ≠ 2 ∧ s.flag Reg.GNB_DSTAT_EXPIRED = true ∧ s.conf Reg.GNB_PPSCFG_HOSUP o = 1 then none
  else
    let (a, g) := match s.gnb.step with | some x => (x.at_, x.gps) | none => (s.anchor, s.gpsAnchor)
    let ofs := sext 32 (s.conf Reg.GNB_PPSOFS_OFS o)
    let k0 := ((10 * sdiff a from_ + ofs) / 256 + (g : Int)) / 1000000000 - 1
    let pulse := fun (i : Nat) =>
      let k := k0 + i
      let x10 := (k * 1000000000 - (g : Int)) * 256 - ofs
      let d := (x10 + 5) / 10
      (sAdd a d, (k * 1000000000).toNat, divRound ((x10 - 10 * d) * 125) 32)
    ((List.range 5).map pulse).find? (fun x => after x.1)

/-- The fixed pulses of output `o` that are still to come (R330). -/
def State.fixedPulses (s : State) (o : Nat) : List Stamp := Tab.get [] s.gnb.pulse o

/-- TIME_MARK: 500 ms before a pulse its stamp is fixed, the time-mark is written and its event raised
(R330). A pulse that is fixed already and leaves before then comes first; one that leaves after it stays fixed beside
the new one. -/
def execTimeMark (o : Nat) (s : State) : Res :=
  if s.gnbRuns && decide (o < 2) && decide (s.conf Reg.GNB_PPSCFG_EN o = 1) then
    match s.nextPps o with
    | none => .next s
    | some (t, g, q) =>
      if s.recordFirst (t - 12800000000) || (s.fixedPulses o).any (fun x => sAtOrBefore x (t - 12800000000)) then .next s
      else
      let s := s.advanceTo (t - 12800000000)
      let p := s.live Reg.GNB_DSTAT_PHASE
      let seq := (Tab.get 0 s.gnb.marks (8 * o + 6)).toNat + 1
      let flags := (decide (p = 2)).toNat + 2 * (decide (3 ≤ p)).toNat + 4 * s.live Reg.GNB_DSTAT_EXPIRED +
        8 * (decide (p ≤ 1)).toNat + 16 * (decide (2 ≤ p) && Tab.get false s.gnb.stepMark o).toNat +
        32 * (decide (s.gnb.slew ≠ 0)).toNat
      let ws := [t.toNat % 2 ^ 32, t.toNat / 2 ^ 32, g % 2 ^ 32, g / 2 ^ 32, unsig 16 q + flags * 2 ^ 16,
        s.uncertainty t, seq, 0]
      let marks := ws.zipIdx.foldl (fun m x => Tab.put 0 m (8 * o + x.2) (BitVec.ofNat 32 x.1)) s.gnb.marks
      let s := { s with gnb := { s.gnb with
        pulse := Tab.put [] s.gnb.pulse o (s.fixedPulses o ++ [t]), lastPulse := Tab.put none s.gnb.lastPulse o (some t), marks := marks,
        stepMark := if 2 ≤ p then Tab.put false s.gnb.stepMark o false else s.gnb.stepMark } }
      .next (s.raise (52 + o) (seq % 2 ^ 24) (floorTo 64 (t - 12800000000)))
  else .next s

/-- PPS_PULSE: the output goes active at its fixed stamp (R328); in a replay the pin does not move (R331). -/
def execPpsPulse (o : Nat) (s : State) : Res :=
  match s.fixedPulses o with
  | [] => .next s
  | t :: rest =>
    if s.recordFirst t then .next s else
    let s := s.advanceTo t
    .next { s with gnb := { s.gnb with
      pulse := Tab.put [] s.gnb.pulse o rest, up := if s.rpl.on then s.gnb.up else Tab.put none s.gnb.up o (some t) } }

/-- PPS_PULSE_END: the output returns inactive after WIDTH µs (R328). -/
def execPpsPulseEnd (o : Nat) (s : State) : Res :=
  match Tab.get none s.gnb.up o with
  | none => .next s
  | some t =>
    let e := t + subTicks (s.conf Reg.GNB_PPSCFG_WIDTH o * usTicks)
    if s.recordFirst e then .next s else
    let s := s.advanceTo e
    .next { s with gnb := { s.gnb with up := Tab.put none s.gnb.up o none } }

/-- The discipline is FREE and writes nothing further: no step is to come, the slew term is 0, and nothing of a
holdover is left (R325). -/
def State.discFree (s : State) : State :=
  let s := [Reg.GNB_DSTAT_PHASE, Reg.GNB_DSTAT_SLEWING, Reg.GNB_DSTAT_EXPIRED, Reg.GNB_DSTAT_ACCEPTED,
    Reg.GNB_DSTAT_CAUSE].foldl (fun (s : State) (f : Fld) => s.setLive f 0) s
  { s with gnb := { s.gnb with step := none, slew := 0, jumps := 0 } }

/-- The GNB at a commit: with SRC at 1, or disabled, it writes nothing further, and PHASE is FREE (R325); where it takes
the relation over, STATE is that of FREE and the trim is FREQ (R324, R325); entry into TRANSIT stops the channels above
TC63, and the way out of it, from mode `was`, starts them again (R314). -/
def State.gnbCommit (s : State) (old : Image) (was : Nat) : State :=
  if !s.variant.gnb then s
  else
    let mine := fun (m : Image) => decide (m.fld Reg.SYS_DISC_STAT_SRC = 0) && decide (m.fld Reg.GNB_CFG_EN = 1)
    let trim := s.live Reg.GNB_FREQ_FREQ
    let s :=
      if s.conf Reg.SYS_DISC_STAT_SRC = 1 then s.discFree
      else if !mine s.skn.act then s.discFree.setPhase 0
      else if mine old then s
      else
        let s := s.discFree.setPhase 0
        if s.live Reg.SYS_TCLK_TRIM_TRIM = trim then s else s.putTrim trim
    if decide (was = 4) != decide (s.live Reg.SYS_PWRSTAT_CUR = 4) then
      (List.range s.variant.tracks).foldl (fun s k => if 64 ≤ k then s.tcStart k true else s) s
    else s

end Sys2Proof.Machine
end

