-- ==== Sys2Proof/Machine/Restart.lean ====
section
/-! DEFINITION. How a replay or a live run is started from DXC_RPL_CTL (R100, R101). -/

namespace Sys2Proof.Machine

/-- Ranges of host addresses whose live registers a start by DXC_RPL_CTL keeps: clock and boot status,
temperatures, the AON mirror, the host ports, the rings and replay registers, the delay lines, and the gauge and
boot block. (DEDUCED 79 of notes/assumptions) -/
def keptRanges : List (Nat × Nat) :=
  [(0x1C, 0x20), (0x60, 0x64), (0x70, 0x74), (0x100, 0x120), (0x20000, 0x30000), (0x180000, 0x180100),
    (0x08000000, 0x09000000)]

/-- The live registers of the ranges that are kept. (DEDUCED 79 of notes/assumptions) -/
def keptRegs (t : Tab W32) : Tab W32 :=
  t.filter (fun p => keptRanges.any (fun r => decide (8 * r.1 ≤ p.1) && decide (p.1 < 8 * r.2)))

/-- Cast-on steps 6 to 8, keeping DT and DRAM (R101). (DEDUCED 17, 79 of notes/assumptions) -/
def State.castAgain (s : State) : State :=
  let t := State.cleared s.variant (.castOn 6) s.power.pwren s.power.resetN s.power.supplies (keptRegs s.regs)
    s.aon s.boot.gauge s.draws s.hostData s.pending
  let trim := s.gauge 16 3
  let t := { t with
    time := { t.time with dt := s.time.dt, valid := s.time.valid, latch := s.time.latch, taps := s.time.taps
                          trim := BitVec.ofNat 24 trim }
    win := s.win.range 0x08000000 0x09000000
    fab := { t.fab with dram := s.fab.dram, fullRings := s.fab.fullRings }
    boot := { t.boot with loaded := s.boot.loaded, prog := s.boot.prog }
    rpl := { s.rpl with lateAt := none, trailLate := false, cursor := s.live Reg.DXC_RING_RD_RD 0
                        inCursor := s.live Reg.DXC_RING_RD_RD 1 } }
  let t := { t with dsl := { t.dsl with gduv := s.dsl.gduv } }
  ((t.setLive Reg.SYS_TCLK_TRIM_TRIM trim).setLive Reg.GNB_FREQ_FREQ trim).setLive Reg.ETU_DLSTAT_DONE (s.live Reg.ETU_DLSTAT_DONE)

/-- With no rows running, a GO holds in STARTING for a replay, or starts a live run (R101). (DEDUCED 79 of
notes/assumptions) -/
def State.goAhead (s : State) : State :=
  if s.flag Reg.DXC_RPL_CTL_ARM then
    let s := { s with power := { s.power with phase := .replayHold, bind := .none, bindReplay := false }
                      rpl := { s.rpl with on := true } }
    s.setLive Reg.DXC_RPL_STAT_STATE 1
  else
    let s := { s with rpl := { s.rpl with on := false } }
    (s.setLive Reg.DXC_RPL_STAT_STATE 0).castAgain

/-- A write of DXC_RPL_CTL.GO (R101): while rows run the bind-off starts at the next boundary, or the one under way
goes on without its linger; with no rows running it acts at once where DT runs, and is ignored in DOZE and where a
step of cast-on before the sixth is still to come. (DEDUCED 79 of notes/assumptions) -/
def State.goWrite (s : State) : State :=
  match s.power.phase with
  | .rows => { s with power := { s.power with bindReplay := true } }
  | .waitRow0 | .replayHold | .replayEnded => s.goAhead
  | .failed => if s.time.valid && decide (4 ≤ s.live Reg.SYS_BOOTSTAT_FAIL) then s.goAhead else s
  | _ => s

/-- A write of DXC_RPL_CTL.LOADED in STARTING with ARM at 1 (R101). -/
def State.loadedWrite (s : State) : State :=
  if s.power.phase = .replayHold ∧ s.flag Reg.DXC_RPL_CTL_ARM = true then s.castAgain else s

/-- A write of DXC_RPL_CTL: FINAL and ARM, then GO and LOADED (R101). -/
def State.rplCtl (s : State) (v : Nat) : State :=
  let s := (s.setLive Reg.DXC_RPL_CTL_FINAL (bitsOf v 2 1)).setLive Reg.DXC_RPL_CTL_ARM (bitsOf v 1 1)
  let s := if bitOf v 0 then s.goWrite else s
  if bitOf v 3 then s.loadedWrite else s

/-- REPLAY_GO (R101). -/
def execReplayGo (p : Port) (arm : Bool) (final : Bool) (s : State) : Res :=
  let v := 1 + 2 * arm.toNat + 4 * final.toNat
  .next (s.hostLive p 0x00180060 v (fun s => s.rplCtl v))

/-- REPLAY_LOADED (R101). -/
def execReplayLoaded (p : Port) (final : Bool) (s : State) : Res :=
  let v := 8 + 2 + 4 * final.toNat
  .next (s.hostLive p 0x00180060 v (fun s => s.rplCtl v))

end Sys2Proof.Machine
end

