-- ==== Sys2Proof/Machine/Trips.lean ====
section
/-! DEFINITION. The trip inputs: cutting and releasing carrier groups and slice banks, and the trip
latches (R255 to R258, R288). -/

namespace Sys2Proof.Machine

/-- Sets the trips that hold bank `b`. -/
def State.setBankTrips (s : State) (b : Nat) (l : List Nat) : State :=
  { s with dsl := { s.dsl with trips := Tab.put [] s.dsl.trips b l } }

/-- A trip cuts bank `b` (R288). -/
def State.cutBank (s : State) (t b : Nat) : State :=
  let l := Tab.get [] s.dsl.trips b
  let s := s.setBankTrips b (if l.contains t then l else l ++ [t])
  (s.setLive Reg.DSL_BFLT_TRIP_CUT 1 b).holdBank b

/-- Trip `t` no longer holds any bank (R288). -/
def State.dropTrip (s : State) (t : Nat) : State :=
  (List.range s.variant.banks).foldl (fun s b =>
    let l := Tab.get [] s.dsl.trips b
    if l.contains t then (s.setBankTrips b (l.filter (fun x => x != t))).releaseBank b else s) s

/-- The trip sample of a filtered edge (R132, R255, R387). (DEDUCED 109 of notes/assumptions) -/
def State.tripSample (s : State) (t : Nat) (level : Bool) : State :=
  if s.takesInput then
    let src := floorTo 64 s.now
    s.complete (inputId 10 t) src (src + 51200) (bytesLE 1 level.toNat)
  else s

/-- The filtered level of trip `t` becomes active at `at_`; an enabled trip cuts its mapped groups and banks
(R255, R256, R288). (DEDUCED 109 of notes/assumptions) -/
def State.tripOn (s : State) (t : Nat) (at_ : Stamp) : State :=
  if 16 ≤ t ∨ bitOf (s.live Reg.ETU_TRIPSTAT_ACTIVE) t = true then s
  else
    let s := s.setLive Reg.ETU_TRIPSTAT_ACTIVE (withBit (s.live Reg.ETU_TRIPSTAT_ACTIVE) t true)
    let s := s.tripSample t true
    if s.conf Reg.ETU_TRIPCFG_EN t ≠ 1 then s
    else
      let s :=
        if s.conf Reg.ETU_TRIPCFG_MODE t = 1 then
          s.setLive Reg.ETU_TRIPSTAT_LATCHED (withBit (s.live Reg.ETU_TRIPSTAT_LATCHED) t true)
        else s
      let gs := (List.range s.variant.groups).filter (fun g => bitOf (s.conf Reg.ETU_TRIPMAP_MAP t) g)
      let s := gs.foldl (fun s g => s.cutGroup g t) s
      let s :=
        if gs.isEmpty then s
        else s.setLive Reg.ETU_TRIPHIT_HIT (withBit (s.live Reg.ETU_TRIPHIT_HIT) t true)
      let s := ((List.range s.variant.banks).filter (fun b => bitOf (s.conf Reg.DSL_TRIPMAP_BANKS t) b)).foldl
        (fun s b => s.cutBank t b) s
      s.raise (65 + t) 0 at_

/-- The filtered level of trip `t` becomes inactive; in CYCLE mode its banks are released (R255, R288). Its
groups wait for their next period start (R257). -/
def State.tripOff (s : State) (t : Nat) : State :=
  if 16 ≤ t ∨ bitOf (s.live Reg.ETU_TRIPSTAT_ACTIVE) t = false then s
  else
    let s := s.setLive Reg.ETU_TRIPSTAT_ACTIVE (withBit (s.live Reg.ETU_TRIPSTAT_ACTIVE) t false)
    let s := s.tripSample t false
    if s.conf Reg.ETU_TRIPCFG_MODE t = 1 then s else s.dropTrip t

/-- The filter of a trip takes the level `active` now: the last N of the levels sampled at its pin agree on it, and
the raw edge lies as far back as N samples and the input's delay take; POL says which level
of the pin is the active one (R255). (DEDUCED 109 of notes/assumptions) -/
def State.tripTakes (s : State) (active : Bool) (r : TripTrain) : Bool :=
  let t := r.trip
  let n := s.conf Reg.ETU_TRIPCFG_FLT t
  let per := 2 ^ s.conf Reg.ETU_TRIPCFG_PRE t
  let pin := active != (s.conf Reg.ETU_TRIPCFG_POL t == 1)
  decide (n ≤ r.levels.length) && (r.levels.drop (r.levels.length - n)).all (fun l => l == pin) &&
    decide (cycle r.edge + n * per + 2 ≤ cycle s.now) && decide (cycle s.now ≤ cycle r.edge + (n + 1) * per + 2)

/-- TRIP_ACTIVE: the filtered level becomes active, where the filter takes it; in a replay the pins are ignored (R100,
R255, R256, R288). -/
def execTripActive (t : TripTrain) (s : State) : Res :=
  .next (if !s.rpl.on && s.tripTakes true t then s.tripOn t.trip (floorTo 64 s.now) else s)

/-- TRIP_RELEASE: the filtered level becomes inactive, where the filter takes it; in a replay the pins are ignored
(R100, R255, R257, R288). -/
def execTripRelease (t : TripTrain) (s : State) : Res :=
  .next (if !s.rpl.on && s.tripTakes false t then s.tripOff t.trip else s)

/-- A write of ETU_TRIPCLR that lands at `land` (R258, R288). (DEDUCED 109 of notes/assumptions) -/
def State.clearTrips (s : State) (mask : Nat) (land : Stamp) : State :=
  (List.range 16).foldl (fun s t =>
    if bitOf mask t && bitOf (s.live Reg.ETU_TRIPSTAT_LATCHED) t then
      if bitOf (s.live Reg.ETU_TRIPSTAT_ACTIVE) t then s.setLive Reg.ETU_TRIPHIT_TRIP_CLR_REJ 1
      else
        let s := s.setLive Reg.ETU_TRIPSTAT_LATCHED (withBit (s.live Reg.ETU_TRIPSTAT_LATCHED) t false)
        ({ s with etu := { s.etu with clearedAt := Tab.put none s.etu.clearedAt t (some land) } }).dropTrip t
    else s) s

/-- TRIP_CLEAR: a host write of ETU_TRIPCLR (R258). -/
def execTripClear (p : Port) (mask : BitVec 16) (s : State) : Res :=
  .next (s.hostLive p 0x03000028 mask.toNat (fun s => s.clearTrips mask.toNat s.now))

end Sys2Proof.Machine
end

