-- ==== Sys2Proof/Machine/RegWrite.lean ====
section
/-! DEFINITION. What a write to a live register does at its landing, whoever writes: a host port, a
program at step 3, or the live set (R11, R25, R26, R395, R396, R408), and where a word that is written
goes: live registers, windows and STAGING (R401). -/

namespace Sys2Proof.Machine

/-! ### Plain fields -/

/-- The live elements in the word at a host address: position in the word, field and indices. -/
def liveFields (a : Nat) : List (Nat × Fld × Nat × Nat) :=
  regFields.flatMap (fun f =>
    match f.acc with
    | .srw => []
    | _ => (f.inWord a).map (fun e => (e.1, f, e.2.1, e.2.2)))

/-- The staging registers, of which each writer has its own copy (R396). (DEDUCED 38 of notes/assumptions) -/
def stagedReg (a : Nat) : Bool :=
  (decide (0x02000100 ≤ a) && decide (a < 0x02000120)) || (decide (0x040000C0 ≤ a) && decide (a < 0x040000DC)) ||
  (decide (0x02000500 ≤ a) && decide (a < 0x02000508)) || (decide (0x02000510 ≤ a) && decide (a < 0x02000518)) ||
  (decide (0x05000140 ≤ a) && decide (a < 0x05000150)) ||
  (decide (0x00100000 ≤ a) && decide (a < 0x00180000) && decide (0x80 ≤ a % 0x10000) && decide (a % 0x10000 < 0xC0))

/-- A write of one element by its access code: L-RW takes the value, in the writer's copy for a staging
register; L-W1C clears the bits written as 1; L-RO and L-WO hold nothing (R11). -/
def State.putElem (w : Writer) (a v : Nat) (s : State) (x : Nat × Fld × Nat × Nat) : State :=
  let n := bitsOf v x.1 x.2.1.width
  match x.2.1.acc with
  | .lrw => if stagedReg a then s.setStaged w x.2.1 n x.2.2.1 x.2.2.2 else s.setLive x.2.1 n x.2.2.1 x.2.2.2
  | .lw1c =>
    let old := s.live x.2.1 x.2.2.1 x.2.2.2
    s.setLive x.2.1 (old - Nat.land old n) x.2.2.1 x.2.2.2
  | _ => s

/-- A write that acts on the elements of its word alone. -/
def State.plainWrite (s : State) (w : Writer) (a v : Nat) : State :=
  (liveFields a).foldl (State.putElem w a v) s

/-! ### Registers with an action -/

/-- The index of `a` in an array of `n` words from `base`, `stride` apart. -/
def wordIdx (a base stride n : Nat) : Option Nat :=
  if base ≤ a ∧ (a - base) % stride = 0 ∧ (a - base) / stride < n then some ((a - base) / stride) else none

/-- Runs an action that acts at a landing stamp ahead of the present instant. -/
def State.landingAt (s : State) (land : Stamp) (f : State → State) : State :=
  let d := land - s.now
  let t := f { s with time := { s.time with dt := s.time.dt + d } }
  { t with time := { t.time with dt := t.time.dt - d } }

/-- A mirror write in transit to the AON domain (R75). (DEDUCED 30 of notes/assumptions) -/
def State.mirrorWrite (s : State) (a v : Nat) : State :=
  ({ s with aon := { s.aon with writes := s.aon.writes ++ [(BitVec.ofNat 32 a, BitVec.ofNat 32 v)] } }).setLive
    Reg.SYS_AON_WAKEEN_BUSY 1

/-- Writes of the SYS block: mode control, trim, discipline, and the AON mirror. (DEDUCED 27 of notes/assumptions)
-/
def State.sysWrite (s : State) (w : Writer) (a v : Nat) (land : Stamp) : Option State :=
  if a = 0x14 then
    let s := if bitOf v 1 then s.parkNow else s
    some (if bitOf v 0 then s.recastNow else s)
  else if a = 0x30 then some (s.landingAt land (fun s => s.trimWrite v))
  else if a = 0x38 ∨ a = 0x3C ∨ a = 0x40 ∨ a = 0x44 then some (s.discWrite a v)
  else if a = 0x48 then
    some (if s.conf Reg.SYS_DISC_STAT_SRC = 1 then s.putDisc (v % 4) else s)
  else if a = 0x100 ∨ a = 0x104 ∨ a = 0x108 ∨ a = 0x110 then some (s.mirrorWrite a v)
  else if a = 0x118 then
    match w with
    | .host _ =>
      let s := if bitOf v 2 then s.setLive Reg.SYS_AON_SEAL_CLR_REJ 0 else s
      some (if bitOf v 31 then s.clearSeal else s)
    | _ => some s
  else none

/-- HP_CFG: DUMMY takes 8 to 31 only. -/
def State.portCfg (s : State) (i v : Nat) : State :=
  let d := bitsOf v 8 5
  let s := if 8 ≤ d then s.setLive Reg.HP_CFG_DUMMY d i else s
  s.setLive Reg.HP_CFG_SVIEW (bitsOf v 1 1) i

/-- A heartbeat of port `i` that lands at `land` (R421). -/
def State.beat (s : State) (i : Nat) (land : Stamp) : State :=
  (s.setLive Reg.HP_HBLAST_LO_STAMP (land.toNat % 2 ^ 32) i).setLive Reg.HP_HBLAST_HI_STAMP (land.toNat / 2 ^ 32) i

/-- The latest heartbeat of a port (R421). -/
def State.lastBeat (s : State) (i : Nat) : Stamp :=
  BitVec.ofNat 64 (s.live Reg.HP_HBLAST_LO_STAMP i + 2 ^ 32 * s.live Reg.HP_HBLAST_HI_STAMP i)

/-- A write of HP_SAFE.CLR: accepted only if the writing port's own heartbeat lies within TIMEOUT (R423). -/
def State.safeClrWrite (s : State) (p : Port) (land : Stamp) : State :=
  if sdiff (s.lastBeat p.idx) land ≤ (s.conf Reg.HP_HBCFG_TIMEOUT * msTicks : Nat) then
    { s with boot := { s.boot with safeClr := true } }
  else s.setLive Reg.HP_SAFE_CLR_REJ 1

/-- EVT_RAISE: the sources wait for step 3 of the next boundary (R427). (DEDUCED 50 of notes/assumptions) -/
def State.raiseWrite (s : State) (p : Port) (v : Nat) : State :=
  { s with boot := { s.boot with raises := s.boot.raises ++ [(p, BitVec.ofNat 32 v)] } }

/-- A clear of pending bits; a source raised in the same cycle stays pending (R426). -/
def State.pendClear (s : State) (q wd v : Nat) (land : Stamp) : State :=
  let old := s.live Reg.EVT_PEND_PEND q wd
  let keep := (List.range 32).filter (fun i => bitOf v i && bitOf old i && s.boot.raised.contains (32 * wd + i, land))
  s.setLive Reg.EVT_PEND_PEND (keep.foldl (fun n i => n + 2 ^ i) (old - Nat.land old v)) q wd

/-- Writes of the SEM, SKN, HP and EVT blocks. -/
def State.hostBlockWrite (s : State) (w : Writer) (a v : Nat) (land : Stamp) : Option State :=
  if a = 0x10000 then some (s.skeinCtl w v)
  else
    match wordIdx a 0x8000 4 32, wordIdx a 0x20000 0x100 2, wordIdx a 0x20008 0x100 2, wordIdx a 0x40200 4 8, w with
    | some n, _, _, _, .host p => some (s.semWrite (.host p) n v)
    | some _, _, _, _, _ => some s
    | _, some i, _, _, _ => some (s.portCfg i v)
    | _, _, some i, _, _ => some (s.beat i land)
    | _, _, _, some k, _ => some (s.pendClear (k / 4) (k % 4) v land)
    | _, _, _, _, _ =>
      if a = 0x20804 then
        let s := if bitOf v 30 then s.setLive Reg.HP_SAFE_CLR_REJ 0 else s
        match w with
        | .host p => some (if bitOf v 31 then s.safeClrWrite p land else s)
        | _ => some s
      else if a = 0x40C00 then
        match w with
        | .host p => some (s.raiseWrite p v)
        | .liveSet => some (s.raiseWrite .hpa v)
        | .core _ => some s
      else none

/-- Writes of a core's registers at offset `o` (R89, R90, R93 to R95). A program's VALID write is handled
after all word writes of its row (R90). -/
def State.coreRegWrite (s : State) (w : Writer) (c o v : Nat) (land : Stamp) : Option State :=
  if o = 0 then some (s.dxcCtl c v)
  else if o = 0xC0 then
    let s := if bitOf v 1 then s.setLive Reg.DXC_MBI_CTL_REJ 0 c else s
    match w with
    | .host p => some (if bitOf v 0 then s.mailPost p c land else s)
    | _ => some s
  else if 0x100 ≤ o ∧ o < 0x140 then
    match w with
    | .core n =>
      if n = c then
        let k := s.core c
        some (s.setCore c { k with mbo := Tab.put 0 k.mbo ((o - 0x100) / 4) (BitVec.ofNat 32 v) })
      else some s
    | _ => some s
  else if o = 0x140 then
    match w with
    | .core _ => some s
    | _ => some (if bitOf v 0 then s.mailRelease c else s)
  else if o = 0x1C4 then some (s.dbgWrite c v)
  else none

/-- Writes of the DXC block: cores, rings and replay. A write of WR or RD that leaves them equal leaves the ring
empty. (DEDUCED 49 of notes/assumptions) -/
def State.dxcWrite (s : State) (w : Writer) (a v : Nat) (land : Stamp) : Option State :=
  if 0x00100000 ≤ a ∧ a < 0x00180000 then
    s.coreRegWrite w ((a - 0x00100000) / 0x10000) (a % 0x10000) v land
  else if a = 0x00180060 then some (s.rplCtl v)
  else
    match wordIdx a 0x00180008 0x20 3, wordIdx a 0x0018000C 0x20 3, w with
    | some r, _, .host _ =>
      some (if r < 2 ∧ s.rpl.on = true then (s.setLive Reg.DXC_RING_WR_WR v r).ringFull r false else s)
    | some _, _, _ => some s
    | none, some r, _ => some ((s.setLive Reg.DXC_RING_RD_RD v r).ringFull r false)
    | none, none, _ => none

/-- Writes of the placement and fabric blocks. -/
def State.placeWrite (s : State) (w : Writer) (a v : Nat) : Option State :=
  if a = 0x02000384 then some (s.setLive Reg.PLE_QPEAK_PEAK 0)
  else if a = 0x02000120 then
    let s := if bitOf v 1 then s.setLive Reg.PLE_POSE_CTL_REJ 0 else s
    some (if bitOf v 0 then
        match w with
        | .host p => s.hostApplyPose p
        | _ => s.applyPose (s.stagedPose w)
      else s)
  else if a = 0x02000508 then
    let s := if bitOf v 1 then s.setLive Reg.FAB_SWAP_CTL_REJ 0 else s
    some (if bitOf v 0 then s.swapGo w else s)
  else if a = 0x02000518 then
    match w with
    | .host p =>
      let s := if bitOf v 1 then s.setLive Reg.FAB_COPY_CTL_REJ 0 else s
      some (if bitOf v 0 then s.startCopy p else s)
    | _ => some s
  else none

/-- Writes of the edge timing unit and the drive slices. -/
def State.edgeWrite (s : State) (a v : Nat) (land : Stamp) : Option State :=
  if a = 0x03000010 then some (s.lockWrite v land)
  else if a = 0x03000028 then some (s.clearTrips v land)
  else
    match wordIdx a 0x03001008 16 32, wordIdx a 0x03004000 32 512, wordIdx a 0x03004004 32 512,
        wordIdx a 0x03100110 32 8, wordIdx a 0x03101014 64 48 with
    | some g, _, _, _, _ => some (s.perWrite g v land)
    | _, some n, _, _, _ => some (s.putShadow (n / 16) (1 + n % 16) v land)
    | _, _, some n, _, _ => some (s.putShadow (n / 16) (17 + n % 16) v land)
    | _, _, _, some b, _ => some (if bitOf v 0 then s.clearBank b else s)
    | _, _, _, _, some n => some (if bitOf v 0 then s.clearSlice n else s)
    | _, _, _, _, _ => none

/-- Writes of the loop units, the GNSS baseband and the fusion engine. (DEDUCED 49 of notes/assumptions) -/
def State.engineWrite (s : State) (w : Writer) (a v : Nat) (land : Stamp) : Option State :=
  if 0x03201000 ≤ a ∧ a < 0x03203000 then
    let o := (a - 0x03201000) % 0x80
    if o = 0x50 ∨ o = 0x54 ∨ o = 0x58 ∨ o = 0x5C ∨ o = 0x74 then
      some (s.loopWrite ((a - 0x03201000) / 0x80) o (BitVec.ofNat 32 v) land)
    else none
  else if a = 0x040000DC then
    let s := if bitOf v 1 then s.setLive Reg.GNB_SOL_CTL_REJ 0 else s
    let s := if bitOf v 2 then s.holdWrite land else s
    let s := if bitOf v 3 then s.acceptWrite else s
    some (if bitOf v 0 then
        match w with
        | .host p => s.hostApplySol p
        | _ => s.solutionAct (s.stagedSolution w) s.row.cur
      else s)
  else if 0x04001000 ≤ a ∧ a < 0x04002000 then
    if a % 16 = 12 then none else some (s.tcWrite ((a - 0x04001000) / 16) (a % 16) (BitVec.ofNat 32 v) land)
  else if a = 0x0500014C then
    let s := if bitOf v 30 then s.setLive Reg.FGE_TCMD_CTL_REJ 0 else s
    let code := bitsOf v 28 2
    let s := (s.setStaged w Reg.FGE_TCMD_CTL_CODE code).setStaged w Reg.FGE_TCMD_CTL_INDEX (bitsOf v 0 13)
    some (if bitOf v 31 then s.postTrack w code else s)
  else none

/-- The bits of word `j` of a CAN transmit buffer that hold content (R371). (DEDUCED 125 of notes/assumptions) -/
def canTxMask (j : Nat) : Nat := if j = 0 then 0x7FEC0000 else if j = 1 then 0x1FFFFFFF else if j < 8 then 0 else 0xFFFFFFFF

/-- The bits of word `j` of an Ethernet transmit slot that hold content (R381). (DEDUCED 125 of notes/assumptions)
-/
def ethTxMask (j : Nat) : Nat := if j = 0 then 0x7FF else if j < 4 then 0 else 0xFFFFFFFF

/-- Writes of the CAN and Ethernet blocks, their transmit buffers among them (R370, R371, R373, R377, R378,
R381). -/
def State.portWrite (s : State) (w : Writer) (a v : Nat) (land : Stamp) : Option State :=
  match canTx a, ethTx a with
  | some (c, o), _ =>
    some (if (s.can c).isBusy (o / 96) then s.setLive Reg.CAN_RXSTAT_TXREJ 1 c
      else s.setWin a (bytesLE 4 (Nat.land v (canTxMask (o % 96 / 4)))))
  | _, some (e, o) =>
    some (if (s.eth e).isBusy (o / 2048) then s
      else s.setWin a (bytesLE 4 (Nat.land v (ethTxMask (o % 2048 / 4)))))
  | none, none =>
    if 0x06000000 ≤ a ∧ a < 0x06004000 then
      let c := (a - 0x06000000) / 0x1000
      match a % 0x1000 with
      | 0x14 => some (if bitOf v 0 then s.canRecover c else s)
      | 0x20 => some (s.canRxrd c v)
      | 0x28 => some (s.landingAt land (fun s => s.canTxReq c v))
      | 0x2C => some (s.landingAt land (fun s => s.canTxAbt c v))
      | _ => none
    else if 0x06100000 ≤ a ∧ a < 0x06102000 then
      let e := (a - 0x06100000) / 0x1000
      match a % 0x1000 with
      | 0x24 => some (s.ethRxrd e v)
      | 0x28 => some (s.landingAt land (fun s => s.ethTxReq e v))
      | 0x40 =>
        match w with
        | .host _ =>
          let s := [(Reg.ETH_MDIO_CMD_OP, 28, 2), (Reg.ETH_MDIO_CMD_PHYAD, 21, 5), (Reg.ETH_MDIO_CMD_DEVAD, 16, 5),
            (Reg.ETH_MDIO_CMD_DATA, 0, 16)].foldl (fun (s : State) (x : Fld × Nat × Nat) =>
              s.setLive x.1 (bitsOf v x.2.1 x.2.2) e) s
          some (if bitOf v 31 then s.mdioGo e (bitsOf v 28 2) (bitsOf v 21 5) (bitsOf v 16 5) (bitsOf v 0 16) else s)
        | _ => some s
      | _ => none
    else none

/-- Writes of the GSB block, which serves hosts only (R397, R415, R420). -/
def State.bootWrite (s : State) (w : Writer) (a v : Nat) : Option State :=
  if a < 0x08000000 ∨ 0x09000000 ≤ a then none
  else
    match w with
    | .host p =>
      if a = 0x08000000 then some (s.gsbCtl p v)
      else if a = 0x08000020 then
        let s := s.plainWrite w a v
        some (if bitOf v 31 then s.bootGo else s)
      else if (0x08000100 ≤ a ∧ a < 0x08000200) ∨ (0x08004000 ≤ a ∧ a < 0x08006000) then
        some (s.setWin a (bytesLE 4 v))
      else none
    | _ => some s

/-- The first answer of two. -/
def orElseState (x : Option State) (y : Unit → Option State) : Option State :=
  match x with
  | some s => some s
  | none => y ()

/-- A write of `v` to the live register, or live window, at `a`, that lands at `land` (R25, R26, R408). (DEDUCED 49
of notes/assumptions) -/
def State.regWrite (s : State) (w : Writer) (a v : Nat) (land : Stamp) : State :=
  let r := orElseState (s.sysWrite w a v land) (fun _ =>
    orElseState (s.hostBlockWrite w a v land) (fun _ =>
    orElseState (s.dxcWrite w a v land) (fun _ =>
    orElseState (s.placeWrite w a v) (fun _ =>
    orElseState (s.edgeWrite a v land) (fun _ =>
    orElseState (s.engineWrite w a v land) (fun _ =>
    orElseState (s.portWrite w a v land) (fun _ => s.bootWrite w a v)))))))
  match r with
  | some t => t
  | none => s.plainWrite w a v

/-! ### Words -/

/-- An address that holds live content: a register field, or a window that hosts can write. (DEDUCED 48 of
notes/assumptions) -/
def liveAt (a : Nat) : Bool :=
  (canTx a).isSome || (ethTx a).isSome ||
  (decide (0x08000100 ≤ a) && decide (a < 0x08000200)) || (decide (0x08004000 ≤ a) && decide (a < 0x08006000)) ||
  !(liveFields a).isEmpty

/-- Where the windows of R401 point now. -/
def State.windows (s : State) : Windows :=
  ⟨s.live Reg.NB_WIN_PAGE, s.live Reg.SKN_PPAGE_CORE, s.live Reg.SKN_PPAGE_PAGE⟩

/-- A word written to STAGING: it sets WREJ while STAGING is not ready, and the needle-bed window takes no
write in its ACTIVE view (R401). -/
def State.stageWrite (s : State) (a v : Nat) : State :=
  if (nodeWindow 0 a).isSome && s.flag Reg.NB_WIN_VIEW then s
  else if s.flag Reg.SKN_STAT_STG_READY then
    { s with skn := { s.skn with stg := s.skn.stg.stagingWrite s.variant s.windows a v } }
  else s.setLive Reg.SKN_STAT_WREJ 1

/-- A program's store at step 3, or an entry of the live set: skein-held fields of the word go to STAGING
for a program, and live ones take the value (R29, R401, R408). -/
def State.storeWrite (s : State) (w : Writer) (a v : Nat) (land : Stamp) : State :=
  if !busPresent s.variant a then s
  else
    let s := match w with
      | .core _ => if stagingAt s.variant a then s.stageWrite a v else s
      | _ => s
    if liveAt a then s.regWrite w a v land else s

end Sys2Proof.Machine
end

