-- ==== Sys2Proof/Machine/Aon.lean ====
section
/-! DEFINITION. The AON domain: wake sources and latched wakes, physical presence, the real-time clock, the
mirror, and the loss of its supply or clock (R61, R63, R68, R69, R75, R409, R437, R439, R463); and the
readiness of a bank that has been opened (R73, R74). -/

namespace Sys2Proof.Machine

/-! ### Waking -/

/-- The enable of a wake source: 0 PRESENCE, 1 CAN, 2 PI0, 3 host chip-select, 4 RTC alarm (R69). -/
def wakeEnable : Nat → Fld
  | 0 => Reg.SYS_AON_WAKEEN_PRESENCE
  | 1 => Reg.SYS_AON_WAKEEN_CAN
  | 2 => Reg.SYS_AON_WAKEEN_PI0
  | 3 => Reg.SYS_AON_WAKEEN_HOSTCS
  | _ => Reg.SYS_AON_WAKEEN_RTC

/-- SYS_AON_WAKESRC records a source. -/
def State.wakeSrc (s : State) (bit : Nat) : State :=
  s.setLive Reg.SYS_AON_WAKESRC_SRC (withBit (s.live Reg.SYS_AON_WAKESRC_SRC) bit true)

/-- A wake source fires: from DOZE the engines are ungated, from ASLEEP PWREN rises, during a bind-off the wake
is latched, and with rows running nothing follows (R61, R68, R69). (DEDUCED 26 of notes/assumptions) -/
def State.wakeEvent (s : State) (bit : Nat) : State :=
  if !s.aon.xtal || !s.flag (wakeEnable bit) then s
  else
    match s.power.phase with
    | .rows =>
      if s.power.bind ≠ .none ∧ s.power.bindReplay = false then
        let s := s.wakeSrc bit
        { s with power := { s.power with wakeLatched := true } }
      else s
    | .doze =>
      let s := s.wakeSrc bit
      { s with power := { s.power with waking := true } }
    | .unpowered =>
      let s := s.wakeSrc bit
      if s.power.wakeLatched then s else s.raisePwren
    | _ => s

/-- CAN_WAKE: a dominant level on the RX pin of a selected controller passes the wake filter (R69). -/
def execCanWake (k : Nat) (s : State) : Res :=
  .next (if decide (k < 4) && bitOf (s.live Reg.SYS_AON_WAKEEN_CAN_SEL) k then s.wakeEvent 1 else s)

/-- PI0_WAKE (R69). -/
def execPi0Wake (s : State) : Res := .next (s.wakeEvent 2)

/-- HOST_CS_WAKE: a chip-select of port `p` is sampled low (R69). -/
def execHostCsWake (_p : Port) (s : State) : Res := .next (s.wakeEvent 3)

/-- RTC_ALARM: SYS_RTC_SEC has taken the value of SYS_RTC_ALARM (R69, R463). -/
def execRtcAlarm (s : State) : Res :=
  if s.aon.alarmDue then .next ({ s with aon := { s.aon with alarmDue := false } }.wakeEvent 4) else .next s

/-- PWREN_DROP_ELAPSED: after a wake latched on the way to ASLEEP, PWREN rises again (R68). (DEDUCED 26 of
notes/assumptions) -/
def execPwrenDropElapsed (s : State) : Res :=
  if s.power.phase = .unpowered ∧ s.power.wakeLatched = true then
    .next ({ s with power := { s.power with wakeLatched := false } }.raisePwren)
  else .next s

/-- ENGINES_UNGATED: in DOZE, after a wake, the engines of the resume mode run again; rows resume at the first
grid boundary from then on, with its grid row number (R61, R62). In a replay the record says where (R42). -/
def execEnginesUngated (s : State) : Res :=
  if s.power.phase = .doze ∧ s.power.waking = true ∧ s.power.ungated = false ∧ s.rpl.on = false then
    let per := s.period
    let gone := (sdiff s.row.cur s.now).toNat
    let n := if per = 0 then 1 else max 1 ((gone + per - 1) / per)
    .next { s with
      power := { s.power with ungated := true }
      row := { s.row with next := s.row.cur + subTicks (n * per), num := s.row.num + BitVec.ofNat 32 (n - 1) } }
  else .next s

/-! ### Presence -/

/-- PRESENCE_ASSERT: the debounced assertion starts a hold, closes an open grant, and is a wake source (R69,
R70, R409, R463). -/
def execPresenceAssert (s : State) : Res :=
  if !s.aon.xtal then .next s
  else
    let st := s.live Reg.SYS_AON_PRES_STATE
    let s :=
      if st = 0 ∨ st = 3 then (s.setLive Reg.SYS_AON_PRES_STATE 1).setLive Reg.SYS_AON_PRES_REMAIN 0 else s
    .next (s.wakeEvent 0)

/-- PRESENCE_RELEASE: the debounced release after a hold of `hold` AONCLK cycles; from 2 s to 10 s it opens a
grant (R409). -/
def execPresenceRelease (hold : Nat) (s : State) : Res :=
  if !s.aon.xtal then .next s
  else
    let st := s.live Reg.SYS_AON_PRES_STATE
    if st = 1 then
      if 65536 ≤ hold ∧ hold ≤ 327680 then
        .next ((s.setLive Reg.SYS_AON_PRES_STATE 3).setLive Reg.SYS_AON_PRES_REMAIN 60)
      else .next (s.setLive Reg.SYS_AON_PRES_STATE 0)
    else if st = 2 then .next (s.setLive Reg.SYS_AON_PRES_STATE 0)
    else .next s

/-- PRESENCE_STUCK: a hold that is still asserted at its 327,680th cycle (R409). -/
def execPresenceStuck (s : State) : Res :=
  if s.live Reg.SYS_AON_PRES_STATE = 1 ∧ s.aon.xtal = true then .next (s.setLive Reg.SYS_AON_PRES_STATE 2) else .next s

/-- GRANT_EXPIRY: an open grant closes 60 s after the release that opened it (R409). -/
def execGrantExpiry (s : State) : Res :=
  if s.live Reg.SYS_AON_PRES_STATE = 3 then
    .next ((s.setLive Reg.SYS_AON_PRES_STATE 0).setLive Reg.SYS_AON_PRES_REMAIN 0)
  else .next s

/-! ### The real-time clock and the mirror -/

/-- SYS_RTC_SEC takes a value; taking the ALARM value is an alarm (R69, R463). (DESIGN CHOICE 28 of
notes/assumptions) -/
def State.takeSecond (s : State) (v : Nat) : State :=
  let s := (s.setLive Reg.SYS_RTC_SEC_SEC v).setLive Reg.SYS_RTC_SUB_SUB 0
  { s with aon := { s.aon with
      alarmDue := decide (s.live Reg.SYS_RTC_SEC_SEC = s.live Reg.SYS_RTC_ALARM_ALARM) } }

/-- RTC_SECOND: the count within the second is complete; an open grant has a second less to run (R75). (DESIGN
CHOICE 28 of notes/assumptions) -/
def execRtcSecond (s : State) : Res :=
  if !s.aon.xtal then .next s
  else
    let s := s.takeSecond ((s.live Reg.SYS_RTC_SEC_SEC + 1) % 2 ^ 32)
    .next (if s.live Reg.SYS_AON_PRES_STATE = 3 then
        s.setLive Reg.SYS_AON_PRES_REMAIN (s.live Reg.SYS_AON_PRES_REMAIN - 1)
      else s)

/-- RTC_SET: a host write of SYS_RTC_SEC (R75). (DEDUCED 29 of notes/assumptions) -/
def execRtcSet (p : Port) (v : W32) (s : State) : Res :=
  .next (s.hostLive p 0x108 v.toNat (fun s => s.mirrorWrite 0x108 v.toNat))

/-- A mirror write acts in the AON domain (R75). (DEDUCED 30 of notes/assumptions) -/
def State.mirrorAct (s : State) (a v : Nat) : State :=
  if a = 0x100 then
    let s := ((s.setLive Reg.SYS_AON_WAKEEN_PI0_POL (bitsOf v 12 1)).setLive
      Reg.SYS_AON_WAKEEN_CAN_SEL (bitsOf v 8 4)).setLive Reg.SYS_AON_WAKEEN_RTC (bitsOf v 4 1)
    let s := (s.setLive Reg.SYS_AON_WAKEEN_HOSTCS (bitsOf v 3 1)).setLive Reg.SYS_AON_WAKEEN_PI0 (bitsOf v 2 1)
    (s.setLive Reg.SYS_AON_WAKEEN_CAN (bitsOf v 1 1)).setLive Reg.SYS_AON_WAKEEN_PRESENCE (bitsOf v 0 1)
  else if a = 0x104 then
    let src := s.live Reg.SYS_AON_WAKESRC_SRC
    let s := s.setLive Reg.SYS_AON_WAKESRC_SRC (src - Nat.land src (bitsOf v 0 5))
    if bitOf v 5 then s.setLive Reg.SYS_AON_WAKESRC_COLD 0 else s
  else if a = 0x108 then s.takeSecond v
  else if a = 0x110 then s.setLive Reg.SYS_RTC_ALARM_ALARM v
  else s

/-- AON_MIRROR_ARRIVAL: the oldest mirror write in transit reaches the AON domain (R75). (DEDUCED 30 of
notes/assumptions) -/
def execAonMirrorArrival (s : State) : Res :=
  match s.aon.writes with
  | (a, v) :: rest =>
    if s.aon.xtal then
      let s := { s with aon := { s.aon with writes := rest } }
      let s := s.setLive Reg.SYS_AON_WAKEEN_BUSY (!rest.isEmpty).toNat
      .next (s.mirrorAct a.toNat v.toNat)
    else .next s
  | [] => .next s

/-! ### Supply and clock of the domain -/

/-- AON_SUPPLY_FAIL: VDD_AON is interrupted; the domain starts again from zero, with COLD and SEAL_BROKEN set,
and PWREN is low meanwhile, so the main supplies fall too. The AON domain then asserts PWREN as at a cold start
(R75, R410, R437, R439). (DEDUCED 26, 129 of notes/assumptions) -/
def execAonSupplyFail (s : State) : Res :=
  let t := { s with regs := s.regs.clearRange (0x100 * 8) (0x120 * 8), aon := ⟨[], false, s.aon.xtal, 0, 0⟩ }
  .next t.dropPwren.raisePwren

/-- AONCLK_LOSS: AONCLK stops, and the AON domain no longer asserts PWREN (R437). -/
def execAonclkLoss (s : State) : Res :=
  let s := ({ s with aon := { s.aon with xtal := false } }).setLive Reg.SYS_CLKSTAT_AON_XTAL_OK 0
  .next (if s.power.pwren then s.dropPwren else s)

/-- AONCLK_RETURN: AONCLK runs again (R437). (DEDUCED 26 of notes/assumptions) -/
def execAonclkReturn (s : State) : Res :=
  let s := { s with aon := { s.aon with xtal := true } }
  .next (if s.power.phase = .unpowered then s else s.setLive Reg.SYS_CLKSTAT_AON_XTAL_OK 1)

/-! ### Banks -/

/-- BANK_READY: an opened bank is ready 40 µs after its boundary. The edges that wait for it are issued in that cycle,
each with the wake-slip event; of those of one slice the last acts, and the slices take theirs in ascending index (R73,
R74, R273, R278). (DEDUCED 36 of notes/assumptions) -/
def execBankReady (b : Nat) (s : State) : Res :=
  let t := Tab.get 0 s.power.bankOpenAt b
  if s.rowsRun && decide (b < s.variant.banks) && decide (t ≠ 0) && !s.recordFirst t then
    let s := s.advanceTo t
    let s := { s with power := { s.power with bankOpenAt := Tab.put 0 s.power.bankOpenAt b 0 } }
    let s := s.setLive Reg.SYS_PWRSTAT_BANK_READY (withBit (s.live Reg.SYS_PWRSTAT_BANK_READY) b true)
    let due := sortBy (fun (x y : Waiting) => reachLe (x.slice, x.target, x.entry) (y.slice, y.target, y.entry))
      (s.dsl.waiting.filter (fun x => x.slice / 6 == b))
    let s := { s with dsl := { s.dsl with waiting := s.dsl.waiting.filter (fun x => x.slice / 6 != b) } }
    let s := due.foldl (fun (s : State) (x : Waiting) =>
      s.raise 4 (x.slice * 2 ^ 16 + min 65535 ((sdiff x.issue t).toNat / 64)) (floorTo 64 t)) s
    .next ((lastPer (fun (x : Waiting) => s.slLead x.slice) due).foldl (fun (s : State) (x : Waiting) =>
      s.sliceEdge x.slice x.on x.issue t) s)
  else .next s

end Sys2Proof.Machine
end

