-- ==== Sys2Proof/Machine/Record.lean ====
section
/-! DEFINITION. Following the admission record and the input log in a replay: the entries of the two
rings, the inputs that arrive from them, and the logged live writes (R40, R42, R98, R100, R101). -/

namespace Sys2Proof.Machine

/-- Row `a` comes before row `b`, modulo 2^32. -/
def rowBefore (a b : W32) : Bool := decide (0 < (b - a).toInt)

/-! ### Inputs -/

/-- A logged ring entry of CAN controller `c` arrives (R368, R374, R376). -/
def State.replayCan (s : State) (c : Nat) (x : Sample) : State :=
  let ctrl := leAt x.payload 0 4
  let info := leAt x.payload 16 4
  let k := s.live Reg.CAN_RXWR_WR c
  let s :=
    if bitOf ctrl 17 then
      (s.setLive Reg.CAN_RXRD_RD ((s.live Reg.CAN_RXRD_RD c + 1) % 2 ^ 32) c).bump Reg.CAN_RXSTAT_OVRCNT c
    else s
  let s := s.setWin (0x06010000 + 0x8000 * c + 96 * (k % 256)) ((padTo 96 x.payload).take 96)
  let s := s.setLive Reg.CAN_RXWR_WR ((k + 1) % 2 ^ 32) c
  let q := s.can c
  let q := { q with stamps := Tab.put 0 q.stamps (k % 65536) x.src }
  if bitOf ctrl 23 then
    let b := info % 32
    (s.setCan c { q with pend := q.pend.filter (· != b), busy := q.busy ++ [(b, BitVec.ofNat 32 k)] }).setLive
      Reg.CAN_TXST_ST (bitsOf info 8 4) c b
  else if bitOf ctrl 31 then
    let s := s.setCan c { q with news := q.news ++ [(BitVec.ofNat 32 k, info % 8)] }
    ((s.setLive Reg.CAN_ESTAT_STATE (info % 8) c).setLive Reg.CAN_ESTAT_TEC (bitsOf info 8 9) c).setLive
      Reg.CAN_ESTAT_REC (bitsOf info 24 8) c
  else s.setCan c q

/-- A logged ring entry of MAC `e` arrives (R381). -/
def State.replayEth (s : State) (e : Nat) (x : Sample) : State :=
  let ctrl := leAt x.payload 0 4
  let k := s.live Reg.ETH_RXWR_WR e
  let s :=
    if bitOf ctrl 17 then s.setLive Reg.ETH_RXRD_RD ((s.live Reg.ETH_RXRD_RD e + 1) % 2 ^ 32) e else s
  let s := s.setWin (0x06120000 + 0x10000 * e + 2048 * (k % 32)) ((padTo 2048 x.payload).take 2048)
  let s := s.setLive Reg.ETH_RXWR_WR ((k + 1) % 2 ^ 32) e
  let q := s.eth e
  let q := { q with stamps := Tab.put 0 q.stamps (k % 65536) x.src }
  if bitOf ctrl 18 then
    let t := bitsOf ctrl 24 4
    (s.setEth e { q with pend := q.pend.filter (· != t), busy := q.busy ++ [(t, BitVec.ofNat 32 k)] }).setLive
      Reg.ETH_TXST_ST 3 e t
  else if bitOf ctrl 19 then
    ((s.setEth e q).setLive Reg.ETH_LINK_UP (bitsOf ctrl 26 1) e).setLive Reg.ETH_LINK_SPEED (bitsOf ctrl 24 2) e
  else s.setEth e q

/-- A logged edge of pulse input `i` arrives: its count, its level and its line's last edge. In a pair the line is the
one whose level changes, and where both could, the one that the direction names (R385, R386). -/
def State.replayPulse (s : State) (i : Nat) (x : Sample) : State :=
  let bits := leAt x.payload 8 1
  let level := bitOf bits 0
  let onA :=
    if s.inQuad i then
      if s.flag Reg.SIN_PSTAT_LEVEL (i + 1) = level then true
      else if s.flag Reg.SIN_PSTAT_LEVEL i = level then false
      else bitOf bits 1
    else true
  let s := s.setPulse i ((s.pulse i).step onA level x.src)
  (s.setLive Reg.SIN_PCNT_CNT (leAt x.payload 4 4) i).setLive Reg.SIN_PSTAT_LEVEL level.toNat (if onA then i else i + 1)

/-- What a logged input does on its arrival beside entering its snapshot: ring entries, the level and count
of a pulse input, a trip, an epoch with its checks. (DEDUCED 77 of notes/assumptions) -/
def State.replayInput (s : State) (x : Sample) : State :=
  let cls := x.id.toNat / 2 ^ 16
  let i := x.id.toNat % 2 ^ 16
  match cls with
  | 1 => if i < 4 then s.replayCan i x else s
  | 2 => if i < 2 then s.replayEth i x else s
  | 4 =>
    if i < 24 then s.replayPulse i x else s
  | 7 =>
    let s := { s with gnb := { s.gnb with record := x.payload } }
    let sum := leAt x.payload 21 1
    if sum = 0 then s else (s.setLive Reg.GNB_EVT_CHECK 1).raise 47 sum x.adm
  | 10 => if leAt x.payload 0 1 % 2 = 1 then s.tripOn i x.src else s.tripOff i
  | _ => s

/-- The logged inputs whose admission stamp is at or before `t` arrive (R42, R368). (DEDUCED 77 of
notes/assumptions) -/
def State.replayInputs (s : State) (t : Stamp) : State :=
  ((s.inputsFrom s.rpl.inCursor).takeWhile (fun e => sAtOrBefore e.sample.adm t)).foldl
    (fun (s : State) (e : InEntry) =>
      { s.replayInput e.sample with rpl := { s.rpl with inCursor := e.next } }) s

/-! ### Live writes -/

/-- Registers of the rings and of the replay itself, whose logged writes served the recording (R101). -/
def replayOwn (a : Nat) : Bool := decide (0x00180000 ≤ a) && decide (a < 0x00180100)

/-- One logged live write takes effect at its stamp (R42). A shadow of a carrier group is logged with the stamp of
the reload that takes it, so it lands a cycle before (R244). (DESIGN CHOICE 76 of notes/assumptions) -/
def State.replayWrite (s : State) (e d : RecEntry) : State :=
  let a := d.stamp.toNat % 2 ^ 32
  let v := d.stamp.toNat / 2 ^ 32
  let p := if e.arg = 1 then Port.hpb else Port.hpa
  let s := s.replayInputs e.stamp
  let early := (shadowGroup a).isSome && !(decide (a < 0x03004000) && decide (v < 1024))
  if replayOwn a then s else s.storeWrite (.host p) a v (if early then e.stamp - 64 else e.stamp)

/-- Goes on through the entries of ring 0, applying the logged live writes that are due, up to the first that
is not. (DESIGN CHOICE 76 of notes/assumptions) -/
def State.replayWrites (t : Stamp) : List (Nat × RecEntry) → State → State
  | [], s => s
  | [(i, e)], s => if e.kind = 8 then s else { s with rpl := { s.rpl with cursor := i + 1 } }
  | (i, e) :: d :: rest, s =>
    if e.kind = 8 then
      if sAtOrBefore e.stamp t then
        let s := s.replayWrite e d.2
        State.replayWrites t (d :: rest) { s with rpl := { s.rpl with cursor := i + 2 } }
      else s
    else State.replayWrites t (d :: rest) { s with rpl := { s.rpl with cursor := max s.rpl.cursor (i + 1) } }

/-- In a replay, what the record and the input log bring up to stamp `t` (R42). (DESIGN CHOICE 76 of
notes/assumptions) -/
def State.follow (s : State) (t : Stamp) : State :=
  if s.rpl.on && s.rowsRun then
    (State.replayWrites t (s.recFrom s.rpl.cursor) s).replayInputs t
  else s

/-! ### Boundaries -/

/-- A replay stops: rows end, and the capture ring stays readable; a GO whose bind-off is still under way is
forgotten (R101). (DEDUCED 78 of notes/assumptions) -/
def State.stopReplay (s : State) (code : Nat) : State :=
  ({ s with power := { s.power with phase := .replayEnded } }).setLive Reg.DXC_RPL_STAT_STATE code

/-- The samples that the record admits in a row, from the input log; none if one is missing there (R42,
R101). -/
def State.replaySamples (s : State) (row : W32) : Option (List Sample) :=
  let log := (s.inputsFrom (s.live Reg.DXC_RING_RD_RD 1)).map (fun e => e.sample)
  (s.recOf 1 row).foldr (fun e acc =>
    match acc, log.find? (fun x => x.src == e.stamp && x.id.toNat == e.arg) with
    | some l, some x => some ({ x with row := row } :: l)
    | _, _ => none) (some [])

/-- The logged samples of a row that loop units may use before their snapshot (R294, R309). -/
def State.replayRecent (s : State) (row : W32) : State :=
  ((s.inputsFrom (s.live Reg.DXC_RING_RD_RD 1)).filter (fun e => e.sample.row == row)).foldl
    (fun (s : State) (e : InEntry) => s.keepRecent e.sample s.row.cur) s

/-- The entry that a LOST_OVERRUN record with a stamp names: the oldest one that the snapshot offers with that stamp and
that no earlier record of the row names, in a ring of `n` slots between RD and WR (R40, R369). (DEDUCED 77 of
notes/assumptions) -/
def lostEntry (n rd wr : Nat) (stamp : Stamp) (stamps : Tab Stamp) (named : List (Nat × W32)) : List (Nat × W32) :=
  let ks := (List.range (min n ((wr + 2 ^ 32 - rd) % 2 ^ 32))).map (fun j => (rd + j) % 2 ^ 32)
  (ks.find? (fun k => Tab.get 0 stamps (k % 65536) == stamp && !named.contains (0, BitVec.ofNat 32 k))).toList.map
    (fun k => (0, BitVec.ofNat 32 k))

/-- The slots that the record marks lost in a row (R42, R369). -/
def State.replayLost (s : State) (row : W32) : State :=
  (s.recOf 3 row).foldl (fun (s : State) (e : RecEntry) =>
    let i := e.arg % 2 ^ 16
    let shown := fun (f : Fld) => (f.get s.snap.regs i 0).toNat
    if e.arg / 2 ^ 16 = 1 then
      let q := s.can i
      let l := lostEntry 256 (shown Reg.CAN_RXRD_RD) (shown Reg.CAN_RXWR_WR) e.stamp q.stamps q.lost
      s.setCan i { q with lost := q.lost ++ l }
    else if e.arg / 2 ^ 16 = 2 then
      let q := s.eth i
      let l := lostEntry 32 (shown Reg.ETH_RXRD_RD) (shown Reg.ETH_RXWR_WR) e.stamp q.stamps q.lost
      s.setEth i { q with lost := q.lost ++ l }
    else s) s

/-- The read indices of the fed rings move past what the boundary of a row has used. (DEDUCED 77 of
notes/assumptions) -/
def State.replayRead (s : State) (row : W32) : State :=
  let used0 := ((s.recFrom (s.live Reg.DXC_RING_RD_RD 0)).takeWhile (fun x =>
    rowBefore x.2.row row && decide (x.1 < s.rpl.cursor))).length
  let s := s.setLive Reg.DXC_RING_RD_RD ((s.live Reg.DXC_RING_RD_RD 0 + used0) % 2 ^ 32) 0
  match ((s.inputsFrom (s.live Reg.DXC_RING_RD_RD 1)).takeWhile (fun e => !rowBefore row e.sample.row)).getLast? with
  | some e => s.setLive Reg.DXC_RING_RD_RD (e.next % 2 ^ 32) 1
  | none => s

end Sys2Proof.Machine
end

