-- ==== Sys2Proof/Machine/Carrier.lean ====
section
/-! DEFINITION. The period starts of the carriers, at which a replay applies what the record holds up to then
(R42, R240). -/

namespace Sys2Proof.Machine

/-- PERIOD_START: the carrier of group `g` reaches its period start (R240, R244 to R250, R257). -/
def execPeriodStart (g : Nat) (s : State) : Res :=
  match s.nextPeriod g with
  | none => .next s
  | some p => .next (((s.advanceTo p).follow p).untilStop g p (fun (s : State) => s.startPeriod g p))

end Sys2Proof.Machine
end

