-- ==== Sys2Proof/Machine/Host.lean ====
section
/-! DEFINITION. The commands of the host ports: framing and modes (R392, R393), what a read of each part of
the address map returns (R10 to R13, R394, R396, R460), and where written words land (R395, R401). -/

namespace Sys2Proof.Machine

/-! ### Reads of register space -/

/-- The counters that run between boundaries as they stand now: on-times, holdover time and uncertainty (R276, R325,
R327). -/
def State.showCounters (s : State) : State := s.showOnTime.gnbShow s.now

/-- The value a host read of port `p` shows of one live element (R11, R396): write-only fields read 0, and
a staging register shows the port's own copy, except that the pose registers show the pose in force. (DEDUCED 38 of
notes/assumptions) -/
def State.elemSeen (s : State) (p : Port) (a : Nat) (x : Nat × Fld × Nat × Nat) : Nat :=
  match x.2.1.acc with
  | .lwo => 0
  | .lrw =>
    if stagedReg a && !(decide (0x02000100 ≤ a) && decide (a < 0x02000120)) then
      s.staged (.host p) x.2.1 x.2.2.1 x.2.2.2
    else s.live x.2.1 x.2.2.1 x.2.2.2
  | _ => s.live x.2.1 x.2.2.1 x.2.2.2

/-- The slot that a host read of S-RW fields through a port shows (R460). (DEDUCED 45 of notes/assumptions) -/
def State.viewed (s : State) (p : Port) : Image :=
  if s.flag Reg.HP_CFG_SVIEW p.idx then s.skn.act else s.skn.stg

/-- The word of plain register fields at an address (R10, R11, R13, R460). (DEDUCED 29, 38 of notes/assumptions) -/
def State.fieldWord (s : State) (p : Port) (a : Nat) : Nat :=
  let m := s.viewed p
  (liveFields a).foldl (fun v x => v + s.elemSeen p a x * 2 ^ x.1) 0 +
    (stagedFields a).foldl (fun v x => v + (x.2.1.get m.flds x.2.2.1 x.2.2.2).toNat * 2 ^ x.1) 0

/-- The word at an address of the needle-bed window, by its own view (R140). -/
def State.nodeSeen (s : State) (i j : Nat) : Nat :=
  if s.variant.nodes ≤ i then 0
  else if s.flag Reg.NB_WIN_VIEW then s.nodeWord i j
  else s.skn.stg.nodeWord i j

/-- Word `j` of an edge queue entry as the queue window shows it (R193). -/
def QEntry.word (e : QEntry) (j : Nat) : Nat :=
  match j with
  | 0 => e.target.toNat % 2 ^ 32
  | 1 => e.target.toNat / 2 ^ 32
  | 2 => e.issue.toNat % 2 ^ 32
  | 3 => e.issue.toNat / 2 ^ 32
  | 4 => e.node % 2 ^ 17
  | 5 =>
    let st := match e.st with
      | .free => 0
      | .spec => 1
      | .held => 2
      | .committed => 3
      | .landed => 4
    e.value.toNat +
      2 ^ 24 * (st + 8 * e.prog.toNat + 16 * e.late.toNat + 32 * e.comp.toNat + 64 * e.slip.toNat + 128 * e.nofb.toNat)
  | 6 => e.actual.toNat % 2 ^ 32
  | _ => e.actual.toNat / 2 ^ 32

/-- A word of bytes of a table. -/
def tabWord (t : Tab Byte) (k : Nat) : Nat := leNat ((List.range 4).map (fun i => Tab.get 0 t (k + i)))

/-- The words of the windows that hold no register fields; none elsewhere (R77, R193, R316, R330, R343,
R354, R365, R371, R381, R401, R413, R420). (DEDUCED 45 of notes/assumptions) -/
def State.windowWord (s : State) (p : Port) (a : Nat) : Option Nat :=
  let w := s.windows
  match nodeWindow w.node a, progWindow w a, tableMask s.variant a with
  | some (i, j), _, _ => some (s.nodeSeen i j)
  | _, some k, _ => some (if w.core < s.variant.cores then tabWord s.skn.stg.prog k else 0)
  | _, _, some _ => some ((s.viewed p).word a)
  | none, none, none =>
    if (canRing a).isSome || (canTx a).isSome || (ethRing a).isSome || (ethTx a).isSome then some (s.winWord a)
    else if 0x02200000 ≤ a ∧ a < 0x02300000 then
      some ((s.entry ((a - 0x02200000) / 32)).word ((a - 0x02200000) / 4 % 8))
    else if 0x04000180 ≤ a ∧ a < 0x040001C0 then some (Tab.get 0 s.gnb.marks ((a - 0x04000180) / 4)).toNat
    else if 0x04010000 ≤ a ∧ a < 0x04018000 then some (leAt s.snap.epoch (a - 0x04010000) 4)
    else if 0x05080000 ≤ a ∧ a < 0x050C0000 then some (Tab.get 0 s.fge.tracks ((a - 0x05080000) / 4)).toNat
    else if 0x01000000 ≤ a ∧ a < 0x01200000 then
      some (s.localWord ((a - 0x01000000) / 0x40000) ((a - 0x01000000) % 0x40000))
    else if 0x08002000 ≤ a ∧ a < 0x08004000 then some (tabWord s.boot.loaded (a - 0x08002000))
    else if (0x08000100 ≤ a ∧ a < 0x08000200) ∨ (0x08004000 ≤ a ∧ a < 0x08006000) then some (s.winWord a)
    else none

/-- A read of SYS_RTC_SUB: the count of AONCLK cycles has gone on by a free number since it was last seen or cleared, and
stays below the second's 32,768; it stands while AONCLK does (R75). (DESIGN CHOICE 28 of notes/assumptions) -/
def State.readSub (s : State) : State × W32 :=
  let v := s.live Reg.SYS_RTC_SUB_SUB
  let n := if s.aon.xtal then v + (Config.freeWord s.draws).toNat % (32768 - v) else v
  (s.drawn.setLive Reg.SYS_RTC_SUB_SUB n, BitVec.ofNat 32 n)

/-- The word at an address of register space or of a local memory, with what the read changes (R7, R9, R52,
R75, R95). -/
def State.busWord (s : State) (p : Port) (a : Nat) : State × W32 :=
  if !busPresent s.variant a then (s, 0)
  else if a = 0 then (s, BitVec.ofNat 32 s.variant.sysId)
  else if a = 4 then (s, BitVec.ofNat 32 s.variant.sysFuse)
  else if a = 0x20 then s.readDtLo p
  else if a = 0x24 then (s, Tab.get 0 s.time.latch p.idx)
  else if a = 0x10C then s.readSub
  else
    match wordIdx a 0x001001C4 0x10000 8 with
    | some c => (s, BitVec.ofNat 32 (s.dbgRead c))
    | none =>
      match s.windowWord p a with
      | some v => (s, BitVec.ofNat 32 v)
      | none => (s, BitVec.ofNat 32 (s.showCounters.fieldWord p a))

/-! ### Reads of DRAM -/

/-- Some directory entry of a layer names the tile that holds a DRAM offset. -/
def State.tileNamed (s : State) (y : Layer) (off : Nat) : Bool :=
  let size := y.tileSize
  (s.fab.dram.range y.dir (y.dir + 4 * (y.cols * y.rows))).any (fun x =>
    decide ((x.1 - y.dir) % 4 = 3) &&
      (let w := leNat (s.dramBytes (x.1 - 3) 4)
       entryGood w && decide (y.tileOff w ≤ off) && decide (off < y.tileOff w + size)))

/-- The offset lies in the directory of an enabled layer or in a tile that it names (R234). -/
def State.inLayer (s : State) (l off : Nat) : Bool :=
  let y := s.layer l
  y.en && ((decide (y.dir ≤ off) && decide (off < y.dir + 4 * (y.cols * y.rows))) || s.tileNamed y off)

/-- The offset lies in an installed tile, in one that a swap of this row's boundary has replaced, or in a directory in
force (R231, R234). -/
def State.installed (s : State) (off : Nat) : Bool :=
  s.fab.leaving.any (fun x => decide (x.1 ≤ off) && decide (off < x.1 + x.2)) ||
    (List.range 12).any (fun l => s.inLayer l off)

/-- The offset is one whose content, read directly, is undefined: in an installed tile or a directory while rows
run, the linger excepted, and there too in a layer that a transfer has overwritten (R234). (DEDUCED 43 of
notes/assumptions) -/
def State.shielded (s : State) (off : Nat) : Bool :=
  s.rowsRun && s.installed off && (decide (s.power.bind ≠ .linger) || s.fab.spoiled.any (fun l => s.inLayer l off))

/-- An outbound transfer has overwritten part of the directory or of a tile of some layers: what the device finds there is
undefined until a commit redefines them (R128, R234). (DEDUCED 43 of notes/assumptions) -/
def State.spoil (s : State) (off n : Nat) : State :=
  let hit := (List.range 12).filter (fun l => !s.fab.spoiled.contains l && (List.range n).any (fun k => s.inLayer l (off + k)))
  if s.rowsRun then { s with fab := { s.fab with spoiled := s.fab.spoiled ++ hit } } else s

/-- Bytes laid into DRAM one after another, a free value in place of each whose offset is in `bad`. (DEDUCED 43 of
notes/assumptions) -/
def State.layBytes (bad : Nat → Bool) (s : State) (off : Nat) : List Byte → State
  | [] => s
  | b :: t =>
    State.layBytes bad
      (if bad off then s.drawn.setDramByte off ((Config.freeWord s.draws).truncate 8) else s.setDramByte off b)
      (off + 1) t

/-- The first byte of skein slot `k`, of 32 MiB (R400). -/
def State.slotAt (s : State) (k : Nat) : Nat := s.live Reg.SKN_BASE_BASE * 4096 + k * 2 ^ 25

/-- The offset lies in a skein slot of a device that has cast on: its byte there is the skein's, in a layout that the spec
does not give (R400). (DEDUCED 32 of notes/assumptions) -/
def State.inSlots (s : State) (off : Nat) : Bool :=
  s.flag Reg.SYS_PWRSTAT_CAST_DONE && decide (s.slotAt 0 ≤ off) && decide (off < s.slotAt 3)

/-- The skein of an overwritten slot: some of its words are others, the rule does not say which (R128, R400).
(DEDUCED 32 of notes/assumptions) -/
def Image.scribbled (m : Image) (v : Variant) (n : Nat) : Image :=
  (Config.slotWrites n).foldl (fun (m : Image) (x : Nat × Nat × Nat × Nat × Nat) =>
    m.stagingWrite v ⟨x.1, x.2.1, x.2.2.1⟩ x.2.2.2.1 x.2.2.2.2) m

/-- Bytes are written in `n` bytes of DRAM from `off`: a skein slot that they reach no longer holds what it held, in
whichever role it stands (R128, R400). (DEDUCED 32 of notes/assumptions) -/
def State.scribble (s : State) (off n : Nat) : State :=
  let hit := fun (k : Nat) => s.flag Reg.SYS_PWRSTAT_CAST_DONE && decide (0 < n) && decide (off < s.slotAt (k + 1)) &&
    decide (s.slotAt k < off + n)
  let new := fun (m : Image) (k i : Nat) => if hit k then m.scribbled s.variant (s.draws + i) else m
  if hit 0 || hit 1 || hit 2 then
    { s with
      skn := { s.skn with
        act := new s.skn.act (s.live Reg.SKN_SLOTS_ACT) 0, prv := new s.skn.prv (s.live Reg.SKN_SLOTS_PRV) 1
        stg := new s.skn.stg (s.live Reg.SKN_SLOTS_STG) 2 }
      draws := s.draws + 3 }
  else s

/-- Bytes that a host or an outbound transfer writes in DRAM. What reaches an installed tile or a directory while
rows run leaves every later result undefined: there each byte becomes a free value; what reaches a skein slot changes the
skein (R128, R234, R400). (DEDUCED 32, 43 of notes/assumptions) -/
def State.placeBytes (s : State) (off : Nat) (l : List Byte) : State :=
  (s.layBytes s.shielded off l).scribble off l.length

/-- The offset lies in the buffer of the fused grid that the engine is writing (R346). (DEDUCED 43 of
notes/assumptions) -/
def State.underWrite (s : State) (off : Nat) : Bool :=
  let h := s.shape
  let size := h.gw * h.gh * 128
  let base := s.conf Reg.FGE_GBASE_BASE * 4096 + (1 - s.live Reg.FGE_STAT_BUF) * size
  s.fge.out.isSome && decide (base ≤ off) && decide (off < base + size)

/-- A word of DRAM as a host reads it: undefined inside installed tiles and directories while rows run, the
linger excepted, and in a grid buffer under write; in a skein slot not stated (R234, R346, R400). (DEDUCED 32, 43 of
notes/assumptions) -/
def State.dramWord (s : State) (off : Nat) : State × W32 :=
  if s.shielded off || s.underWrite off || s.inSlots off then
    (s.drawn, Config.freeWord s.draws)
  else (s, BitVec.ofNat 32 (leNat (s.dramBytes off 4)))

/-- A bus address whose content lies in DRAM: a cold node of the needle-bed window, or a ring window (R161,
R394). (DEDUCED 42 of notes/assumptions) -/
def State.busInDram (s : State) (a : Nat) : Bool :=
  (canRing a).isSome || (ethRing a).isSome ||
    (match nodeWindow s.windows.node a with
     | some (i, _) => decide (16384 ≤ i) && decide (i < s.variant.nodes)
     | none => false)

/-- One word of a READ. In 1S-1S-1S a word in DRAM reads 0 and sets SLOWRD (R394). (DEDUCED 42, 44 of
notes/assumptions) -/
def State.readWord (s : State) (p : Port) (a : HostAddr) (i : Nat) : State × W32 :=
  let octal := s.flag Reg.HP_CFG_OCT p.idx
  match a with
  | .dram off => if octal then s.dramWord (off + 4 * i) else (s.setLive Reg.HP_STAT_SLOWRD 1 p.idx, 0)
  | .bus b =>
    let x := (b.toNat + 4 * i) % 2 ^ 32
    if !octal && s.busInDram x then (s.setLive Reg.HP_STAT_SLOWRD 1 p.idx, 0) else s.busWord p x

/-! ### Writes -/

/-- One word that a host writes in register space: S-RW fields go to STAGING, live ones take effect at the
landing and are logged, and local memory takes it while its core is halted (R78, R395, R401). (DEDUCED 46 of
notes/assumptions) -/
def State.hostWord (s : State) (p : Port) (a v : Nat) : State :=
  let s := if stagingAt s.variant a && s.busUp && busPresent s.variant a then s.stageWrite a v else s
  if 0x01000000 ≤ a ∧ a < 0x01200000 then
    if s.busUp && busPresent s.variant a then
      s.localWrite ((a - 0x01000000) / 0x40000) ((a - 0x01000000) % 0x40000) (bytesLE 4 v)
    else s
  else if liveAt a then
    let f : State → State := fun s => s.regWrite (.host p) a v (floorTo 64 s.now)
    match shadowGroup a with
    | some g => s.hostShadow p g a v f
    | none => s.hostLive p a v f
  else s

/-- The words of a WRITE, in order of address. (DEDUCED 39 of notes/assumptions) -/
def State.hostWords (s : State) (p : Port) (a : HostAddr) (ws : List W32) : State :=
  match a with
  | .bus b => ws.zipIdx.foldl (fun (s : State) (x : W32 × Nat) =>
      s.hostWord p ((b.toNat + 4 * x.2) % 2 ^ 32) x.1.toNat) s
  | .dram off => s.placeBytes off (ws.flatMap (fun w => bytesLE 4 w.toNat))

/-! ### Framing -/

/-- An address whose bits 1:0 are 0. -/
def addrAligned : HostAddr → Bool
  | .bus a => decide (a.toNat % 4 = 0)
  | .dram off => decide (off % 4 = 0)

/-- A command is served while the bus is up (R66, R71); one that does not arrive as it is listed is ignored and sets
BADCMD: in 8D-8D-8D a pair that does not match, in 1S-1S-1S an opcode byte that is not one of the table's (R393).
(DEDUCED 40 of notes/assumptions) -/
def State.served (s : State) (p : Port) (pairOk : Bool) (f : State → State) : State :=
  if !s.busUp then s
  else if !pairOk then s.setLive Reg.HP_STAT_BADCMD 1 p.idx
  else f s

/-- A command with an address: a misaligned one is ignored and sets ALIGN (R393). (DEDUCED 40 of notes/assumptions)
-/
def State.servedAt (s : State) (p : Port) (pairOk : Bool) (a : HostAddr) (f : State → State) : State :=
  s.served p pairOk (fun s => if (addrAligned a) then f s else s.setLive Reg.HP_STAT_ALIGN 1 p.idx)

/-- READ: `n` words from an address (R393, R394). -/
def execRead (p : Port) (pairOk : Bool) (a : HostAddr) (n : Nat) (s : State) : Res :=
  .next (s.servedAt p pairOk a (fun s =>
    let r := (List.range n).foldl (fun (q : State × List W32) i =>
      let x := q.1.readWord p a i
      (x.1, x.2 :: q.2)) (s, [])
    r.1.answer p r.2.reverse))

/-- WRITE: the complete words from an address on; an incomplete last word is discarded and sets PARTIAL
(R393, R395). (DEDUCED 39 of notes/assumptions) -/
def execWrite (p : Port) (pairOk : Bool) (a : HostAddr) (ws : List W32) (partialWord : Bool) (s : State) : Res :=
  .next (s.servedAt p pairOk a (fun s =>
    let s := s.hostWords p a ws
    if partialWord then s.setLive Reg.HP_STAT_PARTIAL 1 p.idx else s))

/-- HP_STAT as a word. -/
def State.portStat (s : State) (i : Nat) : Nat :=
  s.live Reg.HP_STAT_BADCMD i + 2 * s.live Reg.HP_STAT_ALIGN i + 4 * s.live Reg.HP_STAT_PARTIAL i +
    8 * s.live Reg.HP_STAT_SLOWRD i

/-- RDSR: HP_STAT bits 15:0 (R393). -/
def execRdsr (p : Port) (pairOk : Bool) (s : State) : Res :=
  .next (s.served p pairOk (fun s => s.answer p [BitVec.ofNat 32 (s.portStat p.idx)]))

/-- RDID: SYS_ID (R9, R393). -/
def execRdid (p : Port) (pairOk : Bool) (s : State) : Res :=
  .next (s.served p pairOk (fun s => s.answer p [BitVec.ofNat 32 s.variant.sysId]))

/-- ENTER_8D: a command of 1S-1S-1S; the port is in 8D-8D-8D from the next command (R392, R393). (DEDUCED 41 of
notes/assumptions) -/
def execEnter8d (c : PortCommand) (s : State) : Res :=
  .next (s.served c.port c.pairOk (fun s => s.setLive Reg.HP_CFG_OCT 1 c.port.idx))

/-- EXIT_8D: a command of 8D-8D-8D; the port is in 1S-1S-1S from the next command (R392, R393). (DEDUCED 41 of
notes/assumptions) -/
def execExit8d (p : Port) (pairOk : Bool) (s : State) : Res :=
  .next (s.served p pairOk (fun s => s.setLive Reg.HP_CFG_OCT 0 p.idx))

/-! ### Single writes -/

/-- REGISTER_WRITE: a host write of one word; each field of it takes effect by its access code (R11). -/
def execRegisterWrite (p : Port) (a v : W32) (s : State) : Res :=
  .next (s.servedAt p true (.bus a) (fun s => s.hostWords p (.bus a) [v]))

/-- HEARTBEAT: a host write of the port's HP_HB (R421). -/
def execHeartbeat (p : Port) (v : W32) (s : State) : Res :=
  .next (s.hostWord p (0x20008 + 0x100 * p.idx) v.toNat)

/-- SAFE_CLEAR: a host write of HP_SAFE.CLR (R423). -/
def execSafeClear (p : Port) (s : State) : Res := .next (s.hostWord p 0x20804 (2 ^ 31))

/-- EVENT_RAISE_HOST: a host write of EVT_RAISE (R427). -/
def execEventRaiseHost (p : Port) (mask : W32) (s : State) : Res := .next (s.hostWord p 0x40C00 mask.toNat)

/-- EVENT_PEND_CLEAR: a host write of 1 to bits of EVT_PEND of port `q` (R426). -/
def execEventPendClear (p q : Port) (w : Nat) (mask : W32) (s : State) : Res :=
  if w < 4 then .next (s.hostWord p (0x40200 + 0x10 * q.idx + 4 * w) mask.toNat) else .next s

/-! ### DRAM transfers of cores -/

/-- The tiles that the swaps of the boundary before have replaced are the host's again, but for one that a directory
still names: their cache lines are dropped (R231, R235). (DEDUCED 132 of notes/assumptions) -/
def State.releaseTiles (s : State) : State :=
  let s' := { s with fab := { s.fab with leaving := [] } }
  s.fab.leaving.foldl (fun (s : State) (x : Nat × Nat) =>
    if s.installed x.1 then s else s.dropLines x.1 x.2) s'

/-- Bytes of DRAM as a transfer reads them: a free value in place of each whose content is undefined or not stated
(R234, R346, R400). (DEDUCED 32, 43 of notes/assumptions) -/
def State.takeBytes (s : State) (off : Nat) : Nat → State × List Byte
  | 0 => (s, [])
  | n + 1 =>
    let q := if s.shielded off || s.underWrite off || s.inSlots off then (s.drawn, (Config.freeWord s.draws).truncate 8)
      else (s, s.dramByte off)
    let r := State.takeBytes q.1 (off + 1) n
    (r.1, q.2 :: r.2)

/-- Completes a transfer: an outbound one stands in DRAM, and an inbound one has read it (R88). -/
def State.finishMove (s : State) (c i : Nat) : State :=
  let k := s.core c
  match k.moves.find? (fun (m : Move) => decide (m.index = i) && decide (m.stat = 2)) with
  | none => s
  | some m =>
    let q := if m.out then (s, m.data) else s.takeBytes m.off m.len
    let m' := { m with stat := 1, data := q.2 }
    let s := q.1.setCore c { k with moves := k.moves.map (fun x => if x.index = i then m' else x) }
    if m.out then (s.spoil m.off m.data.length).placeBytes m.off m.data else s

/-- XFER_COMPLETE: transfer `i` of core `c` finishes during its row, after the earlier ones (R88). -/
def execXferComplete (c i : Nat) (s : State) : Res :=
  let first := !(s.core c).moves.any (fun (m : Move) => decide (m.index < i) && decide (m.stat = 2))
  if s.rowsRun && decide (c < 8) && first then .next (s.finishMove c i) else .next s

end Sys2Proof.Machine
end

