-- ==== Sys2Proof/Machine/Outputs.lean ====
section
/-! DEFINITION. What a boundary does with the outputs and requests of programs: the outputs of step 3, the
requests served there, the replies and transfers of the row before, and the mailbox areas (R25, R29, R85, R88
to R91, R126 to R130, R160). -/

namespace Sys2Proof.Machine

/-! ### Serving requests -/

/-- Queues a reply that lands at the next boundary (R85). -/
def State.postReply (s : State) (c : Nat) (r : Reply) : State :=
  let k := s.core c
  s.setCore c { k with replies := k.replies ++ [r] }

/-- A node query: the record as at this boundary, or REFUSED for a node that is not defined (R126). (DEDUCED 63 of
notes/assumptions) -/
def State.serveNqry (s : State) (c node reply : Nat) : State :=
  let row := bytesLE 4 s.row.num.toNat
  let bytes :=
    if node < s.variant.nodes ∧ (s.node node).kind ≠ 0 then
      bytesLE 4 1 ++ row ++ (List.range 16).flatMap (fun j => bytesLE 4 (s.nodeWord node j))
    else bytesLE 4 3 ++ row
  s.postReply c ⟨reply, bytes, bytesLE 4 2, 12⟩

/-- One point of a fabric probe: its result word, as PLE probes of this row see the cell (R127). -/
def State.probePoint (s : State) (l : Nat) (p : W32 × W32) : State × Nat :=
  let u : Int := 10 * (s.layer l).c
  let s := (s.cellLines l (p.1.toInt / u) (p.2.toInt / u)).foldl (fun (s : State) (n : Nat) => s.touch (4096 * n)) s
  let q := s.probeCell l (p.1.toInt / u) (p.2.toInt / u)
  let s := match q.2 with
    | some e => s.dirFault l e
    | none => s
  (s, match q.1 with
    | some v => v
    | none => 2 ^ 31)

/-- A fabric probe, or REFUSED for a layer that is not enabled (R127). (DEDUCED 63 of notes/assumptions) -/
def State.serveFprb (s : State) (c layer reply : Nat) (pts : List (W32 × W32)) : State :=
  let row := bytesLE 4 s.row.num.toNat
  let l := if layer < 4 then layer else layer - 12
  if (s.layer l).en then
    let r := pts.foldl (fun (q : State × List Byte) (p : W32 × W32) =>
      let x := q.1.probePoint l p
      (x.1, q.2 ++ bytesLE 4 x.2)) (s, [])
    r.1.postReply c ⟨reply, bytesLE 4 1 ++ row ++ r.2, bytesLE 4 2, 12⟩
  else s.postReply c ⟨reply, bytesLE 4 3 ++ row, bytesLE 4 2, 12⟩

/-- A transfer is issued: outbound data are copied now (R88). -/
def State.postMove (s : State) (c i : Nat) (refused out : Bool) (off loc len : Nat) : State :=
  let k := s.core c
  let data := if out && !refused then k.bytes loc len else []
  s.setCore c { k with moves := k.moves ++ [⟨i, out, off, loc, len, data, if refused then 3 else 2⟩] }

/-! ### Outputs -/

/-- The register belongs to a channel, slice or loop unit that the old skein enabled and the new one does not
(R24). -/
def Image.drops (old new : Image) (a : Nat) : Bool :=
  let gone := fun (f : Fld) (i : Nat) => decide (old.fld f i = 1) && decide (new.fld f i = 0)
  if 0x03004000 ≤ a ∧ a < 0x03008000 then gone Reg.ETU_GCFG_EN ((a - 0x03004000) / 0x200)
  else if 0x03101000 ≤ a ∧ a < 0x03101C00 then gone Reg.DSL_SCFG_EN ((a - 0x03101000) / 0x40)
  else if 0x03201000 ≤ a ∧ a < 0x03203000 then gone Reg.CLE_LCFG_EN ((a - 0x03201000) / 0x80)
  else false

/-- One output or request of core `c` at step 3 (R24, R25, R29, R85). A core that reloads loses its node queries,
probes, semaphore takes and inbound transfers (R91). (DEDUCED 81 of notes/assumptions) -/
def State.performOut (s : State) (old : Image) (reload : Bool) (c : Nat) (o : Out) : State :=
  match o with
  | .store a v =>
    if old.drops s.skn.act a.toNat then s.raiseNow 5 c
    else
      let s :=
        if liveAt a.toNat then s.capture 3 (a.toNat + 2 ^ 32 * v.toNat) s.row.num.toNat c else s
      s.storeWrite (.core c) a.toNat v.toNat s.fStamp
  | .evr e => s.raiseNow e c
  | .ereq t ep v => s.ereq c t ep v
  | .ncmd code i arg => s.nodeCommand c code.toNat i arg
  | .nqry i reply => if reload then s else s.serveNqry c i reply
  | .fprb l reply pts => if reload then s else s.serveFprb c l reply pts
  | .xfer i refused out off loc len => if reload && !out then s else s.postMove c i refused out off loc len
  | .semt n reply =>
    if reload then s
    else
      let r := s.semtAct c n
      r.1.postReply c ⟨reply, bytesLE 4 r.2, [], 0⟩
  | .semr n => s.semRelBy (.core c) n
  | .msg d body =>
    let k := s.core d
    s.setCore d { k with coreMsgs := k.coreMsgs ++ [(s.row.prev, 0x10 + c, body)] }

/-- The output is a write of 1 to the core's DXC_MBO_CTL.VALID (R90). -/
def Out.posts (c : Nat) : Out → Bool
  | .store a v => decide (a.toNat = coreBase c + 0x140) && v.getLsbD 0
  | _ => false

/-- In a replay a LATE_CORE entry of the row that has ended discards a core's outputs (R42). -/
def State.lateCore (s : State) (c : Nat) (row : W32) : Bool :=
  s.rpl.on && (s.recOf 5 row).any (fun e => e.arg == c)

/-- The outputs of core `c` at step 3, in program order, then its mailbox posts (R25, R90); `row` is the row
they come from. Those of a task that a halt has interrupted stay until its row ends (R94). -/
def State.coreOutputs (s : State) (old : Image) (row : W32) (c : Nat) : State :=
  let k := s.core c
  let s :=
    if k.done && !s.lateCore c row then
      let s := k.outs.foldl (fun (s : State) (o : Out) => s.performOut old k.reload c o) s
      (k.outs.filter (Out.posts c)).foldl (fun (s : State) (_ : Out) => s.mailSend c) s
    else s
  if k.run = .idle then s.setCore c (s.core c).discard else s

/-! ### Replies and transfers -/

/-- A reply that was due lands, late or not: a late one shows LATE in its status word, and is logged and
raised with the first unevaluated node of the last late pass; before any pass was late the spec names no node (R85,
R192, R424). (DEDUCED 62 of notes/assumptions) -/
def State.landReply (s : State) (c : Nat) (r : Reply) (late : Bool) : State :=
  if late then
    let s := s.setCore c ((s.core c).putBytes r.addr r.late)
    let arg := if s.flag Reg.PLE_NEXT_VALID then s.live Reg.PLE_NEXT_NODE else (Config.freeWord s.draws).toNat % 2 ^ 24
    (s.drawn.logLateEngine r.ev).raiseNow r.ev arg
  else s.setCore c ((s.core c).putBytes r.addr r.bytes)

/-- Whether a reply is late (R85): a semaphore's never is. In a live run the spec does not fix it; in a replay the
last `n` of the row's replies are, `n` being the record's LATE_ENGINE entries (R42). (DESIGN CHOICE 61 of
notes/assumptions) -/
def State.replyLate (s : State) (r : Reply) (place n : Nat) : Bool :=
  decide (r.ev ≠ 0) && (if s.rpl.on then decide (n ≤ place) else !Config.inTime s.draws)

/-- The replies of all cores that were due at this boundary land, in order (R85). (DESIGN CHOICE 61 of
notes/assumptions) -/
def State.landReplies (s : State) (due : List (Nat × Reply)) : State :=
  let open_ := (due.filter (fun x => decide (x.2.ev ≠ 0))).length
  let n := open_ - s.lateCount 12 s.row.num
  (due.foldl (fun (q : State × Nat) (x : Nat × Reply) =>
    let late := q.1.replyLate x.2 q.2 n
    let s := if x.2.ev ≠ 0 ∧ q.1.rpl.on = false then q.1.drawn else q.1
    (s.landReply x.1 x.2 late, if x.2.ev = 0 then q.2 else q.2 + 1)) (s, 0)).1

/-- The transfers of core `c` are settled as its row ends, in posting order (R88): an outbound one has reached DRAM,
and an inbound one that is still under way is late. In a replay the record says how many inbound ones are late.
(DESIGN CHOICE 61; DEDUCED 62 of notes/assumptions) -/
def State.settleMoves (s : State) (c : Nat) : State :=
  let open_ := (s.core c).moves.filter (fun (m : Move) => decide (m.stat = 2))
  let inb := (open_.filter (fun (m : Move) => !m.out)).map (fun (m : Move) => m.index)
  let late := if s.rpl.on then inb.drop (inb.length - s.lateCount (24 + c) s.row.num) else inb
  open_.foldl (fun (s : State) (m : Move) =>
    if late.contains m.index then s else s.finishMove c m.index) s

/-- DXC_XFER_STAT of core `c` from the transfers that are settled (R88). (DEDUCED 62 of notes/assumptions) -/
def State.showMoves (s : State) (c : Nat) (keep : Move → Bool) : State :=
  let v := (s.core c).moves.foldl (fun (v : Nat) (m : Move) => if keep m then v + m.stat * 4 ^ m.index else v) 0
  s.setLive Reg.DXC_XFER_STAT_ST v c

/-- The inbound transfers that were due land before step 4; late ones are logged and raised (R88). (DEDUCED 62 of
notes/assumptions) -/
def State.landMoves (s : State) (c : Nat) (due : List Move) : State :=
  due.foldl (fun (s : State) (m : Move) =>
    if m.stat = 2 then (s.logLateEngine (24 + c)).raiseNow (24 + c) m.index
    else if m.stat = 1 ∧ m.out = false then s.setCore c ((s.core c).putBytes m.loc m.data)
    else s) s

/-! ### Mailbox areas -/

/-- A message slot of a mailbox area (R89). -/
def mailSlot (m : Stamp × Nat × List Byte) : List Byte :=
  bytesLE 8 m.1.toNat ++ bytesLE 1 m.2.1 ++ bytesLE 7 0 ++ (padTo 64 m.2.2).take 64

/-- A callback record (R160). -/
def callbackRecord (m : Stamp × Stamp × Nat × BitVec 24) (more : Bool) : List Byte :=
  bytesLE 8 m.2.1.toNat ++ bytesLE 4 m.2.2.1 ++ bytesLE 3 m.2.2.2.toNat ++ bytesLE 1 (1 + 2 * more.toNat)

/-- Callback edges in order of lifeline, then of node (R160). -/
def callbackLe (a b : Stamp × Stamp × Nat × BitVec 24) : Bool :=
  sBefore a.1 b.1 || (decide (a.1 = b.1) && decide (a.2.2.1 ≤ b.2.2.1))

/-- The messages and callback records of the row are written into the mailbox area of core `c` (R89, R160). While
a core is halted its area stays as it is, and the row's messages and records do not reach it (R94). (DEDUCED 59 of
notes/assumptions) -/
def State.fillMailbox (s : State) (c : Nat) : State :=
  let k := s.core c
  let b := s.row.cur
  let later := k.callbacks.filter (fun x => !sBefore x.1 b)
  if s.conf Reg.DXC_CFG_EN c = 0 then
    (s.setCore c { k with hostMsgs := [], coreMsgs := [], callbacks := later }).setLive Reg.DXC_MBI_CTL_QUEUED 0 c
  else if k.heldSnap.isSome then
    (s.setCore c { k with hostMsgs := [], coreMsgs := [], callbacks := later }).setLive Reg.DXC_MBI_CTL_QUEUED 0 c
  else
    let area := s.conf Reg.DXC_MBAREA_AREA c * 64
    let msgs := sortBy (fun (x y : Stamp × Nat × List Byte) => decide (x.2.1 ≤ y.2.1)) k.coreMsgs
    let all := k.hostMsgs ++ msgs
    let k := k.putBytes area (bytesLE 1 0 ++ bytesLE 1 all.length ++ bytesLE 14 0 ++ all.flatMap mailSlot)
    let due := sortBy callbackLe (k.callbacks.filter (fun x => sBefore x.1 b))
    let full := decide (8 < due.length)
    let recs := ((due.take 8).zipIdx).flatMap (fun x => callbackRecord x.1 (full && decide (x.2 = 7)))
    let k := k.putBytes (area + 896) (padTo 128 recs)
    let s := s.setCore c { k with hostMsgs := [], coreMsgs := [], callbacks := later }
    let s := s.setLive Reg.DXC_MBI_CTL_QUEUED 0 c
    if full then s.raiseNow 8 c else s

end Sys2Proof.Machine
end

