-- ==== Sys2Proof/Machine/Latch.lean ====
section
/-! DEFINITION. The first half of a boundary: the work of the row that ends at its deadlines, the row number, the
snapshot of step 1 and the activation of step 2 (R22 to R24, R28, R42, R61, R62, R64, R82, R91, R101, R131, R162,
R192, R237, R241, R292, R347, R364, R405, R408, R421, R462). -/

namespace Sys2Proof.Machine

/-! ### The end of the row -/

/-- The pass deadline has come (R192). -/
def State.closePass (s : State) : State :=
  let s := if s.rpl.on then (s.drainPass State.follow).follow s.deadline else s
  if s.ple.pass.isSome then resState s (execPassDeadline s) else s

/-- The deadline of the trailing write has come (R237); in a replay the record says whether it was kept. A write that
was late in the row before is completed by now. -/
def State.closeTrail (s : State) : State :=
  s.endOldTrail.trailJudged

/-- The deadline of the fused output has come (R347); in a replay the record says whether it was kept. -/
def State.closeOutput (s : State) : State :=
  match s.fge.out with
  | none => s
  | some o =>
    if s.outputLate then (s.advanceTo s.deadline).abandonOutput
    else if s.rpl.on then { s with fge := { s.fge with out := some { o with ended := true } } }
    else s

/-- Cores that have not ended their row (R82): a budget is always spent before the next boundary (R81); in bench
mode the row goes on, on the snapshot it has (R94). (DESIGN CHOICE 55 of notes/assumptions) -/
def State.closeCores (s : State) : State :=
  (List.range s.variant.cores).foldl (fun (s : State) (c : Nat) =>
    let k := s.core c
    if k.run = .idle then s
    else if s.bench c || k.heldSnap.isSome then s.setCore c { k with heldSnap := some (k.heldSnap.getD s.snap) }
    else s.overrun c) s

/-- What has a deadline in the row that ends. -/
def State.closeRow (s : State) : State := s.closePass.closeTrail.closeOutput.closeCores

/-! ### Replay -/

/-- What a replay's record commits at a row (R42, R101, R405): 0 nothing, 1 a commit, 2 a rollback, 3 a version
that is neither staged nor PREVIOUS. (DEDUCED 78 of notes/assumptions) -/
def State.replayCommit (s : State) (row : W32) : Nat :=
  match s.recOf 7 row with
  | [] => 0
  | e :: _ =>
    if s.flag Reg.SKN_STAT_PRV_VALID && decide (s.skn.prv.fld Reg.SKN_VER_VER % 2 ^ 24 = e.arg) then 2
    else if s.skn.stg.fld Reg.SKN_VER_VER % 2 ^ 24 = e.arg then 1
    else 3

/-- Why a replay stops at the boundary of a row, if it does (R101). (DEDUCED 78 of notes/assumptions) -/
def State.replayEnd (s : State) (row : W32) : Option Nat :=
  if !s.rpl.on then none
  else if !rowBefore row (BitVec.ofNat 32 (s.live Reg.DXC_RPL_FED_FED) + 1) then
    some (if s.flag Reg.DXC_RPL_CTL_FINAL then 3 else 4)
  else if (s.replaySamples row).isNone then some 5
  else if s.row.started && decide (s.replayCommit row = 3) then some 6
  else none

/-! ### Step 1 -/

/-- The row number, the stamps of the row, and the WAKE entry of the first boundary after DOZE (R22, R62). -/
def State.openRow (s : State) (num : W32) (b : Stamp) (resumed : Bool) : State :=
  let s := (s.advanceTo b).follow b
  let s := { s with row := { s.row with
    num := num, cur := b, prev := (if s.row.started then s.row.cur else b), started := true } }
  if resumed then s.logEntry 0x0A 0 b num else s

/-- What the boundary brings before the snapshot is latched: settled transfers, samples that are complete, a
result that becomes visible, the copy's result, and the row registers of the cores (R28, R88, R233, R346). -/
def State.beforeLatch (s : State) : State :=
  let b := s.row.cur
  let s := (List.range s.variant.cores).foldl (fun (s : State) (c : Nat) =>
    (s.settleMoves c).showMoves c (fun (_ : Move) => true)) s
  let s := s.reportCopy
  let s := { s.releaseTiles with fab := { s.releaseTiles.fab with before := [] } }
  let s := ((s.admitDue b).visibleOutput.showOnTime).gnbShow b
  (List.range s.variant.cores).foldl (fun (s : State) (c : Nat) =>
    ((s.setLive Reg.DXC_ROWSTAMP_LO_STAMP (b.toNat % 2 ^ 32) c).setLive Reg.DXC_ROWSTAMP_HI_STAMP
      (b.toNat / 2 ^ 32) c).setLive Reg.DXC_ROWNUM_ROW s.row.num.toNat c) s

/-- The class of an input identifier (R41). -/
def classOfId (id : InputId) : Nat := id.toNat / 2 ^ 16

/-- The samples whose classes programs read with SMP (R131). -/
def Sample.forSmp (x : Sample) : Bool :=
  match classOfId x.id with
  | 0x04 => true
  | 0x05 => true
  | 0x06 => true
  | 0x08 => true
  | 0x0A => true
  | _ => false

/-- Samples in the order of source stamps (R28). -/
def bySource (l : List Sample) : List Sample := sortBy (fun x y => sAtOrBefore x.src y.src) l

/-- The new samples of one input enter the snapshot: the 64 with the latest source stamps; each one dropped is
logged (R28, R131). (DEDUCED 65 of notes/assumptions) -/
def State.latchInput (s : State) (id : Nat) (new : List Sample) : State :=
  let l := bySource new
  let s := (l.take (l.length - 64)).foldl (fun (s : State) (x : Sample) =>
    s.logEntry 0x03 x.id.toNat x.src s.row.num) s
  { s with snap := { s.snap with samples := Tab.put [] s.snap.samples id (l.drop (l.length - 64)) } }

/-- Step 1: all inputs are latched as of the boundary stamp (R23, R28, R30, R84). (DEDUCED 65 of notes/assumptions)
-/
def State.latch (s : State) : State :=
  let b := s.row.cur
  let new := if s.rpl.on then (s.replaySamples s.row.num).getD []
    else s.inp.pend.filter (fun (x : Sample) => sAtOrBefore x.adm b)
  let keep := if s.rpl.on then [] else s.inp.pend.filter (fun (x : Sample) => !sAtOrBefore x.adm b)
  let held := s.snap.samples.map (fun (p : Nat × List Sample) => (p.1, p.2.getLast?.toList))
  let s := { s with
    inp := { s.inp with pend := keep }
    snap := { s.snap with
      regs := s.regs, samples := held, epoch := s.gnb.record, tracks := s.fge.tracks, marks := s.gnb.marks
      rings := if s.rpl.on then s.win else [] } }
  let smp := new.filter Sample.forSmp
  let ids := (smp.map (fun (x : Sample) => x.id.toNat)).eraseDups
  let s := ids.foldl (fun (s : State) (id : Nat) =>
    s.latchInput id (smp.filter (fun (x : Sample) => decide (x.id.toNat = id)))) s
  let s := (bySource (new.filter (fun (x : Sample) => decide (classOfId x.id = 3)))).foldl State.latchFrame s
  if s.rpl.on then
    let s := if s.row.num = 0 then s.replayRecent 0 else s
    s.replayRecent (s.row.num + 1)
  else s

/-! ### Step 2 -/

/-- A CAN controller whose skein-held fields a commit changes keeps the old ones until its first bus idle; one in
bus-off changes at the boundary and then integrates (R364). -/
def State.commitCan (s : State) (old : Image) (c : Nat) : State :=
  let lo := 8 * (0x06000000 + 0x1000 * c)
  let part := fun (m : Image) => m.flds.range lo (lo + 8 * 0x1000)
  if part old = part s.skn.act then s
  else
    let q := s.can c
    let s := if q.hold.isNone then s.setCan c { q with hold := some (part old) } else s
    if s.canState c = 3 then
      s.landingAt (s.row.cur + 64) (fun s => (s.canApply c).setCan c { (s.canApply c).can c with integrating := true })
    else s

/-- A heartbeat port that a commit enables starts from the named boundary (R421), the pool restarts when its place
or size changes (R229), a layer that it redefines has counted no cell and is no longer undefined (R234, R238), a
pulse input that it enables has had no edge (R385), and a session closes with WT (R420). (DEDUCED 66, 71 of
notes/assumptions) -/
def State.commitRest (s : State) (old : Image) : State :=
  let b := s.row.cur
  let new := s.skn.act
  let s := (List.range 2).foldl (fun (s : State) (p : Nat) =>
    if bitOf (old.fld Reg.HP_HBCFG_EN) p = false ∧ bitOf (new.fld Reg.HP_HBCFG_EN) p = true then s.beat p b else s) s
  let s :=
    if old.fld Reg.FAB_POOL_BASE_BASE ≠ new.fld Reg.FAB_POOL_BASE_BASE ∨
        old.fld Reg.FAB_POOL_N_N ≠ new.fld Reg.FAB_POOL_N_N then
      { s.setLive Reg.FAB_POOL_NEXT_NEXT 0 with fab := { s.fab with emptySeen := false } }
    else s
  let same := fun (l : Nat) => decide (old.layer l = new.layer l)
  let s := { s with fab := { s.fab with
    spoiled := s.fab.spoiled.filter same, counted := s.fab.counted.filter (fun x => same x.2.2.1) } }
  let s := (List.range 24).foldl (fun (s : State) (i : Nat) =>
    if old.fld Reg.SIN_PCFG_EN i = 0 ∧ new.fld Reg.SIN_PCFG_EN i = 1 then s.setPulse i { Pulse.fresh with from_ := b } else s) s
  let s := if old.fld Reg.SIN_ICFG_EN = 0 ∧ new.fld Reg.SIN_ICFG_EN = 1 then
      { s with inp := { s.inp with imuFrom := b } }
    else s
  let gm := fun (m : Image) (e : Nat) =>
    decide (m.fld Reg.ETH_MACCFG_EN e = 1) && decide (m.fld Reg.ETH_PTPCFG_GM_EN e = 1)
  let s := (List.range 2).foldl (fun (s : State) (e : Nat) =>
    if gm new e && !gm old e then s.syncAfter e b else s) s
  if old.fld Reg.GSB_BOOTCFG_WT = 1 ∧ new.fld Reg.GSB_BOOTCFG_WT = 0 then s.closeSession else s

/-- A core whose program image a commit changes: its old replies and inbound data are lost, its semaphores are
free, and it runs no task in this row (R91, R129). (DEDUCED 59 of notes/assumptions) -/
def State.reloadCore (s : State) (c : Nat) : State :=
  let k := s.core c
  let s := s.setCore c { k with
    reload := true, replies := [], moves := k.moves.filter (fun (m : Move) => m.out)
    run := .idle, todo := [], stepping := false, heldSnap := none }
  let s := s.showMoves c (fun (_ : Move) => true)
  let s := ((s.setLive Reg.DXC_STAT_RELOAD 1 c).setLive Reg.DXC_STAT_FAULT 0 c).setLive Reg.DXC_STAT_HALTED 0 c
  s.semFreeWhere (fun o => decide (o = 0x10 + c))

/-- The live set, in index order, each entry landing at the boundary stamp (R408). (DEDUCED 50 of notes/assumptions)
-/
def State.applyLiveSet (s : State) : State :=
  (List.range 64).foldl (fun (s : State) (i : Nat) =>
    let a := s.conf Reg.SKN_LIVE_ADDR i
    if a = 0 then s else s.storeWrite .liveSet a (s.conf Reg.SKN_LIVE_V_VALUE i) s.row.cur) s

/-- What every activation does to the engines, `old` being the skein before (R61, R162, R241, R250, R292, R348,
R364). -/
def State.commitEngines (s : State) (old : Image) : State :=
  let was := s.live Reg.SYS_PWRSTAT_CUR
  let s := s.setLive Reg.SYS_PWRSTAT_CUR (s.conf Reg.SYS_MODE_WORK)
  let s := ((s.commitNodes old).etuCommit old s.row.cur).loopCommit old s.row.cur
  let s := (s.gnbCommit old was).commitFusion old
  let s := (List.range 4).foldl (fun (s : State) (c : Nat) => s.commitCan old c) s
  s.commitRest old

/-- An accepted request acts: the slots rotate, COMMIT is logged, the engines take the new skein, changed programs
reload and the live set is applied (R405, R408). -/
def State.activate (s : State) (rollback : Bool) (lead : Nat) : State :=
  let old := s.skn.act
  let s := (s.rotate rollback).closeRequest s.row.num true lead
  let s := { s with row := { s.row with k := s.skn.act.rowK } }
  let s := s.logEntry 0x07 (s.skn.act.fld Reg.SKN_VER_VER % 2 ^ 24) s.row.cur s.row.num
  let s := s.commitEngines old
  let s := (List.range s.variant.cores).foldl (fun (s : State) (c : Nat) =>
    if progDiffers s.skn.act old c then s.reloadCore c else s) s
  s.applyLiveSet

/-- Step 2 after row 0: a request that names this row ends, and acts if the checker accepted it; in a replay the
record decides (R42, R404, R405). Answers whether a skein became active. -/
def State.takeRequest (s : State) : State × Bool :=
  let due := match s.skn.req with
    | some q => decide (q.named = s.row.num)
    | none => false
  let s := if due then s.endChecker else s
  let code := if s.rpl.on then s.replayCommit s.row.num else
    match s.skn.req with
    | some q => if due && q.outcome == some 0 then (if q.rollback then 2 else 1) else 0
    | none => 0
  let lead := match s.skn.req with
    | some q => q.lead
    | none => s.skeinLead
  if code ≠ 0 then (s.activate (code = 2) lead, true)
  else (if due then s.closeRequest s.row.num false lead else s, false)

/-- An endpoint whose fail value is ON takes it at row 0, before its first issued edge (R65). (DEDUCED 35 of
notes/assumptions) -/
def State.coldEdge (s : State) (i : Nat) : State :=
  let r := s.node i
  let b := s.row.cur
  match (if r.isEnd && r.actuated then r.failValue else none) with
  | none => s
  | some v =>
    if !valueOn v then s
    else if r.etype = 0 then s.gateEdge r.eidx true (v.toNat % 2 ^ 16) b
    else if r.etype = 1 ∨ r.etype = 2 then
      let sl := epSlice (BitVec.ofNat 32 r.endpoint)
      if s.bankReady (sl / 6) then s.sliceEdge sl true b b
      else { s with dsl := { s.dsl with waiting := s.dsl.waiting ++ [⟨sl, true, b, b, queueSize⟩] } }
    else s

/-- The end of cast-on at row 0 (R64 to R66, R91, R101, R301, R408, R421, R462). (DEDUCED 3, 35 of
notes/assumptions) -/
def State.rowZero (s : State) : State :=
  let b := s.row.cur
  let s := s.commitEngines Image.blank
  let s := { s with
    etu := { s.etu with cfgOld := [] }
    loops := s.loops.map (fun (p : Nat × Loop) => (p.1, { p.2 with cfgOld := none })) }
  let s := (s.setLive Reg.SYS_PWRSTAT_CAST_DONE 1).loopsFail
  let s := (s.setLive Reg.DXC_ROW0_LO_STAMP (b.toNat % 2 ^ 32)).setLive Reg.DXC_ROW0_HI_STAMP (b.toNat / 2 ^ 32)
  let s := (s.beat 0 b).beat 1 b
  let s := if s.flag Reg.SYS_BOOTSTAT_GAUGE_BAD then s.raiseNow 1 0 else s
  let s := if s.rpl.on then s.setLive Reg.DXC_RPL_STAT_STATE 2 else s
  let s := s.gduvHold
  let s := s.defined.foldl State.coldEdge s
  let s :=
    if placingMode (s.live Reg.SYS_PWRSTAT_CUR) then s
    else (s.defined.filter (fun i => (s.node i).isEnd)).foldl (fun (s : State) (i : Nat) =>
      (s.setNodeRt i { s.nodeRt i with failMode := true }).setNodeSt i stFail true) s
  s.applyLiveSet

/-- Rows resume after DOZE in the RESUME mode; a STAGING that was not ready yet is ready again (R61, R62, R241, R364,
R406). (DEDUCED 34 of notes/assumptions) -/
def State.resumeRows (s : State) : State :=
  let b := s.row.cur
  let s := if s.skn.readyAt.isSome then
      { s.setLive Reg.SKN_STAT_STG_READY 1 with skn := { s.skn with readyAt := none } }
    else s
  let s := s.setLive Reg.SYS_PWRSTAT_CUR (s.conf Reg.SYS_MODE_RESUME)
  let s := { s with power := { s.power with
    bind := .none, bindReplay := false, waking := false, ungated := false, wakeLatched := false
    lingerOver := false } }
  let s := (List.range 4).foldl (fun (s : State) (c : Nat) =>
    if s.conf Reg.CAN_CCFG_EN c = 1 then s.setCan c { s.can c with integrating := true } else s) s
  let s := (List.range s.variant.groups).foldl (fun (s : State) (g : Nat) =>
    if s.conf Reg.ETU_GCFG_EN g = 1 then s.startCarrier g b else s) s
  let s := ((s.syncAfter 0 b).syncAfter 1 b).inputsOn b
  if s.variant.gnb && decide (s.conf Reg.GNB_CFG_EN = 1) then
    (List.range s.variant.tracks).foldl (fun (s : State) (k : Nat) => s.tcStart k true) s
  else s

/-- Fail states that were entered for TRANSIT or bind-off end where a placing mode begins (R156). (DEDUCED 69 of
notes/assumptions) -/
def State.leaveModeFail (s : State) : State :=
  s.ple.nodes.foldl (fun (s : State) (p : Nat × NodeRt) =>
    let x := s.nodeRt p.1
    if !x.failMode then s
    else if x.failHard then s.setNodeRt p.1 { x with failMode := false }
    else s.failLeave p.1) s

/-- The bind-off starts at this boundary (R67, R101). -/
def State.startBind (s : State) : State :=
  let s := (s.setLive Reg.SYS_PWRSTAT_BINDOFF 1).stopFusion
  { s with power := { s.power with bind := .edges, lingerOver := false } }

/-- The snapshot's skein-held fields, and the skein status of R407, are taken after step 2 (R24). (DESIGN CHOICE 76
of notes/assumptions) -/
def State.latchSkein (s : State) : State :=
  let status := [Reg.SKN_VACT_VER, Reg.SKN_STAT_STG_READY, Reg.SKN_STAT_PENDING, Reg.SKN_STAT_PRV_VALID]
  { s with snap := { s.snap with
    conf := s.skn.act.flds
    regs := status.foldl (fun (t : Tab W32) (f : Fld) => f.put t 0 0 (s.live f)) s.snap.regs } }

/-- Step 2, with what follows from it at F in step 3: whether every node enters its fail state for a mode (R61,
R67, R156, R407). -/
def State.stepTwo (s : State) (first resumed : Bool) : State × Bool :=
  let cur0 := s.live Reg.SYS_PWRSTAT_CUR
  let r := if first then (s.rowZero, true) else s.takeRequest
  let s := if resumed then r.1.resumeRows else r.1
  let acted := r.2
  let s := s.returnReady s.row.num
  let cur := s.live Reg.SYS_PWRSTAT_CUR
  let bindNow := decide (s.power.bind = .none) && (s.power.bindReplay || (acted && (cur == 5 || cur == 6)))
  let s := if bindNow then s.startBind else s
  let transit := acted && cur == 4 && placingMode cur0
  let s := if (acted || resumed) && !first && placingMode cur && decide (s.power.bind = .none) then s.leaveModeFail else s
  let s := { s with row := { s.row with next := s.row.cur + subTicks s.period } }
  (s.latchSkein, bindNow || transit)

end Sys2Proof.Machine
end

