-- ==== Sys2Proof/Machine/Row.lean ====
section
/-! DEFINITION. The second half of a boundary: the outputs and entries of step 3, the landings before step 4, the
banks, the end of a bind-off, and the start of the row in step 4 (R23 to R25, R61, R62, R67, R73, R79, R80, R91,
R94, R151, R187, R421, R422, R427, R431). -/

namespace Sys2Proof.Machine

/-! ### Step 3: hosts and programs -/

/-- Host EVT_RAISE bits raise their sources at step 3 (R427). (DEDUCED 68 of notes/assumptions) -/
def State.hostRaises (s : State) (l : List (Port × W32)) : State :=
  l.foldl (fun (s : State) (x : Port × W32) =>
    (List.range 32).foldl (fun (s : State) (i : Nat) =>
      if x.2.getLsbD i then s.raiseNow (96 + i) (0x100 + x.1.idx) else s) s) s

/-- Host solutions take effect before the program outputs (R168, R323). -/
def State.takeHostSols (s : State) : State :=
  let l := s.gnb.hostSol
  l.foldl (fun (s : State) (x : Port × Solution) => s.solutionAct x.2 s.row.cur)
    { s with gnb := { s.gnb with hostSol := [] } }

/-- The rate setpoint of the last pass of node `i` becomes its RATE_NOW (R187). -/
def State.takeRate (s : State) (i : Nat) : State :=
  let x := s.nodeRt i
  match x.rateNext with
  | none => s
  | some rate =>
    (s.setNodeRt i { x with rateNow := rate, rateNext := none }).capture 2 s.row.cur.toNat i rate.toNat

/-- The rate setpoints of the last pass become RATE_NOW, and RATE_NOW loads into the channel of every node that is on
(R187, R188). -/
def State.applyRates (s : State) : State :=
  s.ple.nodes.foldl (fun (s : State) (p : Nat × NodeRt) =>
    let s := s.takeRate p.1
    let r := s.node p.1
    let x := s.nodeRt p.1
    if r.isEnd && r.actuated && decide (r.etype = 0) && x.cmd then s.loadRate r.eidx x.rateNow s.fStamp else s) s

/-! ### Step 3: feedback of the slices -/

/-- The node bound to a slice, or to the pair whose events it bears (R151). -/
def State.sliceNode (s : State) (sl : Nat) : Option Nat :=
  match s.boundTo (2 ^ 28 + sl) with
  | some i => some i
  | none => if sl % 2 = 0 then s.boundTo (2 * 2 ^ 28 + sl / 2) else none

/-- A slice event of the snapshot measures a lead, and resolves the committed edge whose ISSUE it names (R151,
R210). -/
def State.takeSliceEvent (s : State) (x : Sample) : State :=
  let sl := x.id.toNat % 2 ^ 16
  let on := decide (leAt x.payload 0 1 = 2)
  let edge := BitVec.ofNat 64 (leAt x.payload 8 8)
  let s := match s.sliceNode sl with
    | some i => s.learn i on (leAt x.payload 4 4)
    | none => s
  let mine := fun (e : QEntry) =>
    (decide (epType e.endpoint = 1) || decide (epType e.endpoint = 2)) && decide (epSlice e.endpoint = sl)
  match s.ple.queue.find? (fun p => p.2.isCommitted && !p.2.resolved && decide (p.2.issue = edge) &&
      (valueOn p.2.value == on) && mine p.2) with
  | some p => s.resolveEntry p.1 x.src false
  | none => s

/-- The slice events that this snapshot holds first, in source-stamp order (R151). -/
def State.takeSliceEvents (s : State) : State :=
  let new := (s.snap.samples.flatMap (fun (p : Nat × List Sample) => p.2)).filter (fun (x : Sample) =>
    decide (classOfId x.id = 8) && decide (x.row = s.row.num))
  (bySource new).foldl State.takeSliceEvent s

/-! ### Step 3: fail states -/

/-- Every GROUP and LEAF enters its fail state at F (R61, R67, R422). -/
def State.allFail (s : State) (hard : Bool) : State :=
  (s.defined.filter (fun i => (s.node i).isEnd)).foldl (fun (s : State) (i : Nat) => s.failEnter i s.fStamp hard) s

/-- Loop units in AUTO or MANUAL go to OFF and output FAILOUT (R301, R422). -/
def State.loopsSafe (s : State) : State :=
  (List.range 64).foldl (fun (s : State) (n : Nat) =>
    let x := s.loop n
    if x.mode = 1 ∨ x.mode = 2 then
      (s.setLoop n { x with mode := 0, u := (s.loopImg n).int Reg.CLE_FAILOUT_OUT n, due := false, open_ := false }).loopShow n s.fStamp
    else s) s

/-- The heartbeat of a port has failed, or does not count (R421). -/
def State.beatOld (s : State) (p : Nat) : Bool :=
  !bitOf (s.conf Reg.HP_HBCFG_EN) p ||
    decide (((s.conf Reg.HP_HBCFG_TIMEOUT * msTicks : Nat) : Int) < sdiff (s.lastBeat p) s.row.cur)

/-- SAFE ends where a clear was accepted, and is entered where every enabled heartbeat has failed (R421 to R423).
(DEDUCED 69 of notes/assumptions) -/
def State.safeStep (s : State) : State :=
  let s := if s.boot.safeClr then { s.setLive Reg.HP_SAFE_SAFE 0 with boot := { s.boot with safeClr := false } } else s
  let en := s.conf Reg.HP_HBCFG_EN
  if en ≠ 0 ∧ s.flag Reg.HP_SAFE_SAFE = false ∧ s.beatOld 0 = true ∧ s.beatOld 1 = true then
    let port := if bitOf en 0 && !(bitOf en 1 && sBefore (s.lastBeat 0) (s.lastBeat 1)) then 0 else 1
    let s := (s.allFail true).loopsSafe
    let s := s.semFreeWhere (fun o => decide (o = 1) || decide (o = 2))
    (s.setLive Reg.HP_SAFE_SAFE 1).raiseNow 3 port
  else s

/-- Entry into TRANSIT or bind-off: every speculative edge is frogged and every node enters its fail state. The
latest target that is left is the one that bind-off waits for; where none is left it waits for none (R61, R67).
(DEDUCED 69 of notes/assumptions) -/
def State.modeFail (s : State) : State :=
  let s := s.defined.foldl (fun (s : State) (i : Nat) => s.frogNode i s.fStamp) s
  let s := s.allFail false
  let last := s.ple.queue.foldl (fun (t : Stamp) (p : Nat × QEntry) => sMax t p.2.target) (s.row.cur - 1)
  { s with power := { s.power with lastTarget := last } }

/-! ### Banks -/

/-- The queue holds an entry for a slice of bank `b`, or an issued edge waits for it (R73, R74). (DEDUCED 36 of
notes/assumptions) -/
def State.bankWanted (s : State) (b : Nat) : Bool :=
  s.ple.queue.any (fun p => (decide (epType p.2.endpoint = 1) || decide (epType p.2.endpoint = 2)) &&
      decide (epSlice p.2.endpoint / 6 = b)) ||
    s.dsl.waiting.any (fun x => decide (x.slice / 6 = b))

/-- All slices of bank `b` are off. -/
def State.bankOff (s : State) (b : Nat) : Bool :=
  (List.range 6).all (fun i =>
    let st := s.slSt (6 * b + i)
    decide (st = slIdle) || decide (st = slFault) || decide (st = slHeld))

/-- The gate decision of bank `b` at a boundary (R73); a closed bank with its BANK_HOLD bit opens, and none opens
once the banks are parked (R67). (DEDUCED 36 of notes/assumptions) -/
def State.gateBank (s : State) (b : Nat) : State :=
  let held := bitOf (s.conf Reg.SYS_GATECFG_BANK_HOLD) b
  let wanted := s.bankWanted b
  let setIdle := fun (s : State) (n : Nat) =>
    { s with power := { s.power with bankIdle := Tab.put 0 s.power.bankIdle b n } }
  let setAt := fun (s : State) (t : Stamp) =>
    { s with power := { s.power with bankOpenAt := Tab.put 0 s.power.bankOpenAt b t } }
  if !s.bankReady b && decide (Tab.get 0 s.power.bankOpenAt b = 0) then
    if (wanted || held) && decide (s.power.bind ≠ .linger) then setIdle (setAt s (s.row.cur + 1024000)) 0 else s
  else
    let n := if wanted || !s.bankOff b then 0 else Tab.get 0 s.power.bankIdle b + 1
    let lim := s.conf Reg.SYS_GATECFG_IDLE_ROWS
    if lim ≠ 0 ∧ held = false ∧ lim ≤ n then
      (setAt (setIdle s 0) 0).setLive Reg.SYS_PWRSTAT_BANK_READY (withBit (s.live Reg.SYS_PWRSTAT_BANK_READY) b false)
    else setIdle s n

/-! ### The end of a bind-off -/

/-- Steps 4 to 6 of bind-off: loop outputs fail, profiles end, the banks are parked, and the linger begins (R67). -/
def State.park (s : State) : State :=
  let s := (s.loopsFail).slicesOff
  let s := (s.setLive Reg.SYS_PWRSTAT_BANK_READY 0).raiseNow 2 0
  let s := (s.setLive Reg.SYS_PWRSTAT_BINDOFF 0).setLive Reg.SYS_PWRSTAT_LINGER 1
  { s with
    dsl := { s.dsl with waiting := [] }
    power := { s.power with
      bind := .linger, lingerFrom := s.row.cur, lingerOver := false, bankOpenAt := [], bankIdle := [] } }

/-- The linger is over at this boundary: it has lasted its length, or it was cut short before the
boundary (R67, R101). -/
def State.lingerDone (s : State) (cut : Bool) : Bool :=
  decide (s.power.bind = .linger) && (cut || sAtOrBefore s.lingerEnd s.row.cur)

/-- Entry into DOZE: engines and carriers stop, and a latched wake acts at once (R61, R68, R391). (DEDUCED 34 of
notes/assumptions) -/
def State.enterDoze (s : State) : State :=
  let s := (s.carriersStand).restInputs
  let s := (List.range s.variant.tracks).foldl (fun (s : State) (k : Nat) => s.setLive Reg.GNB_TCSTAT_STATE 0 k) s
  let s := (List.range 4).foldl (fun (s : State) (c : Nat) => s.setCan c { s.can c with active := none }) s
  let s := (List.range 2).foldl (fun (s : State) (e : Nat) => s.setEth e { s.eth e with active := none }) s
  { s with
    ple := { s.ple with pass := none, carry := [] }
    fab := { s.fab with trail := none, trailOld := none }
    gnb := { s.gnb with epoch := none, instant := none }
    power := { s.power with
      phase := .doze, bind := .none, waking := s.power.wakeLatched, ungated := false, wakeLatched := false } }

/-- The linger ends: the replay's restart goes ahead, or the device enters DOZE or drops PWREN (R61, R63, R67,
R68, R101). -/
def State.leaveRows (s : State) : State :=
  let s := s.setLive Reg.SYS_PWRSTAT_LINGER 0
  if s.power.bindReplay then s.goAhead
  else if s.live Reg.SYS_PWRSTAT_CUR = 5 then s.enterDoze
  else
    let wake := s.power.wakeLatched
    let s := s.dropPwren
    { s with power := { s.power with wakeLatched := wake } }

/-! ### Step 3 -/

/-- The outputs of hosts and programs, in their order (R25, R168, R427). (DEDUCED 68 of notes/assumptions) -/
def State.applyOutputs (s : State) (old : Image) (row : W32) (raises : List (Port × W32)) : State :=
  let s := (s.loopKeepRaw s.fStamp).takeHostPoses.takeHostSols
  let s := s.hostRaises raises
  (List.range s.variant.cores).foldl (fun (s : State) (c : Nat) => s.coreOutputs old row c) s

/-- What follows the outputs at F: pose and motion, the fail states in their order, setpoints, measurements, swaps,
disputes, and the queue (R169, R187, R206, R230, R358, R431). (DEDUCED 68 of notes/assumptions) -/
def State.afterOutputs (s : State) (modeFail : Bool) : State :=
  let s := s.settlePose
  let m := s.motionStep
  let s := if m.2 then m.1.stopActions m.1.fStamp else m.1
  let s := s.safeStep
  let s := if modeFail then s.modeFail else s
  let s := (s.sendDue s.fStamp (fun _ => true)).stopCarriers
  let s := s.applyRates.takeSliceEvents
  let s := s.applySwaps.takeCopy
  let s := s.updateDisputes.noteFusionStale
  s.settleActual.releaseEntries.showQueue

/-- The other units at a boundary: shown times, lost slots and banks (R73, R276, R325, R369). -/
def State.unitsAtBoundary (s : State) : State :=
  let s := (s.gnbShow s.row.cur).showOnTime
  let s := if s.rpl.on then s.replayLost s.row.num else s
  let s := (List.range s.variant.banks).foldl State.gateBank s
  s.driveOrphans s.fStamp

/-- Replies, inbound data, messages and callback records land before step 4 (R85, R88, R89, R160). (DEDUCED 68 of
notes/assumptions) -/
def State.landAll (s : State) (replies : List (Nat × Reply)) (moves : List (Nat × Move)) : State :=
  let s := s.landReplies replies
  (List.range s.variant.cores).foldl (fun (s : State) (c : Nat) =>
    (s.landMoves c ((moves.filter (fun (x : Nat × Move) => decide (x.1 = c))).map Prod.snd)).fillMailbox c) s

/-- Transmit buffers and slots whose record the snapshot holds are free from the boundary on (R371, R381). -/
def State.freeBuffers (s : State) : State :=
  let s := (List.range 4).foldl (fun (s : State) (c : Nat) => s.canBoundary c) s
  (List.range 2).foldl (fun (s : State) (e : Nat) => s.ethBoundary e) s

/-- Step 3 of the boundary (R23). The requests served in the row before are taken out first: they land at its end. The
edges whose ISSUE cycle lies before F are issued first, as those of its own cycle are at its end: what acts at F finds
them committed (R195, R201). (DEDUCED 68 of notes/assumptions) -/
def State.stepThree (s : State) (old : Image) (row : W32) (raises : List (Port × W32)) (modeFail : Bool) : State :=
  let cores := List.range s.variant.cores
  let replies := cores.flatMap (fun c => (s.core c).replies.map (fun r => (c, r)))
  let moves := cores.flatMap (fun c => (s.core c).moves.map (fun m => (c, m)))
  let s := cores.foldl (fun (s : State) (c : Nat) => s.setCore c { s.core c with replies := [], moves := [] }) s
  let s := (s.commitDue s.fStamp (fun _ => true)).sendDue (s.fStamp - 64) (fun _ => true)
  let s := (s.freeBuffers.applyOutputs old row raises).afterOutputs modeFail
  s.unitsAtBoundary.landAll replies moves

/-! ### Step 4 -/

/-- The event tasks of core `c` that are pending in this row, with their raise counts (R80). -/
def State.pendingTasks (s : State) (c : Nat) : List (Nat × Nat) :=
  (List.range 8).filterMap (fun (k : Nat) =>
    if s.conf Reg.DXC_ETASK_EN c k = 1 then
      let n := (s.boot.raised.filter (fun (x : Nat × Stamp) =>
        decide (x.1 = s.conf Reg.DXC_ETASK_EV c k) && sAtOrBefore s.row.prev x.2 && sBefore x.2 s.row.cur)).length
      if 0 < n then some (k, n) else none
    else none)

/-- Core `c` at step 4 (R79, R91, R94): it reloads, or waits out a row that its halt has carried over, or starts
its tasks; `fresh` says that the row before was its reload row. (DEDUCED 56, 59 of notes/assumptions) -/
def State.startCore (s : State) (c : Nat) (fresh : Bool) : State :=
  let k := s.core c
  if k.reload then s.loadCore c (s.conf Reg.SKN_PIMG_KEEP_DATA c = 1)
  else if s.conf Reg.DXC_CFG_EN c = 0 then s.setCore c { k with run := .idle, todo := [] }
  else if k.heldSnap.isSome then
    if k.run = .idle ∧ s.halted c = false then s.setCore c { k with heldSnap := none } else s
  else (s.setCore c { k with used := 0, todo := if fresh then [] else s.pendingTasks c }).nextTask c

/-- Step 4 of the boundary: the pass, the trailing write, the fused output and the row tasks start (R23, R79, R80,
R189, R213, R340). -/
def State.stepFour (s : State) (fresh : List Nat) : State :=
  let s := s.startOutput
  let s := { s with rpl := { s.rpl with
    lateAt := if s.rpl.on then ((s.recOf 4 s.row.num).head?).map (fun (e : RecEntry) => e.arg) else none
    trailLate := s.rpl.on && decide (0 < s.lateCount 19 s.row.num) } }
  let s := { s with fab := { s.fab with misses := 0 } }
  let s := s.startPass.startTrail.bindTrail
  let s := (List.range s.variant.cores).foldl (fun (s : State) (c : Nat) => s.startCore c (fresh.contains c)) s
  let s := { s with boot := { s.boot with
    raised := s.boot.raised.filter (fun (x : Nat × Stamp) => sAtOrBefore s.row.cur x.2) } }
  let s := s.capture 5 s.row.cur.toNat s.row.num.toNat 0
  let s := if s.rpl.on then s.replayRead s.row.num else s
  s.advanceTo s.fStamp

/-! ### The boundary -/

/-- What the steps of a boundary make of the pair that step 2 answers: step 3 on it, and the park that a host or a
program has ordered (R23, R67). (DEDUCED 69 of notes/assumptions) -/
def State.afterStepTwo (two : State × Bool) (old : Image) (row : W32) (raises : List (Port × W32)) : State :=
  let s := two.1.stepThree old row raises two.2
  if s.power.bind = .parkNext then s.park else s

/-- The four steps of the boundary of row `num` at stamp `b` (R23). -/
def State.boundaryAt (s : State) (num : W32) (b : Stamp) (resumed : Bool) : State :=
  let first := !s.row.started
  let row := s.row.num
  let fresh := (List.range s.variant.cores).filter (fun c => (s.core c).reload)
  let s := fresh.foldl (fun (s : State) (c : Nat) =>
    (s.setCore c { s.core c with reload := false }).setLive Reg.DXC_STAT_RELOAD 0 c) s
  let s := (s.openRow num b resumed).beforeLatch.latch
  let old := if first then Image.blank else s.skn.act
  let raises := s.boot.raises
  let cut := s.power.lingerOver || s.power.bindReplay
  let s := State.afterStepTwo ({ s with boot := { s.boot with raises := [] } }.stepTwo first resumed) old row raises
  if s.lingerDone cut then s.leaveRows else s.stepFour fresh

/-- In a replay, rows resume after DOZE at the next WAKE entry of a row that has been fed: its stamp and its row
number (R42). (DEDUCED 34 of notes/assumptions) -/
def State.wakeEntry (s : State) : Option RecEntry :=
  ((s.recFrom (s.live Reg.DXC_RING_RD_RD 0)).map Prod.snd).find? (fun (e : RecEntry) =>
    e.kind == 0x0A && !rowBefore e.row (s.row.num + 1) &&
      rowBefore e.row (BitVec.ofNat 32 (s.live Reg.DXC_RPL_FED_FED) + 1))

/-- A replay in DOZE that has no further WAKE entry stops at the grid boundary of row FED + 1 (R101). -/
def State.endInDoze (s : State) : State :=
  let last := BitVec.ofNat 32 (s.live Reg.DXC_RPL_FED_FED) + 1
  if rowBefore s.row.num last then
    (s.advanceTo (s.row.cur + subTicks ((last - s.row.num).toNat * s.period))).stopReplay
      (if s.flag Reg.DXC_RPL_CTL_FINAL then 3 else 4)
  else s.stopReplay (if s.flag Reg.DXC_RPL_CTL_FINAL then 3 else 4)

/-- A row boundary, live or in a replay, where one is due (R22, R23, R62, R101). -/
def State.boundary (s : State) (resumed : Bool) : State :=
  let s := { s with power := { s.power with phase := .rows } }
  let s := if s.row.started && !resumed then s.closeRow else s
  let num := if s.row.started then s.row.num + 1 else s.row.num
  let b := s.row.next
  match s.replayEnd num with
  | some code => (s.advanceTo b).stopReplay code
  | none => s.boundaryAt num b resumed

/-- ROW_BOUNDARY: the next row boundary stamp is reached (R22, R23); row 0 ends cast-on (R64), and after DOZE the first
grid boundary with the engines ungated resumes rows (R62). -/
def execRowBoundary (s : State) : Res :=
  match s.power.phase with
  | .waitRow0 => .next (s.boundary false)
  | .rows => .next (s.boundary false)
  | .doze =>
    if s.rpl.on then
      match s.wakeEntry with
      | some e => .next ({ s with row := { s.row with num := e.row - 1, next := e.stamp } }.boundary true)
      | none => .next s.endInDoze
    else if s.power.ungated then .next (s.boundary true)
    else .next s
  | _ => .next s

end Sys2Proof.Machine
end

