-- ==== Sys2Proof/Machine/Dispatch.lean ====
section
/-! DEFINITION. The effect of each command: one arm for each row of the table of operations and events,
one direct call of the meaning of that row. -/

namespace Sys2Proof.Machine

/-- The effect of a command on everything but the queue of commands. -/
def exec (i : Instr) (s : State) : Host.Outcome State Fault Refusal :=
  match i with
  | .refclkCheckDone ok => Sys2Proof.Machine.execRefclkCheckDone ok s
  | .dramTrainingDone ok => Sys2Proof.Machine.execDramTrainingDone ok s
  | .chaipImageRead copy0 copy1 => Sys2Proof.Machine.execChaipImageRead copy0 copy1 s
  | .recast p => Sys2Proof.Machine.execRecast p s
  | .park p => Sys2Proof.Machine.execPark p s
  | .presenceRelease hold => Sys2Proof.Machine.execPresenceRelease hold s
  | .canWake k => Sys2Proof.Machine.execCanWake k s
  | .hostCsWake p => Sys2Proof.Machine.execHostCsWake p s
  | .rtcSet p v => Sys2Proof.Machine.execRtcSet p v s
  | .sealCheck pass => Sys2Proof.Machine.execSealCheck pass s
  | .sealClear p => Sys2Proof.Machine.execSealClear p s
  | .discRelationWrite p v => Sys2Proof.Machine.execDiscRelationWrite p v s
  | .dtLatchRead p => Sys2Proof.Machine.execDtLatchRead p s
  | .dlTapRewrite line taps => Sys2Proof.Machine.execDlTapRewrite line taps s
  | .dlCalDone worst => Sys2Proof.Machine.execDlCalDone worst s
  | .bankReady b => Sys2Proof.Machine.execBankReady b s
  | .sampleAdmission id src => Sys2Proof.Machine.execSampleAdmission id src s
  | .budgetOverrun c => Sys2Proof.Machine.execBudgetOverrun c s
  | .nop c f => Sys2Proof.Machine.execNop c f s
  | .add c f => Sys2Proof.Machine.execAdd c f s
  | .sub c f => Sys2Proof.Machine.execSub c f s
  | .adds c f => Sys2Proof.Machine.execAdds c f s
  | .subs c f => Sys2Proof.Machine.execSubs c f s
  | .and c f => Sys2Proof.Machine.execAnd c f s
  | .or c f => Sys2Proof.Machine.execOr c f s
  | .xor c f => Sys2Proof.Machine.execXor c f s
  | .andn c f => Sys2Proof.Machine.execAndn c f s
  | .sll c f => Sys2Proof.Machine.execSll c f s
  | .srl c f => Sys2Proof.Machine.execSrl c f s
  | .sra c f => Sys2Proof.Machine.execSra c f s
  | .srar c f => Sys2Proof.Machine.execSrar c f s
  | .slli c f => Sys2Proof.Machine.execSlli c f s
  | .srli c f => Sys2Proof.Machine.execSrli c f s
  | .srai c f => Sys2Proof.Machine.execSrai c f s
  | .srari c f => Sys2Proof.Machine.execSrari c f s
  | .mul c f => Sys2Proof.Machine.execMul c f s
  | .mulh c f => Sys2Proof.Machine.execMulh c f s
  | .mulq c f => Sys2Proof.Machine.execMulq c f s
  | .div c f => Sys2Proof.Machine.execDiv c f s
  | .divu c f => Sys2Proof.Machine.execDivu c f s
  | .rem c f => Sys2Proof.Machine.execRem c f s
  | .divq c f => Sys2Proof.Machine.execDivq c f s
  | .min c f => Sys2Proof.Machine.execMin c f s
  | .max c f => Sys2Proof.Machine.execMax c f s
  | .minu c f => Sys2Proof.Machine.execMinu c f s
  | .maxu c f => Sys2Proof.Machine.execMaxu c f s
  | .abs c f => Sys2Proof.Machine.execAbs c f s
  | .negs c f => Sys2Proof.Machine.execNegs c f s
  | .clz c f => Sys2Proof.Machine.execClz c f s
  | .slt c f => Sys2Proof.Machine.execSlt c f s
  | .sltu c f => Sys2Proof.Machine.execSltu c f s
  | .cmp c f => Sys2Proof.Machine.execCmp c f s
  | .flgr c f => Sys2Proof.Machine.execFlgr c f s
  | .flgw c f => Sys2Proof.Machine.execFlgw c f s
  | .stkr c f => Sys2Proof.Machine.execStkr c f s
  | .stkc c f => Sys2Proof.Machine.execStkc c f s
  | .addi c f => Sys2Proof.Machine.execAddi c f s
  | .cmpi c f => Sys2Proof.Machine.execCmpi c f s
  | .andi c f => Sys2Proof.Machine.execAndi c f s
  | .ori c f => Sys2Proof.Machine.execOri c f s
  | .xori c f => Sys2Proof.Machine.execXori c f s
  | .lui c f => Sys2Proof.Machine.execLui c f s
  | .aclr c f => Sys2Proof.Machine.execAclr c f s
  | .amov c f => Sys2Proof.Machine.execAmov c f s
  | .ald c f => Sys2Proof.Machine.execAld c f s
  | .mac c f => Sys2Proof.Machine.execMac c f s
  | .msu c f => Sys2Proof.Machine.execMsu c f s
  | .aadd c f => Sys2Proof.Machine.execAadd c f s
  | .aext c f => Sys2Proof.Machine.execAext c f s
  | .alo c f => Sys2Proof.Machine.execAlo c f s
  | .ahi c f => Sys2Proof.Machine.execAhi c f s
  | .lw c f => Sys2Proof.Machine.execLw c f s
  | .lh c f => Sys2Proof.Machine.execLh c f s
  | .lhu c f => Sys2Proof.Machine.execLhu c f s
  | .lb c f => Sys2Proof.Machine.execLb c f s
  | .lbu c f => Sys2Proof.Machine.execLbu c f s
  | .sw c f => Sys2Proof.Machine.execSw c f s
  | .sh c f => Sys2Proof.Machine.execSh c f s
  | .sb c f => Sys2Proof.Machine.execSb c f s
  | .bc c f => Sys2Proof.Machine.execBc c f s
  | .j c f => Sys2Proof.Machine.execJ c f s
  | .jal c f => Sys2Proof.Machine.execJal c f s
  | .jalr c f => Sys2Proof.Machine.execJalr c f s
  | .rwait c f => Sys2Proof.Machine.execRwait c f s
  | .evr c f => Sys2Proof.Machine.execEvr c f s
  | .ereq c f => Sys2Proof.Machine.execEreq c f s
  | .nqry c f => Sys2Proof.Machine.execNqry c f s
  | .fprb c f => Sys2Proof.Machine.execFprb c f s
  | .xferOutbound c f => Sys2Proof.Machine.execXferOutbound c f s
  | .xferInbound c f => Sys2Proof.Machine.execXferInbound c f s
  | .xferComplete c ix => Sys2Proof.Machine.execXferComplete c ix s
  | .semt c f => Sys2Proof.Machine.execSemt c f s
  | .semr c f => Sys2Proof.Machine.execSemr c f s
  | .msg c f => Sys2Proof.Machine.execMsg c f s
  | .smpn c f => Sys2Proof.Machine.execSmpn c f s
  | .smp c f => Sys2Proof.Machine.execSmp c f s
  | .mbiPost p c => Sys2Proof.Machine.execMbiPost p c s
  | .mboRelease p c => Sys2Proof.Machine.execMboRelease p c s
  | .benchSet p c v => Sys2Proof.Machine.execBenchSet p c v s
  | .halt p c v => Sys2Proof.Machine.execHalt p c v s
  | .step p c => Sys2Proof.Machine.execStep p c s
  | .dbgDataWrite p c v => Sys2Proof.Machine.execDbgDataWrite p c v s
  | .replayGo p arm final => Sys2Proof.Machine.execReplayGo p arm final s
  | .replayLoaded p final => Sys2Proof.Machine.execReplayLoaded p final s
  | .frog c f => Sys2Proof.Machine.execFrog c f s
  | .tink c f => Sys2Proof.Machine.execTink c f s
  | .setAngle c f => Sys2Proof.Machine.execSetAngle c f s
  | .setBaseline c f => Sys2Proof.Machine.execSetBaseline c f s
  | .setHitch c f => Sys2Proof.Machine.execSetHitch c f s
  | .extset c f => Sys2Proof.Machine.execExtset c f s
  | .learnReset c f => Sys2Proof.Machine.execLearnReset c f s
  | .fail c f => Sys2Proof.Machine.execFail c f s
  | .recover c f => Sys2Proof.Machine.execRecover c f s
  | .remoteAck c f => Sys2Proof.Machine.execRemoteAck c f s
  | .poseApply p => Sys2Proof.Machine.execPoseApply p s
  | .nodeEvaluationEnd node landed => Sys2Proof.Machine.execNodeEvaluationEnd node landed s
  | .edgeIssue e => Sys2Proof.Machine.execEdgeIssue e s
  | .edgeTarget e => Sys2Proof.Machine.execEdgeTarget e s
  | .fbWaitExpiry e => Sys2Proof.Machine.execFbWaitExpiry e s
  | .remoteAckTimeout e => Sys2Proof.Machine.execRemoteAckTimeout e s
  | .swapReplace p => Sys2Proof.Machine.execSwapReplace p s
  | .swapMerge p => Sys2Proof.Machine.execSwapMerge p s
  | .swapRemove p => Sys2Proof.Machine.execSwapRemove p s
  | .copyGo p => Sys2Proof.Machine.execCopyGo p s
  | .qpeakClear p => Sys2Proof.Machine.execQpeakClear p s
  | .periodStart g => Sys2Proof.Machine.execPeriodStart g s
  | .compareMatch ch at_ => Sys2Proof.Machine.execCompareMatch ch at_ s
  | .periodWrite p g v => Sys2Proof.Machine.execPeriodWrite p g v s
  | .lockWrite p v => Sys2Proof.Machine.execLockWrite p v s
  | .tripActive t => Sys2Proof.Machine.execTripActive t s
  | .tripRelease t => Sys2Proof.Machine.execTripRelease t s
  | .tripClear p mask => Sys2Proof.Machine.execTripClear p mask s
  | .bankGrant sl => Sys2Proof.Machine.execBankGrant sl s
  | .deferExpiry sl => Sys2Proof.Machine.execDeferExpiry sl s
  | .phaseTimeExpiry sl v => Sys2Proof.Machine.execPhaseTimeExpiry sl v s
  | .peakReached sl v => Sys2Proof.Machine.execPeakReached sl v s
  | .chopThreshold sl v => Sys2Proof.Machine.execChopThreshold sl v s
  | .dipConfirmed sl samples => Sys2Proof.Machine.execDipConfirmed sl samples s
  | .kinkWindowOpen sl => Sys2Proof.Machine.execKinkWindowOpen sl s
  | .kinkDetected sl samples => Sys2Proof.Machine.execKinkDetected sl samples s
  | .kinkWindowClose sl => Sys2Proof.Machine.execKinkWindowClose sl s
  | .currentBelowIoff sl v => Sys2Proof.Machine.execCurrentBelowIoff sl v s
  | .currentAboveIoff sl v => Sys2Proof.Machine.execCurrentAboveIoff sl v s
  | .offminExpiry sl => Sys2Proof.Machine.execOffminExpiry sl s
  | .maxonReached sl => Sys2Proof.Machine.execMaxonReached sl s
  | .overCurrent sl own => Sys2Proof.Machine.execOverCurrent sl own s
  | .drainShortSupply d => Sys2Proof.Machine.execDrainShortSupply d s
  | .drainShortGround d => Sys2Proof.Machine.execDrainShortGround d s
  | .highSideFault h => Sys2Proof.Machine.execHighSideFault h s
  | .sliceClear p sl => Sys2Proof.Machine.execSliceClear p sl s
  | .bankClear p b => Sys2Proof.Machine.execBankClear p b s
  | .loopSample n => Sys2Proof.Machine.execLoopSample n s
  | .loopOutput n => Sys2Proof.Machine.execLoopOutput n s
  | .loopModeOff p n => Sys2Proof.Machine.execLoopModeOff p n s
  | .loopModeAuto p n => Sys2Proof.Machine.execLoopModeAuto p n s
  | .loopModeManual p n => Sys2Proof.Machine.execLoopModeManual p n s
  | .loopClear p n => Sys2Proof.Machine.execLoopClear p n s
  | .measurementInstant meas => Sys2Proof.Machine.execMeasurementInstant meas s
  | .tccfgWrite p k v => Sys2Proof.Machine.execTccfgWrite p k v s
  | .channelLockChange k c => Sys2Proof.Machine.execChannelLockChange k c s
  | .navUnitComplete u => Sys2Proof.Machine.execNavUnitComplete u s
  | .solutionApply p => Sys2Proof.Machine.execSolutionApply p s
  | .hold p => Sys2Proof.Machine.execHold p s
  | .accept p => Sys2Proof.Machine.execAccept p s
  | .timeMark o => Sys2Proof.Machine.execTimeMark o s
  | .ppsPulse o => Sys2Proof.Machine.execPpsPulse o s
  | .ppsPulseEnd o => Sys2Proof.Machine.execPpsPulseEnd o s
  | .frameTimeout ix => Sys2Proof.Machine.execFrameTimeout ix s
  | .trackDelete p => Sys2Proof.Machine.execTrackDelete p s
  | .trackInject p => Sys2Proof.Machine.execTrackInject p s
  | .canFrameReceive k sof adm fr => Sys2Proof.Machine.execCanFrameReceive k sof adm fr s
  | .canTxRequest p k mask => Sys2Proof.Machine.execCanTxRequest p k mask s
  | .canTxAbort p k mask => Sys2Proof.Machine.execCanTxAbort p k mask s
  | .canStartOfFrame k sof => Sys2Proof.Machine.execCanStartOfFrame k sof s
  | .canTxEnd k out => Sys2Proof.Machine.execCanTxEnd k out s
  | .canError k role flag => Sys2Proof.Machine.execCanError k role flag s
  | .canRecover p k => Sys2Proof.Machine.execCanRecover p k s
  | .canRecoveryDone k => Sys2Proof.Machine.execCanRecoveryDone k s
  | .canRxrdWrite p k v => Sys2Proof.Machine.execCanRxrdWrite p k v s
  | .canSettingsChange k => Sys2Proof.Machine.execCanSettingsChange k s
  | .kwarosSync port => Sys2Proof.Machine.execKwarosSync port s
  | .kwarosFollowUp port => Sys2Proof.Machine.execKwarosFollowUp port s
  | .ethFrameReceive e ingress adm fr => Sys2Proof.Machine.execEthFrameReceive e ingress adm fr s
  | .ethTxRequest p e mask => Sys2Proof.Machine.execEthTxRequest p e mask s
  | .ethTxEnd e egress => Sys2Proof.Machine.execEthTxEnd e egress s
  | .ethLinkChange e up speed => Sys2Proof.Machine.execEthLinkChange e up speed s
  | .ethRxrdWrite p e v => Sys2Proof.Machine.execEthRxrdWrite p e v s
  | .ptpSync e egress => Sys2Proof.Machine.execPtpSync e egress s
  | .pdelayResponse e egress => Sys2Proof.Machine.execPdelayResponse e egress s
  | .mdioC22Write p e phy dev data => Sys2Proof.Machine.execMdioC22Write p e phy dev data s
  | .mdioC22Read p e phy dev => Sys2Proof.Machine.execMdioC22Read p e phy dev s
  | .mdioC45Address p e phy dev data => Sys2Proof.Machine.execMdioC45Address p e phy dev data s
  | .mdioC45Read p e phy dev => Sys2Proof.Machine.execMdioC45Read p e phy dev s
  | .mdioCycleDone e data => Sys2Proof.Machine.execMdioCycleDone e data s
  | .pulseEdge ix at_ level => Sys2Proof.Machine.execPulseEdge ix at_ level s
  | .quadEdge ix at_ a b => Sys2Proof.Machine.execQuadEdge ix at_ a b s
  | .adcConversion ch raw => Sys2Proof.Machine.execAdcConversion ch raw s
  | .imuDrdy edge => Sys2Proof.Machine.execImuDrdy edge s
  | .imuBurstEnd at_ bytes => Sys2Proof.Machine.execImuBurstEnd at_ bytes s
  | .read p pairOk a n => Sys2Proof.Machine.execRead p pairOk a n s
  | .write p pairOk a ws partialWord => Sys2Proof.Machine.execWrite p pairOk a ws partialWord s
  | .rdsr p pairOk => Sys2Proof.Machine.execRdsr p pairOk s
  | .rdid p pairOk => Sys2Proof.Machine.execRdid p pairOk s
  | .enter8d c => Sys2Proof.Machine.execEnter8d c s
  | .exit8d p pairOk => Sys2Proof.Machine.execExit8d p pairOk s
  | .registerWrite p a v => Sys2Proof.Machine.execRegisterWrite p a v s
  | .semTake p n => Sys2Proof.Machine.execSemTake p n s
  | .semRel p n => Sys2Proof.Machine.execSemRel p n s
  | .semForce p n => Sys2Proof.Machine.execSemForce p n s
  | .commit p => Sys2Proof.Machine.execCommit p s
  | .rollback p => Sys2Proof.Machine.execRollback p s
  | .gaugeProgram p => Sys2Proof.Machine.execGaugeProgram p s
  | .gaugeProgramDone ok => Sys2Proof.Machine.execGaugeProgramDone ok s
  | .sessionOpen p => Sys2Proof.Machine.execSessionOpen p s
  | .sessionClose p => Sys2Proof.Machine.execSessionClose p s
  | .bootCommand p => Sys2Proof.Machine.execBootCommand p s
  | .bootCommandDone data => Sys2Proof.Machine.execBootCommandDone data s
  | .heartbeat p v => Sys2Proof.Machine.execHeartbeat p v s
  | .safeClear p => Sys2Proof.Machine.execSafeClear p s
  | .eventRaiseHost p mask => Sys2Proof.Machine.execEventRaiseHost p mask s
  | .eventPendClear p q w mask => Sys2Proof.Machine.execEventPendClear p q w mask s
  | .canIntegrationEnd k => Sys2Proof.Machine.execCanIntegrationEnd k s
  | .temperatureUpdate drive logic => Sys2Proof.Machine.execTemperatureUpdate drive logic s
  | .powerUp => Sys2Proof.Machine.execPowerUp s
  | .resetRelease => Sys2Proof.Machine.execResetRelease s
  | .resetAssert => Sys2Proof.Machine.execResetAssert s
  | .pllLock => Sys2Proof.Machine.execPllLock s
  | .gaugeCheckDone => Sys2Proof.Machine.execGaugeCheckDone s
  | .imagePlaceDone => Sys2Proof.Machine.execImagePlaceDone s
  | .clockLoss => Sys2Proof.Machine.execClockLoss s
  | .rowBoundary => Sys2Proof.Machine.execRowBoundary s
  | .lingerElapsed => Sys2Proof.Machine.execLingerElapsed s
  | .presenceAssert => Sys2Proof.Machine.execPresenceAssert s
  | .presenceStuck => Sys2Proof.Machine.execPresenceStuck s
  | .grantExpiry => Sys2Proof.Machine.execGrantExpiry s
  | .pi0Wake => Sys2Proof.Machine.execPi0Wake s
  | .rtcAlarm => Sys2Proof.Machine.execRtcAlarm s
  | .rtcSecond => Sys2Proof.Machine.execRtcSecond s
  | .enginesUngated => Sys2Proof.Machine.execEnginesUngated s
  | .aonMirrorArrival => Sys2Proof.Machine.execAonMirrorArrival s
  | .aonSupplyFail => Sys2Proof.Machine.execAonSupplyFail s
  | .trimTakesEffect => Sys2Proof.Machine.execTrimTakesEffect s
  | .dwellExpiry => Sys2Proof.Machine.execDwellExpiry s
  | .passDeadline => Sys2Proof.Machine.execPassDeadline s
  | .trailingWriteEnd => Sys2Proof.Machine.execTrailingWriteEnd s
  | .trailDeadline => Sys2Proof.Machine.execTrailDeadline s
  | .copyDone => Sys2Proof.Machine.execCopyDone s
  | .tileWritebackDone => Sys2Proof.Machine.execTileWritebackDone s
  | .gduvDetect => Sys2Proof.Machine.execGduvDetect s
  | .gduvClear => Sys2Proof.Machine.execGduvClear s
  | .epochAdmission => Sys2Proof.Machine.execEpochAdmission s
  | .solutionLoss => Sys2Proof.Machine.execSolutionLoss s
  | .holdoverExpiry => Sys2Proof.Machine.execHoldoverExpiry s
  | .relationStep => Sys2Proof.Machine.execRelationStep s
  | .fusionDatagram => Sys2Proof.Machine.execFusionDatagram s
  | .fusionOutputDone => Sys2Proof.Machine.execFusionOutputDone s
  | .fusionDeadline => Sys2Proof.Machine.execFusionDeadline s
  | .imuSyncPulse => Sys2Proof.Machine.execImuSyncPulse s
  | .checkerEnd => Sys2Proof.Machine.execCheckerEnd s
  | .sessionTimeout => Sys2Proof.Machine.execSessionTimeout s
  | .pllLockFailed => Sys2Proof.Machine.execPllLockFailed s
  | .pwrenDropElapsed => Sys2Proof.Machine.execPwrenDropElapsed s
  | .imuSyncPulseEnd => Sys2Proof.Machine.execImuSyncPulseEnd s
  | .aonclkLoss => Sys2Proof.Machine.execAonclkLoss s
  | .aonclkReturn => Sys2Proof.Machine.execAonclkReturn s

end Sys2Proof.Machine
end

