-- ==== Sys2Proof/Machine/Tick.lean ====
section
/-! DEFINITION. What passes when no command waits: one cycle of TCLK. -/

namespace Sys2Proof.Machine

/-- One TCLK cycle: device time, where it is valid, moves by 64 sub-ticks (R49, R50). In a replay the logged live
writes and inputs up to then take effect (R42). (DESIGN CHOICE 1 of notes/assumptions) -/
def State.tick (s : State) : State :=
  if s.time.valid then
    let s := { s with time := { s.time with dt := s.time.dt + 64 } }
    s.follow s.now
  else s

end Sys2Proof.Machine
end

