-- ==== Sys2Proof/Machine/Step.lean ====
section
/-! DEFINITION. One step of the device: the command at the front of the queue takes effect, and on an
empty queue one TCLK cycle passes. -/

namespace Sys2Proof.Machine

/-- One step: the front command's effect with the rest of the queue; on an empty queue, a cycle of
TCLK. (DESIGN CHOICE 1, 128; DEDUCED 4 of notes/assumptions) -/
def step (s : State) : Host.Outcome State Fault Refusal :=
  match s.pending with
  | i :: rest => exec i { s with pending := rest }
  | [] => .next s.tick

/-- Puts the command a table word spells at the front of the queue; the table gives no row a word. (DEDUCED 2 of
notes/assumptions) -/
def State.withFetchWord (s : State) (nbits w : Nat) : State :=
  match decodeTableWord nbits w with
  | some i => { s with pending := i :: s.pending }
  | none => s

end Sys2Proof.Machine
end

