-- ==== Sys2Proof/Safety.lean ====
section
/-! DEFINITION. What claims about the device are stated in: canonical tables, frames, the conditions
under which a core executes an instruction, and rounding and clamping as the spec words them. -/

namespace Sys2Proof.Machine

/-- DRAM is in its canonical form: offsets strictly rising, no byte equal to what an unlisted offset
reads as. (DESIGN CHOICE 14 of notes/assumptions) -/
abbrev Memory.wf (s : State) : Bool := Tab.wf 0 s.fab.dram

/-- Every byte of DRAM outside the `n` bytes at `off` reads as before. -/
def DramSameBut (s t : State) (off n : Nat) : Prop :=
  ∀ k, (k < off ∨ off + n ≤ k) → t.dramByte k = s.dramByte k

/-- Every live register field whose bit address is not listed reads as before. -/
def LiveSameBut (s t : State) (keys : List Nat) : Prop :=
  ∀ k, k ∉ keys → ∀ d, Tab.get d t.regs k = Tab.get d s.regs k

/-- `t` differs from `s` in the listed live register fields at most. -/
def OnlyLive (s t : State) (keys : List Nat) : Prop :=
  t = { s with regs := t.regs } ∧ LiveSameBut s t keys

/-- The device serves a host access to a live register at `a`: rows run, or it stands in a cast-on failure,
after a loss of REFCLK or held or stopped by a replay; the variant has the resource; and a replay under way
leaves the register to the hosts (R7, R66, R71, R100, R101, R428). -/
def ServesHost (s : State) (a : Nat) : Prop :=
  (s.power.phase = .rows ∨ s.power.phase = .failed ∨ s.power.phase = .clockLost ∨
    s.power.phase = .replayHold ∨ s.power.phase = .replayEnded) ∧
  busPresent s.variant a = true ∧ (s.rpl.on = true → replayOpen a = true)

/-- The state once a host's write of `v` to the live register at `a` is logged, before its effect (R40). -/
def logged (s : State) (p : Port) (a v : Nat) : State := s.logLive p a v (floorTo 64 s.now)

/-- A command answers a next state that differs from `s` in the listed live fields alone, with these values. -/
def SetsLive (c : Instr) (s l : State) (fs : List (Fld × Nat × Nat × Nat)) : Prop :=
  ∃ t, exec c s = .next t ∧ OnlyLive l t (fs.map (fun x => x.1.key x.2.1 x.2.2.1)) ∧
    ∀ x ∈ fs, t.live x.1 x.2.1 x.2.2.1 = x.2.2.2

/-- Core `c` of `t` is `k`, and nothing else of the device differs from `s`. -/
def OnlyCore (s t : State) (c : Nat) (k : Core) : Prop :=
  t.core c = k ∧ (∀ d, d ≠ c → t.core d = s.core d) ∧ t = { s with cores := t.cores }

/-- Core `c` executes an instruction of `cyc` cycles next: it runs a task in a row, PC lies in instruction
memory, it is not halted or is single-stepped, no breakpoint and no HALT stops it in bench mode, and
outside bench mode its budget holds the cycles (R79, R94, R105, R133). -/
def DexReady (s : State) (c cyc : Nat) : Prop :=
  c < s.variant.cores ∧ s.power.phase = .rows ∧ (s.core c).run ≠ .idle ∧ (s.core c).pc < 0x10000 ∧
  (s.flag Reg.DXC_STAT_HALTED c = true → (s.core c).stepping = true) ∧
  (s.flag Reg.DXC_CTL_BENCH c = true → (s.core c).stepping = true ∨
    (s.flag Reg.DXC_CTL_HALT c = false ∧ s.atBreak c = false)) ∧
  (s.flag Reg.DXC_CTL_BENCH c = false →
    (s.core c).used + cyc ≤ s.conf Reg.DXC_BUDGET_BUDGET c)

/-- What an executed instruction leaves of its core but for its own effect: PC moves on by 4, the budget
counter takes the cycles, and a single step has been made. -/
def Core.passed (k : Core) (cyc : Nat) : Core :=
  { k with pc := k.pc + 4, used := k.used + cyc, stepping := false }

/-- `r` is the exact value `num / den` rounded to the nearest integer, ties away from zero (R17, R109). -/
def NearestAway (num : Int) (den : Nat) (r : Int) : Prop :=
  if 0 ≤ num then (2 * r - 1) * den ≤ 2 * num ∧ 2 * num < (2 * r + 1) * den
  else (2 * r - 1) * den < 2 * num ∧ 2 * num ≤ (2 * r + 1) * den

/-- `r` is `x × 2^sh` rounded (R109). -/
def NearestShift (x sh r : Int) : Prop :=
  if 0 ≤ sh then r = x * 2 ^ sh.toNat else NearestAway x (2 ^ (-sh).toNat) r

/-- `y` is `x` clamped to the signed range of `w` bits (R109). -/
def Clamped (w : Nat) (x y : Int) : Prop :=
  (x < -2 ^ (w - 1) ∧ y = -2 ^ (w - 1)) ∨ (2 ^ (w - 1) ≤ x ∧ y = 2 ^ (w - 1) - 1) ∨
    (-2 ^ (w - 1) ≤ x ∧ x < 2 ^ (w - 1) ∧ y = x)

/-- FLAGS with Z and N taken from a 32-bit result and C and V kept (R107). -/
def zn (k : Core) (v : W32) : BitVec 4 :=
  packFlags (decide (v = 0)) (v.getLsbD 31) (k.flags.getLsbD 1) (k.flags.getLsbD 0)

/-- An instruction of core `c` completes in `cyc` cycles: it writes `v` to `rd` (s0 still reads 0), leaves
FLAGS at `fl` and STICKY at `st`, moves PC on by 4, and changes nothing else of the device. -/
def WritesReg (s : State) (i : Instr) (c cyc : Nat) (rd : BitVec 5) (v : W32) (fl st : BitVec 4) : Prop :=
  ∃ t k, exec i s = .next t ∧ OnlyCore s t c k ∧
    k = { (s.core c).passed cyc with gpr := k.gpr, flags := fl, sticky := st } ∧
    k.s rd = (if rd = 0 then 0 else v) ∧ ∀ r, r ≠ rd → k.s r = (s.core c).s r

/-- The little-endian number in `n` bytes of data memory at a core address. -/
def Core.le (k : Core) (a : Nat) : Nat → Nat
  | 0 => 0
  | n + 1 => (Tab.get 0 k.dmem a).toNat + 256 * Core.le k (a + 1) n

/-- A block of `n` bytes lies wholly in data memory, aligned to `al` (R77, R117, R121). -/
def InDataMemory (a n al : Nat) : Prop := 0x10000 ≤ a ∧ a + n ≤ 0x40000 ∧ a % al = 0

/-- The core executes the instruction and refuses its operands: STICKY.ADDR, and nothing else of its own
effect (R121). -/
def RefusesOperands (s : State) (i : Instr) (c cyc : Nat) : Prop :=
  ∃ t, exec i s = .next t ∧
    OnlyCore s t c { (s.core c).passed cyc with sticky := (s.core c).sticky ||| 4 }

/-- The core executes the instruction and adds one output or request, with `p` bytes of payload, behind the
row's earlier ones (R86, R121). -/
def Posts (s : State) (i : Instr) (c cyc : Nat) (o : Out) (p : Nat) : Prop :=
  (s.core c).entries < 2048 → (s.core c).payload < 8192 → (s.core c).payload + p ≤ 8192 →
    ∃ t, exec i s = .next t ∧
      OnlyCore s t c
        { (s.core c).passed cyc with
          outs := (s.core c).outs ++ [o], entries := (s.core c).entries + 1
          payload := (s.core c).payload + p }

/-- The register fields that a raise of an event source writes (R424 to R426). -/
def eventKeys (e : Nat) : List Nat :=
  [Reg.EVT_CNT_CNT.key e 0, Reg.EVT_ARG_ARG.key e 0, Reg.EVT_STAMP_LO_STAMP.key e 0,
    Reg.EVT_STAMP_HI_STAMP.key e 0, Reg.EVT_PEND_PEND.key 0 (e / 32), Reg.EVT_PEND_PEND.key 1 (e / 32)]

/-- Event source `e` has been raised once: its count, its stamp, its argument where no raise of the same
source stands in the same cycle, and the pending bit of each port it is routed to (R424 to R426). In DOZE and ASLEEP,
where no event but clock-loss is raised, nothing of it has changed (R428). -/
def Raised (s t : State) (e arg : Nat) (st : Stamp) : Prop :=
  if e ≠ 0 ∧ (s.power.phase = .doze ∨ s.power.phase = .unpowered) then
    ∀ k ∈ eventKeys e, ∀ d, Tab.get d t.regs k = Tab.get d s.regs k
  else
    t.live Reg.EVT_CNT_CNT e = (s.live Reg.EVT_CNT_CNT e + 1) % 2 ^ 16 ∧
    t.live64 Reg.EVT_STAMP_LO_STAMP Reg.EVT_STAMP_HI_STAMP e = st.toNat ∧
    (s.boot.raised.contains (e, st) = false → t.live Reg.EVT_ARG_ARG e = arg % 2 ^ 24) ∧
    (s.flag Reg.EVT_ROUTE_HPA e = true → bitOf (t.live Reg.EVT_PEND_PEND 0 (e / 32)) (e % 32) = true) ∧
    (s.flag Reg.EVT_ROUTE_HPB e = true → bitOf (t.live Reg.EVT_PEND_PEND 1 (e / 32)) (e % 32) = true)

/-- The logic die has lost its state: everything but the AON domain, the gauge store, the under-voltage lockout of the gate
drive and the commands stands as at reset, in the given phase and at the given pins; of the live registers only the AON
mirror keeps its values. A programming that was cut off leaves a gauge store that fails its check (R63, R414, R415, R438,
R440). -/
def LosesLogic (s t : State) (phase : Phase) (pwren resetN supplies : Bool) : Prop :=
  t = { State.reset with
    variant := s.variant, regs := t.regs, aon := s.aon, draws := t.draws, hostData := s.hostData
    pending := s.pending
    power := { State.reset.power with phase := phase, pwren := pwren, resetN := resetN, supplies := supplies }
    boot := { State.reset.boot with gauge := t.boot.gauge }, dsl := { State.reset.dsl with gduv := s.dsl.gduv } } ∧
  (s.boot.prog = none → t.boot.gauge = s.boot.gauge ∧ t.draws = s.draws) ∧
  (s.boot.prog ≠ none → gaugeGood t.boot.gauge = false) ∧
  (∀ k, k ≠ Reg.SYS_CLKSTAT_AON_XTAL_OK.key 0 0 →
    ∀ d, Tab.get d t.regs k = if 0x800 ≤ k ∧ k < 0x900 then Tab.get d s.regs k else d) ∧
  t.live Reg.SYS_CLKSTAT_AON_XTAL_OK = s.aon.xtal.toNat

/-- Controller `c` of `t` has written one more entry into its receive ring, and the entry is an input: CTRL with
SEQ, NEW, OVR where the ring was full, the given flags and length, then identifier, stamp, INFO and the data, padded
with zeros; a full ring loses its oldest unread entry; no other byte of any window memory changes (R365 to R368). -/
def CanEntered (s t : State) (c flags len id info : Nat) (data : List Byte) (stamp adm : Stamp) : Prop :=
  let k := s.live Reg.CAN_RXWR_WR c
  let rd := s.live Reg.CAN_RXRD_RD c
  let full := 256 ≤ (k + 2 ^ 32 - rd) % 2 ^ 32
  let a := 0x06010000 + 0x8000 * c + 96 * (k % 256)
  t.live Reg.CAN_RXWR_WR c = (k + 1) % 2 ^ 32 ∧
  (full → t.live Reg.CAN_RXRD_RD c = (rd + 1) % 2 ^ 32 ∧
    t.live Reg.CAN_RXSTAT_OVRCNT c = (s.live Reg.CAN_RXSTAT_OVRCNT c + 1) % 2 ^ 16) ∧
  (¬ full → t.live Reg.CAN_RXRD_RD c = rd ∧ t.live Reg.CAN_RXSTAT_OVRCNT c = s.live Reg.CAN_RXSTAT_OVRCNT c) ∧
  t.winWord a = k % 2 ^ 16 + 2 ^ 16 + (if full then 2 ^ 17 else 0) + flags + len * 2 ^ 24 ∧
  t.winWord (a + 4) = id ∧ t.winWord (a + 8) + 2 ^ 32 * t.winWord (a + 12) = stamp.toNat ∧ t.winWord (a + 16) = info % 2 ^ 32 ∧
  (∀ i, i < 64 → t.winByte (a + 32 + i) = (data[i]?).getD 0) ∧
  (∀ b, (b < a ∨ a + 96 ≤ b) → t.winByte b = s.winByte b) ∧
  t.inp = { s.inp with
    pend := s.inp.pend ++ [⟨BitVec.ofNat 24 (0x010000 + c), stamp, adm, t.rowOf adm, t.winBytes a 96⟩] }

/-- MAC `e` of `t` has written one more entry into its program ring, and the entry is an input: CTRL with SEQ, NEW,
OVR where the ring was full, and the given bits, then the length word, the stamp and the frame, padded with zeros;
no other byte of any window memory changes (R381). -/
def EthEntered (s t : State) (e bits w1 : Nat) (frame : List Byte) (stamp adm : Stamp) : Prop :=
  let k := s.live Reg.ETH_RXWR_WR e
  let rd := s.live Reg.ETH_RXRD_RD e
  let full := 32 ≤ (k + 2 ^ 32 - rd) % 2 ^ 32
  let a := 0x06120000 + 0x10000 * e + 2048 * (k % 32)
  t.live Reg.ETH_RXWR_WR e = (k + 1) % 2 ^ 32 ∧
  t.live Reg.ETH_RXRD_RD e = (if full then (rd + 1) % 2 ^ 32 else rd) ∧
  t.winWord a = k % 2 ^ 16 + 2 ^ 16 + (if full then 2 ^ 17 else 0) + bits ∧ t.winWord (a + 4) = w1 ∧
  t.winWord (a + 8) + 2 ^ 32 * t.winWord (a + 12) = stamp.toNat ∧
  (∀ i, i < 2032 → t.winByte (a + 16 + i) = (frame[i]?).getD 0) ∧
  (∀ b, (b < a ∨ a + 2048 ≤ b) → t.winByte b = s.winByte b) ∧
  t.inp = { s.inp with
    pend := s.inp.pend ++ [⟨BitVec.ofNat 24 (0x020000 + e), stamp, adm, t.rowOf adm, t.winBytes a 2048⟩] }

/-- A core is in order: PC is aligned and at most just past the last word, the tables are canonical, no general
register but s1 to s31 is listed, no accumulator but a0 to a3, and no byte outside data memory (R76, R77,
R102). -/
def CoreInOrder (k : Core) : Prop :=
  k.pc % 4 = 0 ∧ k.pc ≤ 0x10000 ∧
  Tab.wf 0 k.gpr = true ∧ (∀ p ∈ k.gpr, 1 ≤ p.1 ∧ p.1 < 32) ∧
  Tab.wf 0 k.acc = true ∧ (∀ p ∈ k.acc, p.1 < 4) ∧
  Tab.wf 0 k.dmem = true ∧ (∀ p ∈ k.dmem, 0x10000 ≤ p.1 ∧ p.1 < 0x40000)

/-- Every core is in order, and so are the entries that the skein in force gives the cores: aligned, as the
checker demands (R102). -/
def CoresInOrder (s : State) : Prop :=
  (∀ c, CoreInOrder (s.core c)) ∧
  ∀ c, c < 8 → s.conf Reg.DXC_ENTRY_ENTRY c % 4 = 0 ∧ s.conf Reg.DXC_ENTRY_ENTRY c < 0x10000 ∧
    ∀ k, k < 8 → s.conf Reg.DXC_ETASK_ENTRY c k % 4 = 0 ∧ s.conf Reg.DXC_ETASK_ENTRY c k < 0x10000

/-- The command is an instruction of a core, or its overrun stop. -/
def dexizCommand : Instr → Bool
  | .nop _ _
  | .add _ _
  | .sub _ _
  | .adds _ _
  | .subs _ _
  | .and _ _
  | .or _ _
  | .xor _ _
  | .andn _ _
  | .sll _ _
  | .srl _ _
  | .sra _ _
  | .srar _ _
  | .slli _ _
  | .srli _ _
  | .srai _ _
  | .srari _ _
  | .mul _ _
  | .mulh _ _
  | .mulq _ _
  | .div _ _
  | .divu _ _
  | .rem _ _
  | .divq _ _
  | .min _ _
  | .max _ _
  | .minu _ _
  | .maxu _ _
  | .abs _ _
  | .negs _ _
  | .clz _ _
  | .slt _ _
  | .sltu _ _
  | .cmp _ _
  | .flgr _ _
  | .flgw _ _
  | .stkr _ _
  | .stkc _ _
  | .addi _ _
  | .cmpi _ _
  | .andi _ _
  | .ori _ _
  | .xori _ _
  | .lui _ _
  | .lw _ _
  | .lh _ _
  | .lhu _ _
  | .lb _ _
  | .lbu _ _
  | .sw _ _
  | .sh _ _
  | .sb _ _
  | .jalr _ _
  | .aclr _ _
  | .amov _ _
  | .ald _ _
  | .mac _ _
  | .msu _ _
  | .aadd _ _
  | .aext _ _
  | .alo _ _
  | .ahi _ _
  | .j _ _
  | .jal _ _
  | .rwait _ _
  | .evr _ _
  | .ereq _ _
  | .nqry _ _
  | .fprb _ _
  | .semt _ _
  | .semr _ _
  | .msg _ _
  | .smpn _ _
  | .smp _ _
  | .bc _ _
  | .frog _ _
  | .tink _ _
  | .setAngle _ _
  | .setBaseline _ _
  | .setHitch _ _
  | .extset _ _
  | .learnReset _ _
  | .fail _ _
  | .recover _ _
  | .remoteAck _ _
  | .xferOutbound _ _
  | .xferInbound _ _
  | .budgetOverrun _ => true
  | _ => false

end Sys2Proof.Machine
end

