-- ==== Sys2Proof/WellFormed.lean ====
section
/-! DEFINITION. Which commands are well formed: every index names a resource that the widest variant
has (R3), and every received block has the length its rule gives. -/

namespace Sys2Proof

/-- The bytes of an IMU burst (R389). -/
def imuBytes : Nat := 16

/-- A command whose operands lie in the ranges of the spec. (DESIGN CHOICE 6, 7 of notes/assumptions) -/
def Instr.wf : Instr → Bool
  | .powerUp => true
  | .resetRelease => true
  | .resetAssert => true
  | .refclkCheckDone _ => true
  | .pllLock => true
  | .gaugeCheckDone => true
  | .dramTrainingDone _ => true
  | .chaipImageRead _ _ => true
  | .imagePlaceDone => true
  | .recast _ => true
  | .clockLoss => true
  | .rowBoundary => true
  | .lingerElapsed => true
  | .park _ => true
  | .presenceAssert => true
  | .presenceRelease _ => true
  | .presenceStuck => true
  | .grantExpiry => true
  | .canWake k => decide (k < 4)
  | .pi0Wake => true
  | .hostCsWake _ => true
  | .rtcAlarm => true
  | .rtcSecond => true
  | .rtcSet _ _ => true
  | .enginesUngated => true
  | .aonMirrorArrival => true
  | .aonSupplyFail => true
  | .sealCheck _ => true
  | .sealClear _ => true
  | .trimTakesEffect => true
  | .discRelationWrite _ _ => true
  | .dtLatchRead _ => true
  | .dlTapRewrite line taps => decide (line < 514) && decide (taps.length = 64)
  | .dlCalDone _ => true
  | .bankReady b => decide (b < 8)
  | .sampleAdmission _ _ => true
  | .budgetOverrun c => decide (c < 8)
  | .nop c _ => decide (c < 8)
  | .add c _ => decide (c < 8)
  | .sub c _ => decide (c < 8)
  | .adds c _ => decide (c < 8)
  | .subs c _ => decide (c < 8)
  | .and c _ => decide (c < 8)
  | .or c _ => decide (c < 8)
  | .xor c _ => decide (c < 8)
  | .andn c _ => decide (c < 8)
  | .sll c _ => decide (c < 8)
  | .srl c _ => decide (c < 8)
  | .sra c _ => decide (c < 8)
  | .srar c _ => decide (c < 8)
  | .slli c _ => decide (c < 8)
  | .srli c _ => decide (c < 8)
  | .srai c _ => decide (c < 8)
  | .srari c _ => decide (c < 8)
  | .mul c _ => decide (c < 8)
  | .mulh c _ => decide (c < 8)
  | .mulq c _ => decide (c < 8)
  | .div c _ => decide (c < 8)
  | .divu c _ => decide (c < 8)
  | .rem c _ => decide (c < 8)
  | .divq c _ => decide (c < 8)
  | .min c _ => decide (c < 8)
  | .max c _ => decide (c < 8)
  | .minu c _ => decide (c < 8)
  | .maxu c _ => decide (c < 8)
  | .abs c _ => decide (c < 8)
  | .negs c _ => decide (c < 8)
  | .clz c _ => decide (c < 8)
  | .slt c _ => decide (c < 8)
  | .sltu c _ => decide (c < 8)
  | .cmp c _ => decide (c < 8)
  | .flgr c _ => decide (c < 8)
  | .flgw c _ => decide (c < 8)
  | .stkr c _ => decide (c < 8)
  | .stkc c _ => decide (c < 8)
  | .addi c _ => decide (c < 8)
  | .cmpi c _ => decide (c < 8)
  | .andi c _ => decide (c < 8)
  | .ori c _ => decide (c < 8)
  | .xori c _ => decide (c < 8)
  | .lui c _ => decide (c < 8)
  | .aclr c _ => decide (c < 8)
  | .amov c _ => decide (c < 8)
  | .ald c _ => decide (c < 8)
  | .mac c _ => decide (c < 8)
  | .msu c _ => decide (c < 8)
  | .aadd c _ => decide (c < 8)
  | .aext c _ => decide (c < 8)
  | .alo c _ => decide (c < 8)
  | .ahi c _ => decide (c < 8)
  | .lw c _ => decide (c < 8)
  | .lh c _ => decide (c < 8)
  | .lhu c _ => decide (c < 8)
  | .lb c _ => decide (c < 8)
  | .lbu c _ => decide (c < 8)
  | .sw c _ => decide (c < 8)
  | .sh c _ => decide (c < 8)
  | .sb c _ => decide (c < 8)
  | .bc c _ => decide (c < 8)
  | .j c _ => decide (c < 8)
  | .jal c _ => decide (c < 8)
  | .jalr c _ => decide (c < 8)
  | .rwait c _ => decide (c < 8)
  | .evr c _ => decide (c < 8)
  | .ereq c _ => decide (c < 8)
  | .nqry c _ => decide (c < 8)
  | .fprb c _ => decide (c < 8)
  | .xferOutbound c _ => decide (c < 8)
  | .xferInbound c _ => decide (c < 8)
  | .xferComplete c i => decide (c < 8) && decide (i < 16)
  | .semt c _ => decide (c < 8)
  | .semr c _ => decide (c < 8)
  | .msg c _ => decide (c < 8)
  | .smpn c _ => decide (c < 8)
  | .smp c _ => decide (c < 8)
  | .mbiPost _ c => decide (c < 8)
  | .mboRelease _ c => decide (c < 8)
  | .benchSet _ c _ => decide (c < 8)
  | .halt _ c _ => decide (c < 8)
  | .step _ c => decide (c < 8)
  | .dbgDataWrite _ c _ => decide (c < 8)
  | .replayGo _ _ _ => true
  | .replayLoaded _ _ => true
  | .frog c _ => decide (c < 8)
  | .tink c _ => decide (c < 8)
  | .setAngle c _ => decide (c < 8)
  | .setBaseline c _ => decide (c < 8)
  | .setHitch c _ => decide (c < 8)
  | .extset c _ => decide (c < 8)
  | .learnReset c _ => decide (c < 8)
  | .fail c _ => decide (c < 8)
  | .recover c _ => decide (c < 8)
  | .remoteAck c _ => decide (c < 8)
  | .poseApply _ => true
  | .dwellExpiry => true
  | .nodeEvaluationEnd node _ => decide (node < 131072)
  | .passDeadline => true
  | .edgeIssue e => decide (e < 32768)
  | .edgeTarget e => decide (e < 32768)
  | .fbWaitExpiry e => decide (e < 32768)
  | .remoteAckTimeout e => decide (e < 32768)
  | .trailingWriteEnd => true
  | .trailDeadline => true
  | .swapReplace _ => true
  | .swapMerge _ => true
  | .swapRemove _ => true
  | .copyGo _ => true
  | .copyDone => true
  | .tileWritebackDone => true
  | .qpeakClear _ => true
  | .periodStart g => decide (g < 32)
  | .compareMatch ch _ => decide (ch < 512)
  | .periodWrite _ g _ => decide (g < 32)
  | .lockWrite _ _ => true
  | .tripActive t => decide (t.trip < 16)
  | .tripRelease t => decide (t.trip < 16)
  | .tripClear _ _ => true
  | .bankGrant sl => decide (sl < 48)
  | .deferExpiry sl => decide (sl < 48)
  | .phaseTimeExpiry sl _ => decide (sl < 48)
  | .peakReached sl _ => decide (sl < 48)
  | .chopThreshold sl _ => decide (sl < 48)
  | .dipConfirmed sl _ => decide (sl < 48)
  | .kinkWindowOpen sl => decide (sl < 48)
  | .kinkDetected sl _ => decide (sl < 48)
  | .kinkWindowClose sl => decide (sl < 48)
  | .currentBelowIoff sl _ => decide (sl < 48)
  | .currentAboveIoff sl _ => decide (sl < 48)
  | .offminExpiry sl => decide (sl < 48)
  | .maxonReached sl => decide (sl < 48)
  | .overCurrent sl _ => decide (sl < 48)
  | .drainShortSupply d => decide (d.slice < 48)
  | .drainShortGround d => decide (d.slice < 48)
  | .highSideFault h => decide (h.bank < 8)
  | .gduvDetect => true
  | .gduvClear => true
  | .sliceClear _ sl => decide (sl < 48)
  | .bankClear _ b => decide (b < 8)
  | .loopSample n => decide (n < 64)
  | .loopOutput n => decide (n < 64)
  | .loopModeOff _ n => decide (n < 64)
  | .loopModeAuto _ n => decide (n < 64)
  | .loopModeManual _ n => decide (n < 64)
  | .loopClear _ n => decide (n < 64)
  | .measurementInstant meas => meas.all (fun m => decide (m.tc < 256))
  | .epochAdmission => true
  | .tccfgWrite _ k _ => decide (k < 256)
  | .channelLockChange k _ => decide (k < 256)
  | .navUnitComplete u => decide (u.tc < 256)
  | .solutionApply _ => true
  | .hold _ => true
  | .accept _ => true
  | .solutionLoss => true
  | .holdoverExpiry => true
  | .relationStep => true
  | .timeMark o => decide (o < 2)
  | .ppsPulse o => decide (o < 2)
  | .ppsPulseEnd o => decide (o < 2)
  | .fusionDatagram => true
  | .frameTimeout i => decide (i < 16)
  | .fusionOutputDone => true
  | .fusionDeadline => true
  | .trackDelete _ => true
  | .trackInject _ => true
  | .canFrameReceive k _ _ fr => decide (k < 4) && decide (fr.data.length ≤ 64)
  | .canTxRequest _ k _ => decide (k < 4)
  | .canTxAbort _ k _ => decide (k < 4)
  | .canStartOfFrame k _ => decide (k < 4)
  | .canTxEnd k _ => decide (k < 4)
  | .canError k _ _ => decide (k < 4)
  | .canRecover _ k => decide (k < 4)
  | .canRecoveryDone k => decide (k < 4)
  | .canRxrdWrite _ k _ => decide (k < 4)
  | .canSettingsChange k => decide (k < 4)
  | .kwarosSync port => decide (port < 6)
  | .kwarosFollowUp port => decide (port < 6)
  | .ethFrameReceive e _ _ _ => decide (e < 2)
  | .ethTxRequest _ e _ => decide (e < 2)
  | .ethTxEnd e _ => decide (e < 2)
  | .ethLinkChange e _ _ => decide (e < 2)
  | .ethRxrdWrite _ e _ => decide (e < 2)
  | .ptpSync e _ => decide (e < 2)
  | .pdelayResponse e _ => decide (e < 2)
  | .mdioC22Write _ e _ _ _ => decide (e < 2)
  | .mdioC22Read _ e _ _ => decide (e < 2)
  | .mdioC45Address _ e _ _ _ => decide (e < 2)
  | .mdioC45Read _ e _ _ => decide (e < 2)
  | .mdioCycleDone e _ => decide (e < 2)
  | .pulseEdge i _ _ => decide (i < 24)
  | .quadEdge i _ _ _ => decide (i < 24)
  | .adcConversion ch _ => decide (ch < 16)
  | .imuDrdy _ => true
  | .imuBurstEnd _ bytes => decide (bytes.length = imuBytes)
  | .imuSyncPulse => true
  | .read _ _ _ _ => true
  | .write _ _ _ _ _ => true
  | .rdsr _ _ => true
  | .rdid _ _ => true
  | .enter8d _ => true
  | .exit8d _ _ => true
  | .registerWrite _ _ _ => true
  | .semTake _ n => decide (n < 32)
  | .semRel _ n => decide (n < 32)
  | .semForce _ n => decide (n < 32)
  | .commit _ => true
  | .rollback _ => true
  | .checkerEnd => true
  | .gaugeProgram _ => true
  | .gaugeProgramDone _ => true
  | .sessionOpen _ => true
  | .sessionClose _ => true
  | .sessionTimeout => true
  | .bootCommand _ => true
  | .bootCommandDone _ => true
  | .heartbeat _ _ => true
  | .safeClear _ => true
  | .eventRaiseHost _ _ => true
  | .eventPendClear _ _ w _ => decide (w < 4)
  | .pllLockFailed => true
  | .pwrenDropElapsed => true
  | .canIntegrationEnd k => decide (k < 4)
  | .imuSyncPulseEnd => true
  | .aonclkLoss => true
  | .aonclkReturn => true
  | .temperatureUpdate _ _ => true

end Sys2Proof
end

