-- ==== Sys2Proof/Certificates/Slice0/Obligations.lean ====
section
/-! DEFINITION. The statements for the provers, chapter by chapter, with the vocabulary they share. -/

open Sys2Proof Sys2Proof.Machine

/-! ### The queue of commands -/

/-- A step takes the command at the front of the queue and runs it on the state with the rest of the queue. -/
def Obligations.StepRunsTheFrontCommand : Prop :=
  ∀ (c : Instr) (s : State), step { s with pending := c :: s.pending } = exec c s

/-! ### Dexiz: the register, immediate and accumulator groups -/

/-- ADD, ADDI: the sum modulo 2^32 and all four flags; SUB, CMP and CMPI: the difference, C as no borrow
(R107, R108, R114, R115). -/
def Obligations.AddAndSubtractWriteResultAndFlags : Prop :=
  ∀ (s : State) (c : Nat) (rd ra rb : BitVec 5) (imm : BitVec 16), DexReady s c 1 →
    let k := s.core c
    let a := k.s ra
    let sum := fun (b : W32) => BitVec.ofNat 32 (a.toNat + b.toNat)
    let dif := fun (b : W32) => BitVec.ofInt 32 ((a.toNat : Int) - b.toNat)
    let out := fun (x : Int) => decide (x < -2 ^ 31 ∨ 2 ^ 31 ≤ x)
    let fadd := fun (b : W32) => packFlags (decide (sum b = 0)) ((sum b).getLsbD 31)
      (decide (2 ^ 32 ≤ a.toNat + b.toNat)) (out (a.toInt + b.toInt))
    let fsub := fun (b : W32) => packFlags (decide (dif b = 0)) ((dif b).getLsbD 31)
      (decide (b.toNat ≤ a.toNat)) (out (a.toInt - b.toInt))
    WritesReg s (.add c ⟨rd, ra, rb, 0⟩) c 1 rd (sum (k.s rb)) (fadd (k.s rb)) k.sticky ∧
    WritesReg s (.addi c ⟨rd, ra, imm⟩) c 1 rd (sum (imm.signExtend 32)) (fadd (imm.signExtend 32)) k.sticky ∧
    WritesReg s (.sub c ⟨rd, ra, rb, 0⟩) c 1 rd (dif (k.s rb)) (fsub (k.s rb)) k.sticky ∧
    WritesReg s (.cmp c ⟨0, ra, rb, 0⟩) c 1 0 0 (fsub (k.s rb)) k.sticky ∧
    WritesReg s (.cmpi c ⟨0, ra, imm⟩) c 1 0 0 (fsub (imm.signExtend 32)) k.sticky

/-- ADDS, SUBS, ABS and NEGS: the exact value clamped to 32 bits, SAT set where the clamp changes it, Z and N
from the result (R107, R109, R114). -/
def Obligations.SaturatingArithmeticClampsAndSetsSat : Prop :=
  ∀ (s : State) (c : Nat) (rd ra rb : BitVec 5), DexReady s c 1 →
    let k := s.core c
    let a := (k.s ra).toInt
    let b := (k.s rb).toInt
    let sat := fun (i : Instr) (x : Int) => ∃ y, Clamped 32 x y ∧
      WritesReg s i c 1 rd (BitVec.ofInt 32 y) (zn k (BitVec.ofInt 32 y))
        (if y = x then k.sticky else k.sticky ||| 1)
    sat (.adds c ⟨rd, ra, rb, 0⟩) (a + b) ∧ sat (.subs c ⟨rd, ra, rb, 0⟩) (a - b) ∧
    sat (.abs c ⟨rd, ra, 0, 0⟩) a.natAbs ∧ sat (.negs c ⟨rd, ra, 0, 0⟩) (-a)

/-- AND, OR, XOR, ANDN, ANDI, ORI, XORI and LUI, bit by bit: the immediates of the logic forms are
zero-extended (R114, R115). -/
def Obligations.LogicActsBitwise : Prop :=
  ∀ (s : State) (c : Nat) (rd ra rb : BitVec 5) (imm : BitVec 16), DexReady s c 1 →
    let k := s.core c
    let a := k.s ra
    let b := k.s rb
    let bits := fun (i : Instr) (f : Nat → Bool) => ∃ v : W32,
      (∀ n, n < 32 → v.getLsbD n = f n) ∧ WritesReg s i c 1 rd v (zn k v) k.sticky
    bits (.and c ⟨rd, ra, rb, 0⟩) (fun n => a.getLsbD n && b.getLsbD n) ∧
    bits (.or c ⟨rd, ra, rb, 0⟩) (fun n => a.getLsbD n || b.getLsbD n) ∧
    bits (.xor c ⟨rd, ra, rb, 0⟩) (fun n => a.getLsbD n != b.getLsbD n) ∧
    bits (.andn c ⟨rd, ra, rb, 0⟩) (fun n => a.getLsbD n && !b.getLsbD n) ∧
    bits (.andi c ⟨rd, ra, imm⟩) (fun n => a.getLsbD n && (decide (n < 16) && imm.getLsbD n)) ∧
    bits (.ori c ⟨rd, ra, imm⟩) (fun n => a.getLsbD n || (decide (n < 16) && imm.getLsbD n)) ∧
    bits (.xori c ⟨rd, ra, imm⟩) (fun n => a.getLsbD n != (decide (n < 16) && imm.getLsbD n)) ∧
    bits (.lui c ⟨rd, 0, imm⟩) (fun n => decide (16 ≤ n) && imm.getLsbD (n - 16))

/-- The shifts by a register take its bits 4:0, those by SH the field as an unsigned count; SRA and SRAI
round towards −∞, SRAR and SRARI to nearest with ties away from zero (R109, R111, R114). -/
def Obligations.ShiftsMoveAndRound : Prop :=
  ∀ (s : State) (c : Nat) (rd ra rb sh : BitVec 5), DexReady s c 1 →
    let k := s.core c
    let a := k.s ra
    let nb := (k.s rb).toNat % 32
    let ok := fun (i : Instr) (v : W32) => WritesReg s i c 1 rd v (zn k v) k.sticky
    let left := fun (n : Nat) => BitVec.ofNat 32 (a.toNat * 2 ^ n)
    let right := fun (n : Nat) => BitVec.ofNat 32 (a.toNat / 2 ^ n)
    let floor := fun (n : Nat) => BitVec.ofInt 32 (a.toInt / 2 ^ n)
    ok (.sll c ⟨rd, ra, rb, 0⟩) (left nb) ∧ ok (.slli c ⟨rd, ra, 0, sh⟩) (left sh.toNat) ∧
    ok (.srl c ⟨rd, ra, rb, 0⟩) (right nb) ∧ ok (.srli c ⟨rd, ra, 0, sh⟩) (right sh.toNat) ∧
    ok (.sra c ⟨rd, ra, rb, 0⟩) (floor nb) ∧ ok (.srai c ⟨rd, ra, 0, sh⟩) (floor sh.toNat) ∧
    (∃ r, NearestAway a.toInt (2 ^ nb) r ∧ ok (.srar c ⟨rd, ra, rb, 0⟩) (BitVec.ofInt 32 r)) ∧
    (∃ r, NearestAway a.toInt (2 ^ sh.toNat) r ∧ ok (.srari c ⟨rd, ra, 0, sh⟩) (BitVec.ofInt 32 r))

/-- MUL, MULH and MULQ: the low word, the high word, and the product times 2^SH, rounded once and clamped
(R109, R111, R114). -/
def Obligations.MultiplyFormsTakeTheExactProduct : Prop :=
  ∀ (s : State) (c : Nat) (rd ra rb sh : BitVec 5), DexReady s c 2 →
    let k := s.core c
    let p := (k.s ra).toInt * (k.s rb).toInt
    WritesReg s (.mul c ⟨rd, ra, rb, 0⟩) c 2 rd (BitVec.ofInt 32 p) (zn k (BitVec.ofInt 32 p)) k.sticky ∧
    (∃ v : W32, ∃ lo : Nat, lo < 2 ^ 32 ∧ p = v.toInt * 2 ^ 32 + lo ∧
      WritesReg s (.mulh c ⟨rd, ra, rb, 0⟩) c 2 rd v (zn k v) k.sticky) ∧
    (∃ x y, NearestShift p sh.toInt x ∧ Clamped 32 x y ∧
      WritesReg s (.mulq c ⟨rd, ra, rb, sh⟩) c 2 rd (BitVec.ofInt 32 y) (zn k (BitVec.ofInt 32 y))
        (if y = x then k.sticky else k.sticky ||| 1))

/-- DIV, DIVU, REM and DIVQ, with their results by zero and DIVZ, the one overflow of DIV and SAT, and the
sign of the remainder (R109, R114). -/
def Obligations.DivisionFormsAndTheirCorners : Prop :=
  ∀ (s : State) (c : Nat) (rd ra rb sh : BitVec 5), DexReady s c 34 →
    let k := s.core c
    let a := k.s ra
    let b := k.s rb
    let ok := fun (i : Instr) (v : W32) (st : BitVec 4) => WritesReg s i c 34 rd v (zn k v) st
    let byZero : W32 := if 0 ≤ a.toInt then 0x7FFFFFFF else 0x80000000
    (b = 0 → ok (.div c ⟨rd, ra, rb, 0⟩) byZero (k.sticky ||| 2) ∧
      ok (.divq c ⟨rd, ra, rb, sh⟩) byZero (k.sticky ||| 2) ∧
      ok (.divu c ⟨rd, ra, rb, 0⟩) 0xFFFFFFFF (k.sticky ||| 2) ∧
      ok (.rem c ⟨rd, ra, rb, 0⟩) a (k.sticky ||| 2)) ∧
    (a = 0x80000000 ∧ b = 0xFFFFFFFF →
      ok (.div c ⟨rd, ra, rb, 0⟩) 0x7FFFFFFF (k.sticky ||| 1) ∧
      ok (.rem c ⟨rd, ra, rb, 0⟩) 0 k.sticky) ∧
    (b ≠ 0 → ¬ (a = 0x80000000 ∧ b = 0xFFFFFFFF) →
      ∃ q r : W32, a.toInt = q.toInt * b.toInt + r.toInt ∧ r.toInt.natAbs < b.toInt.natAbs ∧
        (0 ≤ a.toInt → 0 ≤ r.toInt) ∧ (a.toInt ≤ 0 → r.toInt ≤ 0) ∧
        ok (.div c ⟨rd, ra, rb, 0⟩) q k.sticky ∧ ok (.rem c ⟨rd, ra, rb, 0⟩) r k.sticky) ∧
    (b ≠ 0 → ∃ q r : W32, a.toNat = q.toNat * b.toNat + r.toNat ∧ r.toNat < b.toNat ∧
      ok (.divu c ⟨rd, ra, rb, 0⟩) q k.sticky) ∧
    (b ≠ 0 → ∃ x y, Clamped 32 x y ∧
      (let n := if b.toInt < 0 then -a.toInt else a.toInt
       if 0 ≤ sh.toInt then NearestAway (n * 2 ^ sh.toInt.toNat) b.toInt.natAbs x
       else NearestAway n (b.toInt.natAbs * 2 ^ (-sh.toInt).toNat) x) ∧
      ok (.divq c ⟨rd, ra, rb, sh⟩) (BitVec.ofInt 32 y)
        (if y = x then k.sticky else k.sticky ||| 1))

/-- MIN, MAX, SLT compare as signed values, MINU, MAXU, SLTU as unsigned; CLZ counts the zeros above the
highest one (R114). -/
def Obligations.ComparisonsAndLeadingZeros : Prop :=
  ∀ (s : State) (c : Nat) (rd ra rb : BitVec 5), DexReady s c 1 →
    let k := s.core c
    let a := k.s ra
    let b := k.s rb
    let ok := fun (i : Instr) (v : W32) => WritesReg s i c 1 rd v (zn k v) k.sticky
    (∃ v, v.toInt = min a.toInt b.toInt ∧ ok (.min c ⟨rd, ra, rb, 0⟩) v) ∧
    (∃ v, v.toInt = max a.toInt b.toInt ∧ ok (.max c ⟨rd, ra, rb, 0⟩) v) ∧
    (∃ v, v.toNat = min a.toNat b.toNat ∧ ok (.minu c ⟨rd, ra, rb, 0⟩) v) ∧
    (∃ v, v.toNat = max a.toNat b.toNat ∧ ok (.maxu c ⟨rd, ra, rb, 0⟩) v) ∧
    ok (.slt c ⟨rd, ra, rb, 0⟩) (if a.toInt < b.toInt then 1 else 0) ∧
    ok (.sltu c ⟨rd, ra, rb, 0⟩) (if a.toNat < b.toNat then 1 else 0) ∧
    (∃ n, n ≤ 32 ∧ a.toNat < 2 ^ (32 - n) ∧ (n < 32 → 2 ^ (31 - n) ≤ a.toNat) ∧
      ok (.clz c ⟨rd, ra, 0, 0⟩) (BitVec.ofNat 32 n))

/-- NOP changes nothing; FLGR and STKR read FLAGS and STICKY into bits 3:0; FLGW writes FLAGS; STKC clears
the sticky bits that are set in its operand (R106, R107, R114). -/
def Obligations.FlagAndStickyAccess : Prop :=
  ∀ (s : State) (c : Nat) (rd ra : BitVec 5), DexReady s c 1 →
    let k := s.core c
    let a := k.s ra
    WritesReg s (.nop c ⟨0, 0, 0, 0⟩) c 1 0 0 k.flags k.sticky ∧
    WritesReg s (.flgr c ⟨rd, 0, 0, 0⟩) c 1 rd (BitVec.ofNat 32 k.flags.toNat) k.flags k.sticky ∧
    WritesReg s (.stkr c ⟨rd, 0, 0, 0⟩) c 1 rd (BitVec.ofNat 32 k.sticky.toNat) k.flags k.sticky ∧
    (∃ fl : BitVec 4, (∀ n, n < 4 → fl.getLsbD n = a.getLsbD n) ∧
      WritesReg s (.flgw c ⟨0, ra, 0, 0⟩) c 1 0 0 fl k.sticky) ∧
    (∃ st : BitVec 4, (∀ n, n < 4 → st.getLsbD n = (k.sticky.getLsbD n && !a.getLsbD n)) ∧
      WritesReg s (.stkc c ⟨0, ra, 0, 0⟩) c 1 0 0 k.flags st)

/-- The accumulator group: ACLR, AMOV, ALD, MAC, MSU and AADD leave every general register and FLAGS alone
and write one accumulator; AEXT, ALO and AHI read one (R109, R116). -/
def Obligations.AccumulatorGroupResults : Prop :=
  ∀ (s : State) (c : Nat) (rd ra rb sh : BitVec 5) (ad : BitVec 2),
    let k := s.core c
    let a := k.s ra
    let b := k.s rb
    let acc := fun (r : BitVec 2) => (Tab.get 0 k.acc r.toNat).toInt
    let sets := fun (i : Instr) (cyc : Nat) (v : Int) (st : BitVec 4) => ∃ t k', exec i s = .next t ∧
      OnlyCore s t c k' ∧ k' = { k.passed cyc with acc := k'.acc, sticky := st } ∧
      (Tab.get 0 k'.acc ad.toNat).toInt = v ∧
      ∀ r : Nat, r ≠ ad.toNat → Tab.get 0 k'.acc r = Tab.get 0 k.acc r
    let sat := fun (i : Instr) (x : Int) => ∃ y, Clamped 64 x y ∧
      sets i 2 y (if y = x then k.sticky else k.sticky ||| 1)
    (DexReady s c 1 →
      sets (.aclr c ⟨0, 0, 0, 0, ad⟩) 1 0 k.sticky ∧
      sets (.amov c ⟨0, ra, rb, 0, ad⟩) 1 (b.toInt * 2 ^ 32 + a.toNat) k.sticky ∧
      (∃ v : W32, v.toNat = (Tab.get 0 k.acc ad.toNat).toNat % 2 ^ 32 ∧
        WritesReg s (.alo c ⟨rd, 0, 0, 0, ad⟩) c 1 rd v k.flags k.sticky) ∧
      (∃ v : W32, v.toInt = acc ad / 2 ^ 32 ∧
        WritesReg s (.ahi c ⟨rd, 0, 0, 0, ad⟩) c 1 rd v k.flags k.sticky)) ∧
    (DexReady s c 2 →
      (∃ r, NearestShift a.toInt sh.toInt r ∧ sets (.ald c ⟨0, ra, 0, sh, ad⟩) 2 r k.sticky) ∧
      sat (.mac c ⟨0, ra, rb, 0, ad⟩) (acc ad + a.toInt * b.toInt) ∧
      sat (.msu c ⟨0, ra, rb, 0, ad⟩) (acc ad - a.toInt * b.toInt) ∧
      (rb.toNat < 4 → sat (.aadd c ⟨0, 0, rb, 0, ad⟩) (acc ad + (Tab.get 0 k.acc rb.toNat).toInt)) ∧
      (∃ x y, NearestShift (acc ad) sh.toInt x ∧ Clamped 32 x y ∧
        WritesReg s (.aext c ⟨rd, 0, 0, sh, ad⟩) c 2 rd (BitVec.ofInt 32 y)
          (zn k (BitVec.ofInt 32 y)) (if y = x then k.sticky else k.sticky ||| 1)))

/-! ### Dexiz: memory and control -/

/-- Loads from data memory, little-endian, with sign or zero extension; a narrow load anywhere else, or a
misaligned one, writes 0 and sets STICKY.ADDR; LW of the register space gives the word of the row snapshot, and 0
with ADDR of a register that the variant lacks; LW of a ring window gives the word as it stands, in a replay as it
stood at the boundary, and a CTRL word that no longer holds the entry logs one LOST_OVERRUN (R84, R117, R118, R369). -/
def Obligations.LoadsFromDataMemoryAndSnapshot : Prop :=
  ∀ (s : State) (c : Nat) (rd ra : BitVec 5) (imm : BitVec 16), DexReady s c 2 →
    let k := s.core c
    let f : IFmt := ⟨rd, ra, imm⟩
    let ea := (k.s ra + imm.signExtend 32).toNat
    let ok := fun (i : Instr) (v : W32) => WritesReg s i c 2 rd v k.flags k.sticky
    let bad := fun (i : Instr) => WritesReg s i c 2 rd 0 k.flags (k.sticky ||| 4)
    let signed := fun (w n : Nat) => BitVec.ofInt 32 (if n < 2 ^ (w - 1) then (n : Int) else n - 2 ^ w)
    (InDataMemory ea 4 4 → ok (.lw c f) (BitVec.ofNat 32 (k.le ea 4))) ∧
    (InDataMemory ea 2 2 → ok (.lhu c f) (BitVec.ofNat 32 (k.le ea 2)) ∧
      ok (.lh c f) (signed 16 (k.le ea 2))) ∧
    (InDataMemory ea 1 1 → ok (.lbu c f) (BitVec.ofNat 32 (k.le ea 1)) ∧
      ok (.lb c f) (signed 8 (k.le ea 1))) ∧
    (¬ InDataMemory ea 2 2 → bad (.lhu c f) ∧ bad (.lh c f)) ∧
    (¬ InDataMemory ea 1 1 → bad (.lbu c f) ∧ bad (.lb c f)) ∧
    (¬ InDataMemory ea 4 4 → (regSpace ea = none ∨ ea % 4 ≠ 0) → bad (.lw c f)) ∧
    (∀ h, regSpace ea = some h → ea % 4 = 0 → canRing h = none → ethRing h = none →
      busPresent s.variant h = true →
      match snapWord (s.coreSnap c) c h with
      | some w => ok (.lw c f) (BitVec.ofNat 32 w)
      | none => bad (.lw c f)) ∧
    (∀ h, regSpace ea = some h → ea % 4 = 0 → busPresent s.variant h = false → bad (.lw c f)) ∧
    let loads := fun (u : State) (v : Nat) => ∃ t k', exec (.lw c f) s = .next t ∧ OnlyCore u t c k' ∧
      k' = { k.passed 2 with gpr := k'.gpr } ∧ k'.s rd = (if rd = 0 then 0 else BitVec.ofNat 32 v) ∧
      ∀ r, r ≠ rd → k'.s r = k.s r
    let shows := fun (size a o : Nat) (entry : Option Nat) (lost : List (Nat × W32)) (noting : Nat → State) =>
      let w := if s.rpl.on then leNat ((List.range 4).map (fun i => Tab.get 0 (s.coreSnap c).rings (a + i)))
        else s.winWord a
      (o % size ≠ 0 ∨ entry = none → loads s w) ∧
      ∀ e, o % size = 0 → entry = some e →
        let noted := lost.contains (0, BitVec.ofNat 32 e)
        let held := w % 2 ^ 16 = e % 2 ^ 16 ∧ bitOf w 16 = true
        (s.rpl.on = true → loads s (if noted then w - w / 2 ^ 16 % 2 * 2 ^ 16 else w)) ∧
        (s.rpl.on = false → held ∨ noted = true → loads s w) ∧
        (s.rpl.on = false → ¬ held → noted = false → loads (noting e) w)
    let between := fun (n o : Nat) (rp wp : Fld) (x : Nat) =>
      ringEntry n o (rp.get (s.coreSnap c).regs x 0).toNat (wp.get (s.coreSnap c).regs x 0).toNat
    (∀ h x o, regSpace ea = some h → ea % 4 = 0 → busPresent s.variant h = true → canRing h = some (x, o) →
      shows 96 (0x06010000 + 0x8000 * x + o) o (between 256 (o / 96) Reg.CAN_RXRD_RD Reg.CAN_RXWR_WR x)
        (s.can x).lost (fun e =>
          let u := s.logEntry 0x03 (0x010000 + x) (Tab.get 0 (s.can x).stamps (e % 2 ^ 16)) s.row.num
          u.setCan x { u.can x with lost := (0, BitVec.ofNat 32 e) :: (s.can x).lost })) ∧
    (∀ h x o, regSpace ea = some h → ea % 4 = 0 → busPresent s.variant h = true → canRing h = none →
      ethRing h = some (x, o) →
      shows 2048 (0x06120000 + 0x10000 * x + o) o (between 32 (o / 2048) Reg.ETH_RXRD_RD Reg.ETH_RXWR_WR x)
        (s.eth x).lost (fun e =>
          let u := s.logEntry 0x03 (0x020000 + x) (Tab.get 0 (s.eth x).stamps (e % 2 ^ 16)) s.row.num
          u.setEth x { u.eth x with lost := (0, BitVec.ofNat 32 e) :: (s.eth x).lost }))

/-- Stores to data memory write exactly their bytes, little-endian, and leave every other byte of data memory
and every register alone; a store anywhere but in data memory or in the writable register space, or a
misaligned one, or one to the registers that serve hosts only, is ignored and sets STICKY.ADDR; any other word
stored to the register space is one output of the row, with 4 bytes of payload where it goes to a transmit buffer of
CAN or Ethernet (R29, R86, R117, R118, R397).
Where it goes beyond the rules it rests on log entries 8 and 57. -/
def Obligations.StoresWriteTheirBytesOrPostAnOutput : Prop :=
  ∀ (s : State) (c : Nat) (rd ra : BitVec 5) (imm : BitVec 16), DexReady s c 1 →
    let k := s.core c
    let f : IFmt := ⟨rd, ra, imm⟩
    let ea := (k.s ra + imm.signExtend 32).toNat
    let ok := fun (i : Instr) (n : Nat) => ∃ t k', exec i s = .next t ∧ OnlyCore s t c k' ∧
      k' = { k.passed 1 with dmem := k'.dmem } ∧
      (∀ j, j < n → (Tab.get 0 k'.dmem (ea + j)).toNat = (k.s rd).toNat / 256 ^ j % 256) ∧
      ∀ a, (a < ea ∨ ea + n ≤ a) → Tab.get 0 k'.dmem a = Tab.get 0 k.dmem a
    (InDataMemory ea 4 4 → ok (.sw c f) 4) ∧ (InDataMemory ea 2 2 → ok (.sh c f) 2) ∧
    (InDataMemory ea 1 1 → ok (.sb c f) 1) ∧
    (¬ InDataMemory ea 2 2 → RefusesOperands s (.sh c f) c 1) ∧
    (¬ InDataMemory ea 1 1 → RefusesOperands s (.sb c f) c 1) ∧
    (¬ InDataMemory ea 4 4 → (regSpace ea = none ∨ ea % 4 ≠ 0) → RefusesOperands s (.sw c f) c 1) ∧
    (∀ h, regSpace ea = some h → ea % 4 = 0 →
      if hostOnly h = true then RefusesOperands s (.sw c f) c 1
      else Posts s (.sw c f) c 1 (.store (BitVec.ofNat 32 h) (k.s rd))
        (if (canTx h).isSome || (ethTx h).isSome then 4 else 0))

/-- A taken branch or a jump goes to PC + OFF × 4, JALR to a + sext(IMM); the links take PC + 4, and JALR
computes its target before it writes RD; a branch not taken goes on at PC + 4; FLAGS never change (R119). -/
def Obligations.ControlTransferSetsPcAndLinks : Prop :=
  ∀ (s : State) (c : Nat) (cc : BitVec 4) (l : BitVec 1) (off : BitVec 16) (off26 : BitVec 26)
    (rd ra : BitVec 5) (imm : BitVec 16), DexReady s c 2 →
    let k := s.core c
    let goes := fun (i : Instr) (tgt : Nat) (link : Option (BitVec 5)) => ∃ t k', exec i s = .next t ∧
      OnlyCore s t c k' ∧ k' = { k.passed 2 with gpr := k'.gpr, pc := tgt } ∧
      ∀ r, k'.s r = if link = some r ∧ r ≠ 0 then BitVec.ofNat 32 (k.pc + 4) else k.s r
    let good := fun (x : Int) => 0 ≤ x ∧ x ≤ 0xFFFC ∧ x % 4 = 0
    let to16 := (k.pc : Int) + off.toInt * 4
    let to26 := (k.pc : Int) + off26.toInt * 4
    let tr := (k.s ra + imm.signExtend 32).toNat
    (condHolds k cc = some false → goes (.bc c ⟨cc, l, 0, off⟩) (k.pc + 4) none) ∧
    (condHolds k cc = some true → good to16 →
      goes (.bc c ⟨cc, l, 0, off⟩) to16.toNat (if l = 1 then some 31 else none)) ∧
    (good to26 → goes (.j c ⟨off26⟩) to26.toNat none ∧ goes (.jal c ⟨off26⟩) to26.toNat (some 31)) ∧
    (good tr → goes (.jalr c ⟨rd, ra, imm⟩) tr (some rd))

/-- The condition codes as the meaning after CMP a, b states them: signed and unsigned orderings, the single
flags, and no code 0xF (R108, R120). -/
def Obligations.ConditionCodesAfterCompare : Prop :=
  ∀ (k : Core) (a b : W32),
    let q := k.flagsSub a b
    condHolds q 0 = some true ∧ condHolds q 15 = none ∧
    condHolds q 1 = some (decide (a = b)) ∧ condHolds q 2 = some (decide (a ≠ b)) ∧
    condHolds q 3 = some (decide (a.toInt < b.toInt)) ∧ condHolds q 4 = some (decide (b.toInt ≤ a.toInt)) ∧
    condHolds q 5 = some (decide (a.toInt ≤ b.toInt)) ∧ condHolds q 6 = some (decide (b.toInt < a.toInt)) ∧
    condHolds q 7 = some (decide (a.toNat < b.toNat)) ∧ condHolds q 8 = some (decide (b.toNat ≤ a.toNat)) ∧
    condHolds q 9 = some (decide (a.toNat ≤ b.toNat)) ∧ condHolds q 10 = some (decide (b.toNat < a.toNat)) ∧
    condHolds q 11 = some ((a - b).getLsbD 31) ∧ condHolds q 12 = some (!(a - b).getLsbD 31) ∧
    condHolds q 13 = some (decide (a.toInt - b.toInt < -2 ^ 31 ∨ 2 ^ 31 ≤ a.toInt - b.toInt)) ∧
    condHolds q 14 = some (decide (-2 ^ 31 ≤ a.toInt - b.toInt ∧ a.toInt - b.toInt < 2 ^ 31))

/-! ### Dexiz: the device group, faults and the budget -/

/-- RWAIT of an event task starts the next pending event task, or the row task once none is left, with its
raise count in the first byte of the mailbox area; RWAIT of the row task leaves the core idle with its
outputs complete and DXC_USED at the cycles counted (R79, R80, R81, R103).
Where it goes beyond the rules it rests on log entry 8. -/
def Obligations.RwaitEndsTheTask : Prop :=
  ∀ (s : State) (c : Nat), DexReady s c 1 →
    let k := s.core c
    (k.run = .task 8 → ∃ t k', exec (.rwait c ⟨0, 0, 0, 0⟩) s = .next t ∧ t.core c = k' ∧
      k' = { k.passed 1 with run := .idle, todo := [], done := true } ∧
      (∀ d, d ≠ c → t.core d = s.core d) ∧ t = { s with cores := t.cores, regs := t.regs } ∧
      t.live Reg.DXC_USED_USED c = (k.used + 1) % 2 ^ 32 ∧
      LiveSameBut s t [Reg.DXC_USED_USED.key c 0]) ∧
    (∀ n, n < 8 → k.run = .task n → k.todo = [] → ∃ t, exec (.rwait c ⟨0, 0, 0, 0⟩) s = .next t ∧
      OnlyCore s t c { k.passed 1 with run := .task 8, pc := s.conf Reg.DXC_ENTRY_ENTRY c }) ∧
    (∀ n m cnt rest, n < 8 → m < 8 → k.run = .task n → k.todo = (m, cnt) :: rest →
      ∃ t k', exec (.rwait c ⟨0, 0, 0, 0⟩) s = .next t ∧ OnlyCore s t c k' ∧
        k' = { k.passed 1 with
          run := .task m, todo := rest, pc := s.conf Reg.DXC_ETASK_ENTRY c m, dmem := k'.dmem } ∧
        (let area := s.conf Reg.DXC_MBAREA_AREA c * 64
         (0x10000 ≤ area ∧ area < 0x40000 → (Tab.get 0 k'.dmem area).toNat = min 255 cnt) ∧
         ∀ a, a ≠ area → Tab.get 0 k'.dmem a = Tab.get 0 k.dmem a))

/-- Every node command is the NCMD of its code: an operand block in data memory that names a node of the
variant gives one output with the block's argument, any other block is refused. EVR posts a program event source
and refuses any other; EREQ posts target, endpoint and value of its block, and refuses an endpoint type above 4
or an index outside the variant (R121 to R125, R154).
Where it goes beyond the rules it rests on log entries 8 and 52. -/
def Obligations.NodeCommandsEventsAndEdgesPost : Prop :=
  ∀ (s : State) (c : Nat) (ra : BitVec 5) (imm : BitVec 7),
    let k := s.core c
    let f : DFmt := ⟨0, ra, 0, 0⟩
    let b := (k.s ra).toNat
    let ep := k.le (b + 8) 4
    let idx := ep % 2 ^ 28
    let typ := ep / 2 ^ 28
    let v := s.variant
    let inRange := (typ = 0 ∧ idx < v.channels) ∨ (typ = 1 ∧ idx < v.slices) ∨
      (typ = 2 ∧ idx < v.slices / 2) ∨ (typ = 3 ∧ idx < 1024) ∨ (typ = 4 ∧ idx < v.cores)
    (DexReady s c 4 → ∀ p ∈ [(Instr.frog c f, 1), (Instr.tink c f, 2), (Instr.setAngle c f, 3),
        (Instr.setBaseline c f, 4), (Instr.setHitch c f, 5), (Instr.extset c f, 6), (Instr.learnReset c f, 7),
        (Instr.fail c f, 8), (Instr.recover c f, 9), (Instr.remoteAck c f, (10 : BitVec 8))],
      (InDataMemory b 16 8 ∧ k.le b 4 < s.variant.nodes →
        Posts s p.1 c 4 (.ncmd p.2 (k.le b 4) ((List.range 8).map (fun i => Tab.get 0 k.dmem (b + 8 + i)))) 0) ∧
      (¬ (InDataMemory b 16 8 ∧ k.le b 4 < s.variant.nodes) → RefusesOperands s p.1 c 4)) ∧
    (DexReady s c 2 →
      (96 ≤ imm.toNat → Posts s (.evr c ⟨0, 0, 0, imm⟩) c 2 (.evr imm.toNat) 0) ∧
      (imm.toNat < 96 → RefusesOperands s (.evr c ⟨0, 0, 0, imm⟩) c 2)) ∧
    (DexReady s c 4 →
      (InDataMemory b 16 8 → inRange →
        Posts s (.ereq c ⟨0, ra, 0, 0⟩) c 4
          (.ereq (BitVec.ofNat 64 (k.le b 8)) (BitVec.ofNat 32 ep) (BitVec.ofNat 24 (k.le (b + 12) 3))) 0) ∧
      (¬ (InDataMemory b 16 8 ∧ inRange) → RefusesOperands s (.ereq c ⟨0, ra, 0, 0⟩) c 4))

/-- NQRY, FPRB, SEMT and SEMR post their request when their blocks and reply areas lie in data memory,
aligned, and their operands are in range, and refuse it otherwise; FPRB takes 8 bytes of payload for each
point (R121, R126, R127, R129).
Where it goes beyond the rules it rests on log entries 8 and 52. -/
def Obligations.QueriesProbesAndSemaphoresPost : Prop :=
  ∀ (s : State) (c : Nat) (rd ra : BitVec 5),
    let k := s.core c
    let b := (k.s ra).toNat
    let r := (k.s rd).toNat
    (DexReady s c 3 →
      let i : Instr := .nqry c ⟨0, ra, 0, 0⟩
      let q := InDataMemory b 8 8 ∧ k.le b 4 < s.variant.nodes ∧ InDataMemory (k.le (b + 4) 4) 72 8
      (q → Posts s i c 3 (.nqry (k.le b 4) (k.le (b + 4) 4)) 0) ∧ (¬ q → RefusesOperands s i c 3)) ∧
    (DexReady s c 6 →
      let i : Instr := .fprb c ⟨0, ra, 0, 0⟩
      let layer := k.le (b + 4) 1
      let n := k.le (b + 5) 1
      let q := InDataMemory b (8 + 8 * n) 8 ∧ 1 ≤ n ∧ n ≤ 32 ∧ (layer ≤ 3 ∨ 16 ≤ layer ∧ layer ≤ 23) ∧
        InDataMemory (k.le b 4) (8 + 4 * n) 8
      (q → Posts s i c 6 (.fprb layer (k.le b 4) ((List.range n).map (fun j =>
        (BitVec.ofNat 32 (k.le (b + 8 + 8 * j) 4), BitVec.ofNat 32 (k.le (b + 12 + 8 * j) 4))))) (8 * n)) ∧
      (¬ q → RefusesOperands s i c 6)) ∧
    (DexReady s c 2 →
      let take : Instr := .semt c ⟨rd, ra, 0, 0⟩
      let rel : Instr := .semr c ⟨0, ra, 0, 0⟩
      (b < 32 ∧ InDataMemory r 4 4 → Posts s take c 2 (.semt b r) 0) ∧
      (¬ (b < 32 ∧ InDataMemory r 4 4) → RefusesOperands s take c 2) ∧
      (b < 32 → Posts s rel c 2 (.semr b) 0) ∧ (¬ b < 32 → RefusesOperands s rel c 2))

/-- MSG posts its 64-byte body to another core of the variant, once a row to each core, with 64 bytes of payload, and
the core is noted as one that a message of the row went to; XFER takes its index and its entry whether R87 and R128
refuse it or not, and a seventeenth transfer, or a block outside data memory, is refused at execution (R87, R121,
R128, R130).
Where it goes beyond the rules it rests on log entries 8 and 52. -/
def Obligations.MessagesAndTransfersPost : Prop :=
  ∀ (s : State) (c : Nat) (ra rb : BitVec 5),
    let k := s.core c
    let a := (k.s ra).toNat
    let b := (k.s rb).toNat
    (DexReady s c 6 →
      let i : Instr := .msg c ⟨0, ra, rb, 0⟩
      let q := a ≠ c ∧ a < s.variant.cores ∧ a ∉ k.sentTo ∧ InDataMemory b 64 8
      (q → k.entries < 2048 → k.payload + 64 ≤ 8192 → ∃ t, exec i s = .next t ∧
        OnlyCore s t c { k.passed 6 with
          outs := k.outs ++ [.msg a ((List.range 64).map (fun j => Tab.get 0 k.dmem (b + j)))]
          sentTo := a :: k.sentTo, entries := k.entries + 1, payload := k.payload + 64 }) ∧
      (¬ q → RefusesOperands s i c 6)) ∧
    (DexReady s c 3 → ∀ out : Bool,
      let i : Instr := if out then .xferOutbound c ⟨0, ra, 0, 0⟩ else .xferInbound c ⟨0, ra, 0, 0⟩
      let off := k.le a 8
      let loc := k.le (a + 8) 4
      let len := k.le (a + 12) 2
      let good := off % 64 = 0 ∧ loc % 64 = 0 ∧ len % 64 = 0 ∧ 64 ≤ len ∧ len ≤ 4096 ∧
        off + len ≤ s.variant.dramBytes ∧ 0x10000 ≤ loc ∧ loc + len ≤ 0x40000 ∧
        (if out then k.xferOut else k.xferIn) + len ≤ 16384
      (¬ (InDataMemory a 16 8 ∧ k.xfers < 16) → RefusesOperands s i c 3) ∧
      (InDataMemory a 16 8 → k.xfers < 16 → k.entries < 2048 → k.payload < 8192 →
        ∃ t refused, (refused = false ↔ good) ∧ exec i s = .next t ∧
          OnlyCore s t c { k.passed 3 with
            outs := k.outs ++ [.xfer k.xfers refused out off loc len], entries := k.entries + 1
            xfers := k.xfers + 1
            xferOut := if refused = false ∧ out = true then k.xferOut + len else k.xferOut
            xferIn := if refused = false ∧ out = false then k.xferIn + len else k.xferIn }))

/-- SMPN counts the samples of an input of class 4, 5, 6, 8 or 0xA in the snapshot, and writes 0 where the
identifier is refused; SMP writes the 32-byte record of the chosen sample into data memory: source stamp,
row, identifier and data (R131, R132). -/
def Obligations.SnapshotSamplesAreCountedAndCopied : Prop :=
  ∀ (s : State) (c : Nat) (rd ra rb : BitVec 5),
    let k := s.core c
    let a := (k.s ra).toNat
    let d := (k.s rd).toNat
    let i := a % 2 ^ 16
    let listed := (a / 2 ^ 16 = 4 ∧ i < 24) ∨ (a / 2 ^ 16 = 5 ∧ i < 16) ∨ (a / 2 ^ 16 = 6 ∧ i = 0) ∨
      (a / 2 ^ 16 = 8 ∧ i < 48) ∨ (a / 2 ^ 16 = 10 ∧ i < 16)
    let xs := Tab.get [] (s.coreSnap c).samples a
    (DexReady s c 2 →
      (listed → WritesReg s (.smpn c ⟨rd, ra, 0, 0⟩) c 2 rd (BitVec.ofNat 32 xs.length) k.flags k.sticky) ∧
      (¬ listed → WritesReg s (.smpn c ⟨rd, ra, 0, 0⟩) c 2 rd 0 k.flags (k.sticky ||| 4))) ∧
    (DexReady s c 6 →
      let smp : Instr := .smp c ⟨rd, ra, rb, 0⟩
      (¬ (listed ∧ InDataMemory d 32 8 ∧ (k.s rb).toNat < xs.length) → RefusesOperands s smp c 6) ∧
      (∀ x, listed → InDataMemory d 32 8 → xs[(k.s rb).toNat]? = some x →
        ∃ t k', exec smp s = .next t ∧ OnlyCore s t c k' ∧ k' = { k.passed 6 with dmem := k'.dmem } ∧
          k'.le d 8 = x.src.toNat ∧ k'.le (d + 8) 4 = x.row.toNat ∧ k'.le (d + 12) 3 = x.id.toNat ∧
          k'.le (d + 15) 1 = 0 ∧
          (∀ j, j < 16 → Tab.get 0 k'.dmem (d + 16 + j) = (x.payload[j]?).getD 0) ∧
          ∀ y, (y < d ∨ d + 32 ≤ y) → Tab.get 0 k'.dmem y = Tab.get 0 k.dmem y))

/-- Outside bench mode, an instruction with a field it does not use set, a jump or a taken branch to a bad target and a
fetch past 0xFFFC are the faults 0x01, 0x02 and 0x03: no register, flag or sticky bit of the core changes but
DXC_STAT.FAULT, the row's outputs are discarded, the row ends, and the core-fault event carries the code and
the core (R83, R112, R133, R134).
Where it goes beyond the rules it rests on log entries 8 and 58. -/
def Obligations.FaultsEndTheRowWithoutEffect : Prop :=
  ∀ (s : State) (c : Nat) (rd ra rb : BitVec 5) (imm : BitVec 16) (off : BitVec 26) (l : BitVec 1),
    s.flag Reg.DXC_CTL_BENCH c = false →
    let k := s.core c
    let good := fun (x : Int) => 0 ≤ x ∧ x ≤ 0xFFFC ∧ x % 4 = 0
    let faults := fun (i : Instr) (code : Nat) => ∃ t, exec i s = .next t ∧
      t.core c = { k with
        run := .idle, todo := [], done := false, outs := [], sentTo := []
        entries := 0, payload := 0, xfers := 0, xferIn := 0, xferOut := 0 } ∧
      (∀ d, d ≠ c → t.core d = s.core d) ∧
      t = { s with cores := t.cores, regs := t.regs, boot := t.boot } ∧
      t.live Reg.DXC_STAT_FAULT c = code ∧ Raised s t 33 (code * 256 + c) (floorTo 64 s.now) ∧
      LiveSameBut s t
        (Reg.DXC_STAT_FAULT.key c 0 :: Reg.DXC_USED_USED.key c 0 :: eventKeys 33)
    (DexReady s c 0 →
      (rd ≠ 0 → faults (.nop c ⟨rd, 0, 0, 0⟩) 1 ∧ faults (.cmp c ⟨rd, ra, rb, 0⟩) 1 ∧
        faults (.semr c ⟨rd, ra, 0, 0⟩) 1 ∧ faults (.cmpi c ⟨rd, ra, imm⟩) 1) ∧
      (4 ≤ rb.toNat → faults (.aadd c ⟨0, 0, rb, 0, 0⟩) 1) ∧
      faults (.bc c ⟨15, l, 0, 0⟩) 1) ∧
    (DexReady s c 2 →
      let tgt := (k.pc : Int) + off.toInt * 4
      (¬ good tgt → faults (.j c ⟨off⟩) 2 ∧ faults (.jal c ⟨off⟩) 2) ∧
      (∀ cc, condHolds k cc = some true → ¬ good ((k.pc : Int) + imm.toInt * 4) → faults (.bc c ⟨cc, l, 0, imm⟩) 2) ∧
      (¬ good (k.s ra + imm.signExtend 32).toNat → faults (.jalr c ⟨rd, ra, imm⟩) 2)) ∧
    (DexReady (s.setCore c { k with pc := 0 }) c 0 → k.pc = 0x10000 →
      faults (.add c ⟨rd, ra, rb, 0⟩) 3)

/-- Once the entries or the payload bytes of a core's row are used up, a further output is discarded with every later
one of the row; the first of them sets DXC_STAT.OUTOVF and raises the output-overflow event, the later ones change
nothing else; earlier outputs are kept, shown on SEMR. An instruction that the budget does not hold is not executed:
the core stops before it with its row's outputs discarded, STICKY.LATE and DXC_STAT.LATE_SEEN set, DXC_LATECNT counted
up to its limit and the core-late event raised, and the admission record gets its LATE_CORE entry, with the boundary
stamp and the number of the row (R40, R82, R86, R105).
Where it goes beyond the rules it rests on log entries 8, 55 and 57. -/
def Obligations.FullBuffersAndSpentBudgetsDiscard : Prop :=
  (∀ (s : State) (c : Nat), DexReady s c 0 → s.flag Reg.DXC_CTL_BENCH c = false →
    let k := s.core c
    s.conf Reg.DXC_BUDGET_BUDGET c < k.used + wordCycles k.word →
    ∃ t, exec (.budgetOverrun c) s = .next t ∧
      t.core c = { k with
        sticky := k.sticky ||| 8, run := .idle, todo := [], done := false, outs := [], sentTo := []
        entries := 0, payload := 0, xfers := 0, xferIn := 0, xferOut := 0 } ∧
      (∀ d, d ≠ c → t.core d = s.core d) ∧
      t.live Reg.DXC_STAT_LATE_SEEN c = 1 ∧
      t.live Reg.DXC_LATECNT_CNT c = min 65535 (s.live Reg.DXC_LATECNT_CNT c + 1) ∧
      t.live Reg.DXC_USED_USED c = k.used % 2 ^ 32 ∧
      t = { s with cores := t.cores, regs := t.regs, boot := t.boot, fab := t.fab } ∧
      (s.rpl.on = false → s.conf Reg.DXC_RING_CFG_EN 0 = 1 →
        let a := s.conf Reg.DXC_RING_BASE_BASE 0 * 4096 + 16 * (s.live Reg.DXC_RING_WR_WR 0 % s.ringSize 0)
        let e := t.dramBytes a 16
        a + 16 ≤ s.variant.dramBytes → leAt e 0 8 = s.row.cur.toNat ∧ leAt e 8 4 = s.row.num.toNat ∧
          leAt e 12 3 = c ∧ leAt e 15 1 = 5) ∧
      (s.conf Reg.DXC_RING_CFG_EN 0 = 0 → t.fab = s.fab ∧ Raised s t 32 c (floorTo 64 s.now) ∧
        LiveSameBut s t (Reg.DXC_STAT_LATE_SEEN.key c 0 :: Reg.DXC_LATECNT_CNT.key c 0 ::
          Reg.DXC_USED_USED.key c 0 :: eventKeys 32))) ∧
  (∀ (s : State) (c : Nat) (ra : BitVec 5), DexReady s c 2 → ((s.core c).s ra).toNat < 32 →
    let k := s.core c
    (k.entries ≤ 2048 → (k.entries = 2048 ∨ 8192 ≤ k.payload) →
      ∃ t, exec (.semr c ⟨0, ra, 0, 0⟩) s = .next t ∧
        t.core c = { k.passed 2 with entries := 2049 } ∧
        (∀ d, d ≠ c → t.core d = s.core d) ∧
        t = { s with cores := t.cores, regs := t.regs, boot := t.boot } ∧
        t.live Reg.DXC_STAT_OUTOVF c = 1 ∧ Raised s t 23 c (floorTo 64 s.now) ∧
        LiveSameBut s t (Reg.DXC_STAT_OUTOVF.key c 0 :: eventKeys 23)) ∧
    (2048 < k.entries → ∃ t, exec (.semr c ⟨0, ra, 0, 0⟩) s = .next t ∧ OnlyCore s t c (k.passed 2)))

/-! ### Dexiz: encodings and the invariant of the cores -/

/-- The words of the example, and one word of each format, decode to their instructions (R110, R113). -/
def Obligations.ExampleWordsDecode : Prop :=
  dexDecode 3 0xFC41000A = some (.smpn 3 ⟨2, 1, 0, 0⟩) ∧ dexDecode 3 0x0462FFFF = some (.addi 3 ⟨3, 2, 0xFFFF⟩) ∧
  dexDecode 3 0xFC81180B = some (.smp 3 ⟨4, 1, 3, 0⟩) ∧ dexDecode 3 0x40C40010 = some (.lw 3 ⟨6, 4, 16⟩) ∧
  dexDecode 3 0x00E533D7 = some (.divq 3 ⟨7, 5, 6, 15⟩) ∧ dexDecode 3 0x60E80000 = some (.sw 3 ⟨7, 8, 0⟩) ∧
  dexDecode 3 0x00000000 = some (.nop 3 ⟨0, 0, 0, 0⟩) ∧ dexDecode 3 0x1C000000 = none

/-- Every Dexiz instruction whose word names it alone reads back from its word with every field, and no two
words spell one instruction: decoding and encoding are inverse to each other (R110 to R116, R118, R119,
R122). -/
def Obligations.DexizWordsDecodeAndEncodeAgree : Prop :=
  (∀ (i : Instr) (w : W32) (c : Nat), dexEncode i = some w → dexCore i = some c → dexDecode c w = some i) ∧
  (∀ (i : Instr) (w : W32) (c : Nat), dexDecode c w = some i → dexEncode i = some w ∧ dexCore i = some c)

/-- No Dexiz command, taken from the queue in any state whose cores are in order, takes one out of order: PC
stays aligned inside instruction memory or at its end, no key stands for s0, and the register, accumulator
and data-memory tables stay canonical and inside their ranges (R76, R77, R102, R133). -/
def Obligations.DexizCommandsKeepCoresInOrder : Prop :=
  ∀ (s s' : State) (i : Instr) (q : List Instr), CoresInOrder s → dexizCommand i = true →
    step { s with pending := i :: q } = .next s' → CoresInOrder s'

/-- The cores are in order after reset.
Where it goes beyond the rules it rests on log entries 11, 12 and 13. -/
def Obligations.CoresInOrderAtReset : Prop := CoresInOrder State.reset

/-! ### Host ports -/

/-- Framing of the six port commands: none is served while the bus is down; a command that does not arrive as it is
listed (in 8D-8D-8D with its inverse byte) is ignored and sets BADCMD; a misaligned address is ignored and sets ALIGN;
RDSR and RDID answer HP_STAT and SYS_ID; ENTER_8D and EXIT_8D change the mode (R392, R393).
Where it goes beyond the rules it rests on log entries 40 and 41. -/
def Obligations.PortCommandsFrameAndAnswer : Prop :=
  ∀ (s : State) (p : Port) (pairOk : Bool) (a : HostAddr) (n : Nat) (ws : List W32) (part : Bool),
    let i := p.idx
    (s.busUp = false → ∀ c ∈ [Instr.read p pairOk a n, .write p pairOk a ws part, .rdsr p pairOk, .rdid p pairOk,
      .enter8d ⟨p, pairOk⟩, .exit8d p pairOk], exec c s = .next s) ∧
    (s.busUp = true →
      (pairOk = false →
        ∀ c ∈ [Instr.read p pairOk a n, .write p pairOk a ws part, .rdsr p pairOk, .rdid p pairOk,
          .enter8d ⟨p, pairOk⟩, .exit8d p pairOk], SetsLive c s s [(Reg.HP_STAT_BADCMD, i, 0, 1)]) ∧
      (pairOk = true →
        SetsLive (.enter8d ⟨p, pairOk⟩) s s [(Reg.HP_CFG_OCT, i, 0, 1)] ∧
        (addrAligned a = false → ∀ c ∈ [Instr.read p pairOk a n, .write p pairOk a ws part],
          SetsLive c s s [(Reg.HP_STAT_ALIGN, i, 0, 1)]) ∧
        SetsLive (.exit8d p pairOk) s s [(Reg.HP_CFG_OCT, i, 0, 0)] ∧
        (∃ t, exec (.rdsr p pairOk) s = .next t ∧ t = { s with hostData := t.hostData } ∧
          Tab.get [] t.hostData i = [BitVec.ofNat 32 (s.live Reg.HP_STAT_BADCMD i +
            2 * s.live Reg.HP_STAT_ALIGN i + 4 * s.live Reg.HP_STAT_PARTIAL i +
            8 * s.live Reg.HP_STAT_SLOWRD i)]) ∧
        (∃ t w, exec (.rdid p pairOk) s = .next t ∧ t = { s with hostData := t.hostData } ∧
          Tab.get [] t.hostData i = [w] ∧ w.toNat % 256 = s.variant.stepping.toNat ∧
          w.toNat / 2 ^ 16 = 0x0D86)))

/-- READ and WRITE of DRAM: in 8D-8D-8D a READ outside installed tiles, the grid buffer under write and the skein
slots returns the bytes as little-endian words; in 1S-1S-1S it returns zeros and sets SLOWRD; a WRITE stores its
complete words and leaves every other byte of DRAM alone, and an incomplete last word sets PARTIAL (R393, R394);
outside the skein slots it leaves the skeins alone. Of a byte that lands in an installed tile or a directory while
rows run nothing is said: its value is undefined (R234).
Where it goes beyond the rules it rests on log entries 42, 43 and 44. -/
def Obligations.DramIsReadAndWrittenThroughThePorts : Prop :=
  ∀ (s : State) (p : Port) (off n : Nat) (ws : List W32) (part : Bool), s.busUp = true → off % 4 = 0 →
    (s.live Reg.HP_CFG_OCT p.idx ≠ 0 →
      (∀ j, j < n → s.shielded (off + 4 * j) = false ∧ s.underWrite (off + 4 * j) = false ∧
        s.inSlots (off + 4 * j) = false) →
      ∃ t, exec (.read p true (.dram off) n) s = .next t ∧ t = { s with hostData := t.hostData } ∧
        Tab.get [] t.hostData p.idx = (List.range n).map (fun j => BitVec.ofNat 32
          ((s.dramByte (off + 4 * j)).toNat + 256 * ((s.dramByte (off + 4 * j + 1)).toNat +
            256 * ((s.dramByte (off + 4 * j + 2)).toNat + 256 * (s.dramByte (off + 4 * j + 3)).toNat))))) ∧
    (s.live Reg.HP_CFG_OCT p.idx = 0 → 0 < n →
      ∃ t, exec (.read p true (.dram off) n) s = .next t ∧
        t = { s with hostData := t.hostData, regs := t.regs } ∧
        Tab.get [] t.hostData p.idx = List.replicate n 0 ∧ t.live Reg.HP_STAT_SLOWRD p.idx = 1 ∧
        LiveSameBut s t [Reg.HP_STAT_SLOWRD.key p.idx 0]) ∧
    ∃ t, exec (.write p true (.dram off) ws part) s = .next t ∧
      t = { s with
        fab := { s.fab with dram := t.fab.dram }, regs := t.regs, draws := t.draws
        skn := { s.skn with act := t.skn.act, prv := t.skn.prv, stg := t.skn.stg } } ∧
      DramSameBut s t off (4 * ws.length) ∧
      ((∀ k, k < 4 * ws.length → s.inSlots (off + k) = false) → t.skn = s.skn ∧
        ((∀ k, k < 4 * ws.length → s.shielded (off + k) = false) → t.draws = s.draws)) ∧
      (∀ j w, ws[j]? = some w → ∀ b, b < 4 → off + 4 * j + b < s.variant.dramBytes →
        s.shielded (off + 4 * j + b) = false →
        (t.dramByte (off + 4 * j + b)).toNat = w.toNat / 256 ^ b % 256) ∧
      LiveSameBut s t [Reg.HP_STAT_PARTIAL.key p.idx 0] ∧
      t.live Reg.HP_STAT_PARTIAL p.idx = if part then 1 else s.live Reg.HP_STAT_PARTIAL p.idx

/-- REGISTER_WRITE by access code, shown on SKN_ROW (L-RW), PLE_QEVT.LATE (L-W1C), SYS_ID (L-RO) and SYS_MODE
(S-RW): the live value taken, the bit cleared, nothing written, and the STAGING slot written while it is ready
or WREJ set while it is not (R11, R401). -/
def Obligations.RegisterWriteFollowsTheAccessCode : Prop :=
  ∀ (s : State) (p : Port) (v : W32), s.power.phase = .rows → s.rpl.on = false →
    SetsLive (.registerWrite p 0x10004 v) s (logged s p 0x10004 v.toNat) [(Reg.SKN_ROW_ROW, 0, 0, v.toNat)] ∧
    (v = 4 → s.live Reg.PLE_QEVT_LATE ≤ 1 →
      SetsLive (.registerWrite p 0x02000388 v) s (logged s p 0x02000388 v.toNat) [(Reg.PLE_QEVT_LATE, 0, 0, 0)]) ∧
    exec (.registerWrite p 0 v) s = .next (logged s p 0 v.toNat) ∧
    (s.live Reg.SKN_STAT_STG_READY = 0 →
      SetsLive (.registerWrite p 0x10 v) s s [(Reg.SKN_STAT_WREJ, 0, 0, 1)]) ∧
    (s.live Reg.SKN_STAT_STG_READY ≠ 0 → ∃ t, exec (.registerWrite p 0x10 v) s = .next t ∧
      t = { s with skn := { s.skn with stg := { s.skn.stg with flds := t.skn.stg.flds } } } ∧
      t.skn.stg.fld Reg.SYS_MODE_WORK = v.toNat % 16 ∧
      t.skn.stg.fld Reg.SYS_MODE_RESUME = v.toNat / 16 % 16 ∧
      t.skn.stg.fld Reg.SYS_MODE_ROW_K = v.toNat / 256 % 128 ∧
      t.skn.stg.fld Reg.SYS_MODE_LINGER = v.toNat / 2 ^ 15 % 256)

/-- A host's write to a live register leaves a LIVE_WRITE entry with the landing stamp and the port and a
LIVE_DATA entry with address and value in the admission record, two blocks on, and no other byte of DRAM
changes; in a replay, or with the ring not in use, nothing is written (R40, R96).
Where it goes beyond the rules it rests on log entries 46 and 80. -/
def Obligations.LiveWritesAreLogged : Prop :=
  ∀ (s : State) (p : Port) (a v : Nat),
    let l := logged s p a v
    (s.rpl.on = true ∨ s.conf Reg.DXC_RING_CFG_EN 0 ≠ 1 → l = s) ∧
    (s.rpl.on = false → s.conf Reg.DXC_RING_CFG_EN 0 = 1 → 12 ≤ s.conf Reg.DXC_RING_CFG_LOG2N 0 →
      let n := 2 ^ s.conf Reg.DXC_RING_CFG_LOG2N 0
      let wr := s.live Reg.DXC_RING_WR_WR 0
      let at_ := fun (b : Nat) => s.conf Reg.DXC_RING_BASE_BASE 0 * 4096 + 16 * ((wr + b) % n)
      s.conf Reg.DXC_RING_BASE_BASE 0 * 4096 + 16 * n ≤ s.variant.dramBytes →
      s.conf Reg.DXC_RING_CFG_LOG2N 0 ≤ 26 →
      l.live Reg.DXC_RING_WR_WR 0 = (wr + 2) % n ∧
      leNat (l.dramBytes (at_ 0) 8) = (floorTo 64 s.now).toNat ∧
      leNat (l.dramBytes (at_ 0 + 8) 4) = s.row.num.toNat ∧
      leNat (l.dramBytes (at_ 0 + 12) 3) = p.idx ∧ leNat (l.dramBytes (at_ 0 + 15) 1) = 8 ∧
      leNat (l.dramBytes (at_ 1) 4) = a % 2 ^ 32 ∧ leNat (l.dramBytes (at_ 1 + 4) 4) = v % 2 ^ 32 ∧
      leNat (l.dramBytes (at_ 1 + 12) 3) = 0 ∧ leNat (l.dramBytes (at_ 1 + 15) 1) = 9 ∧
      ∀ k, (k < at_ 0 ∨ at_ 0 + 16 ≤ k) → (k < at_ 1 ∨ at_ 1 + 16 ≤ k) → l.dramByte k = s.dramByte k)

/-! ### Skeins, guarded actions, mailboxes and bench mode -/

/-- A COMMIT or ROLLBACK that lands while rows run is refused with the first code of the request procedure that
applies, and then changes SKN_CHK.CODE alone; otherwise it is pending with its named row: PENDING set, STG_READY
clear, CODE 0xFF, and an open grant taken (R403, R404, R406, R411).
Where it goes beyond the rules it rests on log entry 70. -/
def Obligations.CommitAndRollbackRequestsLand : Prop :=
  ∀ (s : State) (p : Port) (roll : Bool), ServesHost s 0x10000 → s.power.phase = .rows → 0 < s.row.k →
    let c : Instr := if roll then .rollback p else .commit p
    let l := logged s p 0x10000 (if roll then 2 else 1)
    let ahead := (s.live Reg.SKN_ROW_ROW + 2 ^ 32 - s.row.num.toNat) % 2 ^ 32
    let tchk := match s.variant.scale with | .s5 => 4000 | .s2 => 2000 | .s1 => 1000
    let lead := 1 + (tchk + s.row.k * 250 - 1) / (s.row.k * 250)
    let code : Nat :=
      if s.live Reg.SKN_STAT_PENDING ≠ 0 then 0x09
      else if s.power.bind ≠ .none then 0x0D
      else if s.live Reg.SEM_CTL_OWNER 0 ≠ p.idx + 1 then 0x01
      else if ahead < lead ∨ 65535 < ahead then 0x03
      else if roll = false ∧ s.live Reg.SKN_STAT_STG_READY = 0 then 0x0A
      else if roll = true ∧ s.live Reg.SKN_STAT_PRV_VALID = 0 then 0x0B
      else 0
    (code ≠ 0 → SetsLive c s l [(Reg.SKN_CHK_CODE, 0, 0, code)]) ∧
    (code = 0 → ∃ t, exec c s = .next t ∧ t = { l with skn := t.skn, regs := t.regs } ∧
      (∃ q, t.skn = { l.skn with req := some q } ∧ q.rollback = roll ∧
        q.named.toNat = s.live Reg.SKN_ROW_ROW % 2 ^ 32 ∧ q.lead = lead ∧ q.outcome = none ∧
        (s.skn.req = none → (q.took = true ↔ s.live Reg.SYS_AON_PRES_STATE = 3))) ∧
      t.live Reg.SKN_STAT_PENDING = 1 ∧ t.live Reg.SKN_STAT_STG_READY = 0 ∧ t.live Reg.SKN_CHK_CODE = 0xFF ∧
      LiveSameBut l t [Reg.SKN_STAT_PENDING.key 0 0, Reg.SKN_STAT_STG_READY.key 0 0,
        Reg.SKN_CHK_CODE.key 0 0])

/-- CHECKER_END fixes the outcome of the pending request: CODE shows it, a refusal shows the first offending field in
SKN_CHKADDR, both by the first of the checks, in the order of their codes, that finds an offending field, at its
lowest address; a version of a commit that is not above VMAX is 0x02, and a changed guarded field without a taken
grant 0x08; and a taken grant is consumed exactly by an accepted candidate that changes a guarded field; STAGING,
ACTIVE and PREVIOUS stay as they are, and a request that has its outcome keeps it (R404, R411).
Where it goes beyond the rules it rests on log entry 70. -/
def Obligations.CheckerEndSettlesTheRequest : Prop :=
  ∀ (s : State) (q : Request), s.skn.req = some q →
    (q.outcome ≠ none → exec .checkerEnd s = .next s) ∧
    (q.outcome = none →
      let m := if q.rollback then s.skn.prv else s.skn.stg
      let r := s.checkSkein m (!q.rollback) q.took
      let consumes := r.1 = 0 ∧ q.took = true ∧ guardedDiff m s.skn.act ≠ [] ∧
        s.live Reg.SYS_AON_PRES_STATE = 3
      let old := q.rollback = false ∧ m.fld Reg.SKN_VER_VER ≤ s.live Reg.SKN_VMAX_VER
      let guarded := (∃ f ∈ regFields, f.g1 = true ∧ ∃ i j, i < f.n1 ∧ j < f.n2 ∧
          f.get m.flds i j ≠ f.get s.skn.act.flds i j) ∨ ∃ n, m.failByte n ≠ s.skn.act.failByte n
      let checks : List (Nat × List Nat) := [(0x02, if old then [0x00010014] else []), (0x04, checkFields s m),
        (0x05, checkVariant s m), (0x06, checkBindings s m), (0x07, checkCapacity s m), (0x0C, checkLive m),
        (0x08, if q.took then [] else guardedDiff m s.skn.act)]
      ∃ t, exec .checkerEnd s = .next t ∧
        (∀ (i c : Nat) (l : List Nat), checks[i]? = some (c, l) → l ≠ [] → (∀ (j d : Nat) (k : List Nat), j < i → checks[j]? = some (d, k) → k = []) →
          t.live Reg.SKN_CHK_CODE = c ∧
          ∃ a ∈ l, t.live Reg.SKN_CHKADDR_ADDR = a % 2 ^ 32 ∧ ∀ b ∈ l, a ≤ b) ∧
        ((∀ x ∈ checks, x.2 = []) → t.live Reg.SKN_CHK_CODE = 0) ∧ (guardedDiff m s.skn.act ≠ [] ↔ guarded) ∧ t = { s with skn := t.skn, regs := t.regs } ∧
        t.skn = { s.skn with req := some { q with outcome := some (BitVec.ofNat 8 r.1) } } ∧
        t.live Reg.SKN_CHK_CODE = r.1 % 256 ∧
        t.live Reg.SKN_CHKADDR_ADDR = (if r.1 = 0 then s.live Reg.SKN_CHKADDR_ADDR else r.2 % 2 ^ 32) ∧
        (consumes → t.live Reg.SYS_AON_PRES_STATE = 0 ∧ t.live Reg.SYS_AON_PRES_REMAIN = 0) ∧
        (¬ consumes → t.live Reg.SYS_AON_PRES_STATE = s.live Reg.SYS_AON_PRES_STATE) ∧
        LiveSameBut s t [Reg.SKN_CHK_CODE.key 0 0, Reg.SKN_CHKADDR_ADDR.key 0 0,
          Reg.SYS_AON_PRES_STATE.key 0 0, Reg.SYS_AON_PRES_REMAIN.key 0 0])

/-- The guarded writes of hosts: GSB_CTL.PROG runs its five checks in order and gives the first failed one's
RESULT, consuming nothing, or consumes the grant and starts programming; at its end the store holds the image
with ORIGIN 2 and the count of writes, BUSY clears and RESULT says so; SYS_AON_SEAL.CLR clears SEAL_BROKEN with
a grant and the loop closed, and sets CLR_REJ otherwise (R411, R412, R415).
Where it goes beyond the rules it rests on log entries 21 and 71. -/
def Obligations.GaugeStoreAndSealAreGuarded : Prop :=
  ∀ (s : State) (p : Port), ServesHost s 0x08000000 → ServesHost s 0x118 → s.skn.req = none →
    let grant := s.live Reg.SYS_AON_PRES_STATE = 3
    let spent := [(Reg.SYS_AON_PRES_STATE, 0, 0, 0), (Reg.SYS_AON_PRES_REMAIN, 0, 0, 0)]
    let fails : Nat :=
      if s.live Reg.SEM_CTL_OWNER 1 ≠ p.idx + 1 then 2
      else if ¬ grant then 3
      else if s.live Reg.SYS_AON_SEAL_SEAL_BROKEN = 0 then 4
      else if 1000 ≤ s.live Reg.GSB_WCNT_N then 5
      else if leNat (s.winBytes 0x08004000 4) ≠ 0x53475654 ∨ leNat (s.winBytes 0x08004004 4) % 2 ^ 16 ≠ 1 then 6
      else 0
    let l := logged s p 0x08000000 1
    let e := logged s p 0x118 (2 ^ 31)
    (s.live Reg.GSB_STAT_BUSY ≠ 0 → exec (.gaugeProgram p) s = .next l) ∧
    (s.live Reg.GSB_STAT_BUSY = 0 → fails ≠ 0 →
      SetsLive (.gaugeProgram p) s l [(Reg.GSB_STAT_RESULT, 0, 0, fails)]) ∧
    (s.live Reg.GSB_STAT_BUSY = 0 → fails = 0 →
      SetsLive (.gaugeProgram p) s { l with boot := { l.boot with prog := some s.gaugeImage } }
        ((Reg.GSB_STAT_BUSY, 0, 0, 1) :: spent)) ∧
    (∀ g, s.boot.prog = some g → s.live Reg.GSB_WCNT_N < 65535 → ∃ d,
      SetsLive (.gaugeProgramDone true) s
        { s with draws := d, boot := { s.boot with gauge := g, prog := none } }
        [(Reg.GSB_WCNT_N, 0, 0, s.live Reg.GSB_WCNT_N + 1), (Reg.GSB_STAT_BUSY, 0, 0, 0),
          (Reg.GSB_STAT_RESULT, 0, 0, 1)]) ∧
    (Tab.get 0 s.gaugeImage 6 = 2 ∧
      leNat ((List.range 4).map (fun i => Tab.get 0 s.gaugeImage (8 + i))) = (s.live Reg.GSB_WCNT_N + 1) % 2 ^ 32 ∧
      ∀ k, (12 ≤ k ∧ k < 8188) ∨ k < 6 ∨ k = 7 → Tab.get 0 s.gaugeImage k = s.winByte (0x08004000 + k)) ∧
    (grant → s.live Reg.SYS_AON_SEAL_SEAL_BROKEN ≠ 0 → s.live Reg.SYS_AON_SEAL_OPEN = 0 →
      SetsLive (.sealClear p) s e ((Reg.SYS_AON_SEAL_SEAL_BROKEN, 0, 0, 0) :: spent)) ∧
    (¬ (grant ∧ s.live Reg.SYS_AON_SEAL_SEAL_BROKEN ≠ 0 ∧ s.live Reg.SYS_AON_SEAL_OPEN = 0) →
      SetsLive (.sealClear p) s e [(Reg.SYS_AON_SEAL_CLR_REJ, 0, 0, 1)])

/-- Boot write sessions and pass-through: SESS_OPEN needs WT, then a grant, which it consumes; SESS_CLOSE and the
timeout close; GO without WT or a session sets REJ, with both it sets BUSY, and at the end of a read BUSY clears
and the bytes stand in GSB_BDATA (R412, R420).
Where it goes beyond the rules it rests on log entry 71. -/
def Obligations.BootSessionsGuardTheFlash : Prop :=
  ∀ (s : State) (p : Port) (data : List Byte), ServesHost s 0x08000000 → ServesHost s 0x08000020 →
    s.live Reg.SYS_PWRSTAT_CAST_DONE ≠ 0 → s.skn.req = none →
    let lo := logged s p 0x08000000 0x100
    let lg := logged s p 0x08000020 s.bootWord
    let wt := s.conf Reg.GSB_BOOTCFG_WT
    (wt = 0 → SetsLive (.sessionOpen p) s lo [(Reg.GSB_STAT_RESULT, 0, 0, 8)]) ∧
    (wt ≠ 0 → s.live Reg.SYS_AON_PRES_STATE ≠ 3 →
      SetsLive (.sessionOpen p) s lo [(Reg.GSB_STAT_RESULT, 0, 0, 3)]) ∧
    (wt ≠ 0 → s.live Reg.SYS_AON_PRES_STATE = 3 →
      SetsLive (.sessionOpen p) s lo [(Reg.GSB_STAT_SESS, 0, 0, 1), (Reg.SYS_AON_PRES_STATE, 0, 0, 0),
        (Reg.SYS_AON_PRES_REMAIN, 0, 0, 0)]) ∧
    SetsLive (.sessionClose p) s (logged s p 0x08000000 0x200) [(Reg.GSB_STAT_SESS, 0, 0, 0)] ∧
    SetsLive .sessionTimeout s s [(Reg.GSB_STAT_SESS, 0, 0, 0)] ∧
    (s.live Reg.GSB_BSTAT_BUSY = 0 → (wt = 0 ∨ s.live Reg.GSB_STAT_SESS = 0) →
      SetsLive (.bootCommand p) s lg [(Reg.GSB_BSTAT_REJ, 0, 0, 1)]) ∧
    (s.live Reg.GSB_BSTAT_BUSY = 0 → wt ≠ 0 → s.live Reg.GSB_STAT_SESS ≠ 0 →
      SetsLive (.bootCommand p) s lg [(Reg.GSB_BSTAT_BUSY, 0, 0, 1)]) ∧
    (s.live Reg.GSB_BSTAT_BUSY ≠ 0 → ∃ t, exec (.bootCommandDone data) s = .next t ∧
      t = { s with regs := t.regs, win := t.win } ∧ t.live Reg.GSB_BSTAT_BUSY = 0 ∧
      LiveSameBut s t [Reg.GSB_BSTAT_BUSY.key 0 0] ∧
      ∀ k, t.winByte k =
        if s.live Reg.GSB_BCMD_DIR = 0 ∧ 0x08000100 ≤ k ∧ k < 0x08000100 + min 256 (s.live Reg.GSB_BCMD_NDATA)
        then (data[k - 0x08000100]?).getD 0 else s.winByte k)

/-- TAKE gives a free semaphore to the writing port and leaves a held one; REL frees it for its owner alone;
FORCE frees it whatever its owner; nothing else changes but the log. A mailbox POST queues the port's 64 bytes for
the core and counts them, or sets REJ where four wait; a host's release clears VALID (R89, R90, R399).
Where it goes beyond the rules it rests on log entry 37. -/
def Obligations.SemaphoresAndMailboxes : Prop :=
  (∀ (s : State) (p : Port) (n : Nat), n < 32 → ServesHost s (0x8000 + 4 * n) →
    let own := s.live Reg.SEM_CTL_OWNER n
    let ends := fun (c : Instr) (v o : Nat) =>
      SetsLive c s (logged s p (0x8000 + 4 * n) v) [(Reg.SEM_CTL_OWNER, n, 0, o)]
    ends (.semTake p n) (2 ^ 29) (if own = 0 then p.idx + 1 else own) ∧
    ends (.semRel p n) (2 ^ 30) (if own = p.idx + 1 then 0 else own) ∧
    ends (.semForce p n) (2 ^ 31) 0) ∧
  ∀ (s : State) (p : Port) (c : Nat), c < s.variant.cores →
    ServesHost s (0x001000C0 + 0x10000 * c) → ServesHost s (0x00100140 + 0x10000 * c) →
    s.conf Reg.DXC_RING_CFG_EN 0 = 0 → s.conf Reg.DXC_RING_CFG_EN 1 = 0 →
    let k := s.core c
    SetsLive (.mboRelease p c) s s [(Reg.DXC_MBO_CTL_VALID, c, 0, 0)] ∧
    (4 ≤ s.live Reg.DXC_MBI_CTL_QUEUED c → SetsLive (.mbiPost p c) s s [(Reg.DXC_MBI_CTL_REJ, c, 0, 1)]) ∧
    (s.live Reg.DXC_MBI_CTL_QUEUED c < 4 → ∃ t body, exec (.mbiPost p c) s = .next t ∧
      t = { s with regs := t.regs, cores := t.cores, inp := t.inp } ∧ body.length = 64 ∧
      (∀ i, i < 16 → leAt body (4 * i) 4 = s.staged (.host p) Reg.DXC_MBI_WORD c i) ∧
      t.core c = { k with hostMsgs := k.hostMsgs ++ [(floorTo 64 s.now, p.idx, body)] } ∧
      (∀ d, d ≠ c → t.core d = s.core d) ∧
      t.live Reg.DXC_MBI_CTL_QUEUED c = s.live Reg.DXC_MBI_CTL_QUEUED c + 1 ∧
      LiveSameBut s t [Reg.DXC_MBI_CTL_QUEUED.key c 0])

/-- Bench mode: BENCH is set in TRANSIT or in a running replay and ignored otherwise; HALT takes effect in bench
mode and its clearing resumes; STEP of a halted core is one run of its word, and of any other core nothing; a
debug write sets the selected register of a halted core and is ignored otherwise (R93 to R95).
Where it goes beyond the rules it rests on log entries 8, 59 and 60. -/
def Obligations.BenchModeHaltStepAndDebug : Prop :=
  ∀ (s : State) (p : Port) (c : Nat) (v : W32), c < s.variant.cores →
    ServesHost s (0x00100000 + 0x10000 * c) → ServesHost s (0x001001C4 + 0x10000 * c) →
    s.conf Reg.DXC_RING_CFG_EN 0 = 0 →
    let k := s.core c
    let halted := s.live Reg.DXC_STAT_HALTED c ≠ 0
    let bench := s.live Reg.DXC_CTL_BENCH c ≠ 0
    let sel := s.live Reg.DXC_DBG_SEL_SEL c
    let allowed := s.live Reg.SYS_PWRSTAT_CUR = 4 ∨ s.live Reg.DXC_RPL_STAT_STATE = 2
    let resumed := fun (i : Instr) (fs : List (Fld × Nat × Nat × Nat)) =>
      (¬ halted → SetsLive i s s fs) ∧
      (halted → SetsLive i s (s.setCore c { k with stepping := true }) ((Reg.DXC_STAT_HALTED, c, 0, 0) :: fs))
    (allowed → SetsLive (.benchSet p c true) s s [(Reg.DXC_CTL_BENCH, c, 0, 1)]) ∧
    (¬ allowed → exec (.benchSet p c true) s = .next s) ∧
    resumed (.benchSet p c false) [(Reg.DXC_CTL_BENCH, c, 0, 0), (Reg.DXC_CTL_HALT, c, 0, 0)] ∧
    (bench → SetsLive (.halt p c true) s s [(Reg.DXC_CTL_HALT, c, 0, 1)]) ∧
    (¬ bench → exec (.halt p c true) s = .next s) ∧
    resumed (.halt p c false) [(Reg.DXC_CTL_HALT, c, 0, 0)] ∧
    (¬ (bench ∧ halted) → exec (.step p c) s = .next s) ∧
    (∀ (rd ra rb : BitVec 5) (sum : Core), bench → halted → dexDecode c k.word = some (.add c ⟨rd, ra, rb, 0⟩) →
      c < s.variant.cores → s.power.phase = .rows → k.run ≠ .idle → k.pc < 0x10000 →
      sum = { ((k.flagsAdd (k.s ra) (k.s rb)).put rd (k.s ra + k.s rb)) with
        pc := k.pc + 4, used := k.used + 1, stepping := false } →
      ∃ t, exec (.step p c) s = .next t ∧ OnlyCore s t c sum) ∧
    (¬ halted → exec (.dbgDataWrite p c v) s = .next s) ∧
    (halted → ∃ t k', exec (.dbgDataWrite p c v) s = .next t ∧ OnlyCore s t c k' ∧
      (∀ r : BitVec 5, k'.s r = if sel = r.toNat ∧ r ≠ 0 then v else k.s r) ∧
      k'.flags.toNat = (if sel = 40 then v.toNat % 16 else k.flags.toNat) ∧
      k'.sticky.toNat = (if sel = 41 then v.toNat % 16 else k.sticky.toNat) ∧
      k'.pc = (if sel = 42 then v.toNat % 2 ^ 16 / 4 * 4 else k.pc) ∧
      (∀ a, a < 4 → (Tab.get 0 k'.acc a).toNat =
        let x := (Tab.get 0 k.acc a).toNat
        if sel = 32 + 2 * a then x / 2 ^ 32 * 2 ^ 32 + v.toNat
        else if sel = 33 + 2 * a then x % 2 ^ 32 + v.toNat * 2 ^ 32 else x) ∧
      k' = { k with gpr := k'.gpr, acc := k'.acc, flags := k'.flags, sticky := k'.sticky, pc := k'.pc })

/-- A write of HP_HB records its landing stamp; HP_SAFE.CLR asks for the end of SAFE if the port's own heartbeat
lies within TIMEOUT, and sets CLR_REJ otherwise; EVT_RAISE waits for step 3 with its port and bits; a write of 1
to a pending bit clears it unless the source was raised in the same cycle (R421, R423, R426, R427).
Where it goes beyond the rules it rests on log entries 53 and 68. -/
def Obligations.HeartbeatSafeAndEventWrites : Prop :=
  ∀ (s : State) (p q : Port) (v : W32) (w : Nat), s.power.phase = .rows → s.rpl.on = false →
    let now := floorTo 64 s.now
    let hb := logged s p (0x20008 + 0x100 * p.idx) v.toNat
    let ls := logged s p 0x20804 (2 ^ 31)
    let le := logged s p 0x40C00 v.toNat
    let lc := logged s p (0x40200 + 0x10 * q.idx + 4 * w) v.toNat
    let last := s.live64 Reg.HP_HBLAST_LO_STAMP Reg.HP_HBLAST_HI_STAMP p.idx
    let age := sdiff (BitVec.ofNat 64 last) now
    SetsLive (.heartbeat p v) s hb [(Reg.HP_HBLAST_LO_STAMP, p.idx, 0, now.toNat % 2 ^ 32),
      (Reg.HP_HBLAST_HI_STAMP, p.idx, 0, now.toNat / 2 ^ 32)] ∧
    (age ≤ s.conf Reg.HP_HBCFG_TIMEOUT * (25600000 : Int) →
      exec (.safeClear p) s = .next { ls with boot := { ls.boot with safeClr := true } }) ∧
    (s.conf Reg.HP_HBCFG_TIMEOUT * (25600000 : Int) < age →
      SetsLive (.safeClear p) s ls [(Reg.HP_SAFE_CLR_REJ, 0, 0, 1)]) ∧
    exec (.eventRaiseHost p v) s = .next { le with boot := { le.boot with raises := le.boot.raises ++ [(p, v)] } } ∧
    (w < 4 → ∃ t, exec (.eventPendClear p q w v) s = .next t ∧
      OnlyLive lc t [Reg.EVT_PEND_PEND.key q.idx w] ∧
      ∀ b, b < 32 → bitOf (t.live Reg.EVT_PEND_PEND q.idx w) b =
        (bitOf (lc.live Reg.EVT_PEND_PEND q.idx w) b &&
          (!bitOf v.toNat b || lc.boot.raised.contains (32 * w + b, now))))

/-! ### Presence, waking, power and cast-on -/

/-- PRESENCE: a debounced assertion starts a hold, from a closed state or an open grant; a release after 65,536
to 327,680 cycles opens a grant of 60 s, an earlier one and a release from STUCK close; a hold still asserted at
its limit is STUCK; expiry closes the grant; any other state of the machine is left as it is. Each check of the
seal loop: two failures in a row set OPEN and latch SEAL_BROKEN, two passes in a row clear OPEN and leave
SEAL_BROKEN (R409, R410). The counts of checks are the model's fields.
Where it goes beyond the rules it rests on log entry 28. -/
def Obligations.PresenceAndSealMachines : Prop :=
  ∀ (s : State) (hold : Nat), s.aon.xtal = true →
    let unwatched := s.live Reg.SYS_AON_WAKEEN_PRESENCE = 0 ∨ (s.power.phase = .rows ∧ s.power.bind = .none)
    let st := s.live Reg.SYS_AON_PRES_STATE
    let sets := fun (n rem : Nat) => [(Reg.SYS_AON_PRES_STATE, 0, 0, n), (Reg.SYS_AON_PRES_REMAIN, 0, 0, rem)]
    (unwatched → st = 0 ∨ st = 3 → SetsLive .presenceAssert s s (sets 1 0)) ∧
    (unwatched → st = 1 ∨ st = 2 → exec .presenceAssert s = .next s) ∧
    (st = 1 → hold < 65536 → SetsLive (.presenceRelease hold) s s [(Reg.SYS_AON_PRES_STATE, 0, 0, 0)]) ∧
    (st = 1 → 65536 ≤ hold → hold ≤ 327680 → SetsLive (.presenceRelease hold) s s (sets 3 60)) ∧
    (st = 1 → SetsLive .presenceStuck s s [(Reg.SYS_AON_PRES_STATE, 0, 0, 2)]) ∧
    (st = 2 → SetsLive (.presenceRelease hold) s s [(Reg.SYS_AON_PRES_STATE, 0, 0, 0)]) ∧
    (st = 3 → SetsLive .grantExpiry s s (sets 0 0)) ∧
    (st = 0 ∨ st = 3 → exec (.presenceRelease hold) s = .next s) ∧
    (st ≠ 1 → exec .presenceStuck s = .next s) ∧
    (st ≠ 3 → exec .grantExpiry s = .next s) ∧
    (∃ t, exec (.sealCheck true) s = .next t ∧ t = { s with regs := t.regs, aon := t.aon } ∧
      t.aon = { s.aon with sealPass := min 2 (s.aon.sealPass + 1), sealFail := 0 } ∧
      LiveSameBut s t [Reg.SYS_AON_SEAL_OPEN.key 0 0] ∧
      t.live Reg.SYS_AON_SEAL_OPEN = if 1 ≤ s.aon.sealPass then 0 else s.live Reg.SYS_AON_SEAL_OPEN) ∧
    (∃ t, exec (.sealCheck false) s = .next t ∧ t = { s with regs := t.regs, aon := t.aon } ∧
      t.aon = { s.aon with sealPass := 0, sealFail := min 2 (s.aon.sealFail + 1) } ∧
      LiveSameBut s t [Reg.SYS_AON_SEAL_OPEN.key 0 0, Reg.SYS_AON_SEAL_SEAL_BROKEN.key 0 0] ∧
      t.live Reg.SYS_AON_SEAL_OPEN = (if 1 ≤ s.aon.sealFail then 1 else s.live Reg.SYS_AON_SEAL_OPEN) ∧
      t.live Reg.SYS_AON_SEAL_SEAL_BROKEN =
        if 1 ≤ s.aon.sealFail then 1 else s.live Reg.SYS_AON_SEAL_SEAL_BROKEN)

/-- Wake sources: an enabled source ungates the engines from DOZE, raises PWREN from ASLEEP unless a latched wake
waits for the drop, is latched during a bind-off, and wakes nothing otherwise; so do an accepted assertion of
PRESENCE, which also starts a hold from IDLE and from an open grant, CAN activity on a selected controller, PI0, a
host chip-select and an alarm that is due; one that is not enabled, or fires while AONCLK stands still, wakes nothing.
A latched wake raises PWREN once the drop has lasted; ungated engines resume at the first grid boundary from then on
(R61, R62, R68, R69, R75, R409).
Where it goes beyond the rules it rests on log entries 5 and 26. -/
def Obligations.WakeSourcesWakeTheDevice : Prop :=
  ∀ (s : State) (p : Port) (k : Nat),
    let ph := s.power.phase
    let wakes := fun (i : Instr) (bit : Nat) (enable : Fld) (l : State) (fs : List (Fld × Nat × Nat × Nat)) =>
      let on := s.aon.xtal = true ∧ s.live enable ≠ 0
      let src := fs ++ [(Reg.SYS_AON_WAKESRC_SRC, 0, 0, s.live Reg.SYS_AON_WAKESRC_SRC % 32 ||| 2 ^ bit)]
      (¬ on ∨ (ph ≠ .doze ∧ ph ≠ .unpowered ∧
          (ph = .rows → s.power.bind = .none ∨ s.power.bindReplay = true)) →
        SetsLive i s l fs ∧ (fs = [] → exec i s = .next l)) ∧
      (on → ph = .doze → SetsLive i s { l with power := { l.power with waking := true } } src) ∧
      (on → ph = .unpowered → s.power.wakeLatched = false →
        SetsLive i s { l with power := { l.power with pwren := true } } src) ∧
      (on → ph = .unpowered → s.power.wakeLatched = true → SetsLive i s l src) ∧
      (on → ph = .rows → s.power.bind ≠ .none → s.power.bindReplay = false →
        SetsLive i s { l with power := { l.power with wakeLatched := true } } src)
    (s.aon.xtal = false → exec .presenceAssert s = .next s) ∧
    (s.aon.xtal = true →
      (s.live Reg.SYS_AON_PRES_STATE = 0 ∨ s.live Reg.SYS_AON_PRES_STATE = 3 →
        wakes .presenceAssert 0 Reg.SYS_AON_WAKEEN_PRESENCE s
          [(Reg.SYS_AON_PRES_STATE, 0, 0, 1), (Reg.SYS_AON_PRES_REMAIN, 0, 0, 0)]) ∧
      (s.live Reg.SYS_AON_PRES_STATE = 1 ∨ s.live Reg.SYS_AON_PRES_STATE = 2 →
        wakes .presenceAssert 0 Reg.SYS_AON_WAKEEN_PRESENCE s [])) ∧
    (k < 4 → bitOf (s.live Reg.SYS_AON_WAKEEN_CAN_SEL) k = true →
      wakes (.canWake k) 1 Reg.SYS_AON_WAKEEN_CAN s []) ∧
    (¬ (k < 4 ∧ bitOf (s.live Reg.SYS_AON_WAKEEN_CAN_SEL) k = true) → exec (.canWake k) s = .next s) ∧
    wakes .pi0Wake 2 Reg.SYS_AON_WAKEEN_PI0 s [] ∧
    wakes (.hostCsWake p) 3 Reg.SYS_AON_WAKEEN_HOSTCS s [] ∧
    (s.aon.alarmDue = true →
      wakes .rtcAlarm 4 Reg.SYS_AON_WAKEEN_RTC { s with aon := { s.aon with alarmDue := false } } []) ∧
    (s.aon.alarmDue = false → exec .rtcAlarm s = .next s) ∧
    (ph = .unpowered → s.power.wakeLatched = true → exec .pwrenDropElapsed s =
      .next { s with power := { s.power with wakeLatched := false, pwren := s.power.pwren || s.aon.xtal } }) ∧
    (ph ≠ .unpowered ∨ s.power.wakeLatched = false → exec .pwrenDropElapsed s = .next s) ∧
    (ph = .doze → s.power.waking = true → s.power.ungated = false → s.rpl.on = false → 0 < s.row.k →
      let per := s.row.k * 6400000
      let gone := (sdiff s.row.cur s.now).toNat
      ∃ n, 1 ≤ n ∧ gone ≤ n * per ∧ (n = 1 ∨ (n - 1) * per < gone) ∧
        exec .enginesUngated s = .next { s with
          power := { s.power with ungated := true }
          row := { s.row with
            next := s.row.cur + BitVec.ofNat 64 (n * per), num := s.row.num + BitVec.ofNat 32 (n - 1) } }) ∧
    (ph ≠ .doze ∨ s.power.waking = false ∨ s.power.ungated = true ∨ s.rpl.on = true →
      exec .enginesUngated s = .next s)

/-- The AON mirror and the real-time clock: a host write of SYS_RTC_SEC is in transit with BUSY set; the oldest
write in transit takes effect at its arrival, and BUSY reads 1 while another follows; a second counts SEC up,
clears SUB and takes a second from an open grant (R69, R75). That REMAIN counts at the second is the model's
choice.
Where it goes beyond the rules it rests on log entries 28, 29 and 30. -/
def Obligations.MirrorWritesAndTheClockOfSeconds : Prop :=
  ∀ (s : State) (p : Port) (v : W32), s.aon.xtal = true →
    (ServesHost s 0x108 →
      let l := logged s p 0x108 v.toNat
      SetsLive (.rtcSet p v) s { l with aon := { l.aon with writes := l.aon.writes ++ [(0x108, v)] } }
        [(Reg.SYS_AON_WAKEEN_BUSY, 0, 0, 1)]) ∧
    (∀ a rest, s.aon.writes = (a, v) :: rest →
      let n := v.toNat
      let m : State := { s with aon := { s.aon with writes := rest } }
      let busy := (Reg.SYS_AON_WAKEEN_BUSY, 0, 0, if rest = [] then 0 else 1)
      let src := s.live Reg.SYS_AON_WAKESRC_SRC % 32
      (a = 0x100 → SetsLive .aonMirrorArrival s m [busy, (Reg.SYS_AON_WAKEEN_PI0_POL, 0, 0, n / 2 ^ 12 % 2),
        (Reg.SYS_AON_WAKEEN_CAN_SEL, 0, 0, n / 2 ^ 8 % 16), (Reg.SYS_AON_WAKEEN_RTC, 0, 0, n / 16 % 2),
        (Reg.SYS_AON_WAKEEN_HOSTCS, 0, 0, n / 8 % 2), (Reg.SYS_AON_WAKEEN_PI0, 0, 0, n / 4 % 2),
        (Reg.SYS_AON_WAKEEN_CAN, 0, 0, n / 2 % 2), (Reg.SYS_AON_WAKEEN_PRESENCE, 0, 0, n % 2)]) ∧
      (a = 0x104 → s.live Reg.SYS_AON_WAKESRC_SRC < 32 → SetsLive .aonMirrorArrival s m
        [busy, (Reg.SYS_AON_WAKESRC_SRC, 0, 0, src - (src &&& n % 32)), (Reg.SYS_AON_WAKESRC_COLD, 0, 0,
          if n / 32 % 2 = 1 then 0 else s.live Reg.SYS_AON_WAKESRC_COLD)]) ∧
      (a = 0x108 → SetsLive .aonMirrorArrival s
        { m with aon := { m.aon with alarmDue := decide (n = s.live Reg.SYS_RTC_ALARM_ALARM) } }
        [busy, (Reg.SYS_RTC_SEC_SEC, 0, 0, n), (Reg.SYS_RTC_SUB_SUB, 0, 0, 0)]) ∧
      (a = 0x110 → SetsLive .aonMirrorArrival s m [busy, (Reg.SYS_RTC_ALARM_ALARM, 0, 0, n)])) ∧
    (let sec := (s.live Reg.SYS_RTC_SEC_SEC + 1) % 2 ^ 32
      let m : State :=
        { s with aon := { s.aon with alarmDue := decide (sec = s.live Reg.SYS_RTC_ALARM_ALARM) } }
      let fs := [(Reg.SYS_RTC_SEC_SEC, 0, 0, sec), (Reg.SYS_RTC_SUB_SUB, 0, 0, 0)]
      (s.live Reg.SYS_AON_PRES_STATE ≠ 3 → SetsLive .rtcSecond s m fs) ∧
      (s.live Reg.SYS_AON_PRES_STATE = 3 → s.live Reg.SYS_AON_PRES_REMAIN ≤ 60 → SetsLive .rtcSecond s m
        (fs ++ [(Reg.SYS_AON_PRES_REMAIN, 0, 0, s.live Reg.SYS_AON_PRES_REMAIN - 1)])))

/-- Power and reset: supplies follow PWREN; RESET_N starts cast-on at step 2 and, asserted, clears the logic die and
keeps the AON domain; a loss of AONCLK drops PWREN, its return lets it rise again; a failure of VDD_AON clears the AON
domain with COLD and SEAL_BROKEN set; RECAST in the failed state starts cast-on again; the linger ends by its time,
once what a replayed record holds before it has come, or by PARK (R42, R48, R49, R63, R66, R67, R75, R410, R437 to
R439). That a fall of PWREN takes the supplies and the logic die in one step is the model's choice.
Where it goes beyond the rules it rests on log entries 5, 18, 19, 20 and 26. -/
def Obligations.PowerResetAndLinger : Prop :=
  ∀ (s : State) (p : Port),
    let ph := s.power.phase
    let phases : Phase → State := fun f => { s with power := { s.power with phase := f } }
    let u := phases .unpowered
    let h := phases .held
    let stopped : State := { s with aon := { s.aon with xtal := false } }
    (s.power.pwren = true →
      exec .powerUp u = .next { u with power := { u.power with supplies := true, phase := .held } }) ∧
    SetsLive .resetRelease h { h with power := { h.power with resetN := true, phase := .castOn 2 } }
      [(Reg.SYS_CLKSTAT_AON_XTAL_OK, 0, 0, s.aon.xtal.toNat)] ∧
    (ph ≠ .unpowered → ∃ t, exec .resetAssert s = .next t ∧ LosesLogic s t .held s.power.pwren false true) ∧
    exec .resetAssert u = .next u ∧
    (s.power.pwren = false →
      SetsLive .aonclkLoss s stopped [(Reg.SYS_CLKSTAT_AON_XTAL_OK, 0, 0, 0)]) ∧
    (s.power.pwren = true → ∃ t, exec .aonclkLoss s = .next t ∧ LosesLogic stopped t .unpowered false false false) ∧
    (ph ≠ .unpowered → SetsLive .aonclkReturn s { s with aon := { s.aon with xtal := true } }
      [(Reg.SYS_CLKSTAT_AON_XTAL_OK, 0, 0, 1)]) ∧
    exec .aonclkReturn u = .next { u with aon := { u.aon with xtal := true } } ∧
    (∃ t, exec .aonSupplyFail s = .next t ∧ t.live Reg.SYS_AON_WAKESRC_COLD = 1 ∧
      t.live Reg.SYS_AON_SEAL_SEAL_BROKEN = 1 ∧ t.live Reg.SYS_RTC_SEC_SEC = 0 ∧
      LosesLogic { s with regs := s.regs.clearRange 0x800 0x900, aon := ⟨[], false, s.aon.xtal, 0, 0⟩ } t
        .unpowered s.aon.xtal false false) ∧
    (ServesHost s 0x14 →
      let l := logged s p 0x14 1
      (ph = .failed → ∃ t, exec (.recast p) s = .next t ∧ LosesLogic l t (.castOn 2) s.power.pwren true true) ∧
      (ph ≠ .failed → exec (.recast p) s = .next l)) ∧
    (ServesHost s 0x14 →
      let l := logged s p 0x14 2
      (s.power.bind = .linger →
        exec (.park p) s = .next { l with power := { l.power with lingerOver := true } }) ∧
      (s.power.bind ≠ .linger → exec (.park p) s = .next l)) ∧
    (s.recordFirst s.lingerEnd = true → exec .lingerElapsed s = .next s) ∧
    (s.power.bind = .linger → ph = .rows → s.recordFirst s.lingerEnd = false → ∃ t, exec .lingerElapsed s = .next t ∧ t.power.lingerOver = true ∧
      t = { s with power := { s.power with lingerOver := true }, time := { s.time with dt := t.time.dt } } ∧
      (s.time.valid = true → s.reaches s.lingerEnd = true → t.now = s.lingerEnd))

/-- Cast-on: each step's end leads to the next step or to the failed state with its cause in FAIL, CUR 0xF and both
ports in single-lane mode; step 3 starts DT at 0; step 4 loads the gauge store or the defaults; step 7 makes the
accepted copy ACTIVE, with row 0 at the next multiple of 250 µs; step 6 reads in 8D-8D-8D where the header of copy 0
says so and reads the same there, and in 1S-1S-1S otherwise; of a refused copy the checker's code shows. A loss of
REFCLK stops a running device with outputs off, DT invalid and event 0 raised (R48, R49, R57, R64 to R66, R91, R404,
R414, R416, R418). Which failure a loss of REFCLK within cast-on shows is the model's reading.
Where it goes beyond the rules it rests on log entries 17, 22, 23, 24 and 25. -/
def Obligations.CastOnStepsAdvanceOrFail : Prop :=
  ∀ (s : State) (c0 c1 : FlashCopy),
    let at_ : Nat → State := fun k => { s with power := { s.power with phase := .castOn k } }
    let failed : Nat → List (Fld × Nat × Nat × Nat) := fun code =>
      [(Reg.SYS_BOOTSTAT_FAIL, 0, 0, code), (Reg.SYS_PWRSTAT_CUR, 0, 0, 15), (Reg.HP_CFG_OCT, 0, 0, 0),
        (Reg.HP_CFG_OCT, 1, 0, 0)]
    let fails : Instr → State → Nat → Prop := fun c u code =>
      SetsLive c u { u with power := { u.power with phase := .failed, images := [] } } (failed code)
    let octal := leAt c0.slow 20 1 = 1 ∧ c0.fast.take 64 = c0.slow.take 64
    let good := (if octal then [(0, c0.fast), (1, c1.fast)] else [(0, c0.slow), (1, c1.slow)]).filter
      (fun c => chaipGood c.2)
    let one := (at_ 7).checkSkein (placeCopy s.variant c0.slow) false true
    SetsLive (.refclkCheckDone true) (at_ 2) (at_ 3) [(Reg.SYS_CLKSTAT_REF_OK, 0, 0, 1)] ∧
    fails (.refclkCheckDone false) (at_ 2) 1 ∧
    SetsLive .pllLock (at_ 3) { at_ 4 with time := { s.time with dt := 0, valid := true } }
      [(Reg.SYS_CLKSTAT_TCLK_LOCK, 0, 0, 1), (Reg.SYS_CLKSTAT_FCLK_LOCK, 0, 0, 1),
        (Reg.SYS_CLKSTAT_DCLK_LOCK, 0, 0, 1)] ∧
    fails .pllLockFailed (at_ 3) 2 ∧
    (∃ t, exec .gaugeCheckDone (at_ 4) = .next t ∧
      t = { at_ 5 with
        regs := t.regs, time := { s.time with trim := t.time.trim, taps := t.time.taps }
        boot := { s.boot with loaded := t.boot.loaded } } ∧
      (gaugeGood s.boot.gauge = true → t.boot.loaded = s.boot.gauge) ∧
      (gaugeGood s.boot.gauge = false → ∀ k, k < 8192 → Tab.get 0 t.boot.loaded k = Config.defaultGauge k) ∧
      t.live Reg.SYS_BOOTSTAT_GAUGE_BAD = (!gaugeGood s.boot.gauge).toNat ∧
      t.live Reg.SYS_TCLK_TRIM_TRIM = t.time.trim.toNat ∧ t.live Reg.GNB_FREQ_FREQ = t.time.trim.toNat ∧
      LiveSameBut s t [Reg.SYS_BOOTSTAT_GAUGE_BAD.key 0 0, Reg.GSB_WCNT_N.key 0 0,
        Reg.SYS_TCLK_TRIM_TRIM.key 0 0, Reg.GNB_FREQ_FREQ.key 0 0]) ∧
    exec (.dramTrainingDone true) (at_ 5) = .next (at_ 6) ∧
    fails (.dramTrainingDone false) (at_ 5) 3 ∧
    (∃ link : BootLink, (link.octal = true ↔ octal) ∧
      (octal → link.opcode = leAt c0.slow 21 1 ∧ link.dummy = leAt c0.slow 22 1 ∧ link.freq = leAt c0.slow 23 1) ∧
      (¬ octal → link.opcode = 0x13 ∧ link.dummy = 0) ∧ (leAt c0.slow 20 1 ≠ 1 → link.sent = []) ∧
      (good ≠ [] → exec (.chaipImageRead c0 c1) (at_ 6) = .next { at_ 7 with
        boot := { s.boot with link := link }, power := { s.power with phase := .castOn 7, images := good } }) ∧
      (good = [] → SetsLive (.chaipImageRead c0 c1) (at_ 6) { at_ 6 with
        boot := { s.boot with link := link }, power := { s.power with phase := .failed, images := [] } } (failed 4))) ∧
    (s.power.images = [] → fails .imagePlaceDone (at_ 7) 5) ∧
    (∀ j, s.power.images = [(j, c0.slow)] → one.1 ≠ 0 → SetsLive .imagePlaceDone (at_ 7)
      { at_ 7 with power := { s.power with phase := .failed, images := [] } }
      (failed 5 ++ [(Reg.SKN_CHK_CODE, 0, 0, one.1 % 256), (Reg.SKN_CHKADDR_ADDR, 0, 0, one.2 % 2 ^ 32)])) ∧
    (∀ k m base, ((at_ 7).acceptCopy s.power.images).2 = some (k, m, base) → s.rpl.on = false → k < 2 →
      s.time.dt.toNat + 6400000 < 2 ^ 64 → ∃ t, exec .imagePlaceDone (at_ 7) = .next t ∧
        t.power.phase = .waitRow0 ∧ t.skn.act = m ∧ t.time.dt = s.time.dt ∧ t.row.num = 0 ∧
        t.row.started = false ∧ t.row.next.toNat % 6400000 = 0 ∧ s.time.dt.toNat < t.row.next.toNat ∧
        t.row.next.toNat ≤ s.time.dt.toNat + 6400000 ∧ t.live Reg.SYS_BOOTSTAT_COPY = k ∧
        t.live Reg.SYS_BOOTSTAT_FAIL = 0 ∧ t.live Reg.SKN_VACT_VER = m.fld Reg.SKN_VER_VER % 2 ^ 32 ∧
        t.live Reg.SKN_STAT_STG_READY = 0 ∧ t.live Reg.SKN_STAT_PRV_VALID = 0) ∧
    (let gone := fun (u t : State) => t.time = { u.time with valid := false } ∧
        t = { u with regs := t.regs, boot := t.boot, time := t.time, power := t.power } ∧
        t.live Reg.SYS_CLKSTAT_REF_OK = 0 ∧ Raised u t 0 0 0
      let keys := Reg.SYS_CLKSTAT_REF_OK.key 0 0 :: eventKeys 0
      (∀ k, 3 ≤ k → ∃ t, exec .clockLoss (at_ k) = .next t ∧ gone (at_ k) t ∧
        t.power = { s.power with phase := .failed, images := [] } ∧ t.live Reg.SYS_BOOTSTAT_FAIL = 1 ∧
        t.live Reg.SYS_PWRSTAT_CUR = 15 ∧ t.live Reg.HP_CFG_OCT 0 = 0 ∧ t.live Reg.HP_CFG_OCT 1 = 0 ∧
        LiveSameBut s t ([Reg.SYS_BOOTSTAT_FAIL.key 0 0, Reg.SYS_PWRSTAT_CUR.key 0 0, Reg.HP_CFG_OCT.key 0 0,
          Reg.HP_CFG_OCT.key 1 0] ++ keys)) ∧
      (s.power.phase = .failed → s.live Reg.SYS_CLKSTAT_REF_OK ≠ 0 → ∃ t, exec .clockLoss s = .next t ∧
        gone s t ∧ t.power = s.power ∧ LiveSameBut s t keys) ∧
      (s.power.phase = .failed → s.live Reg.SYS_CLKSTAT_REF_OK = 0 → exec .clockLoss s = .next s)) ∧
    ((s.power.phase = .rows ∨ s.power.phase = .waitRow0 ∨ s.power.phase = .doze ∨
        s.power.phase = .replayHold ∨ s.power.phase = .replayEnded) → ∃ t, exec .clockLoss s = .next t ∧
      t.power.phase = .clockLost ∧ t.time.valid = false ∧ t.live Reg.SYS_CLKSTAT_REF_OK = 0 ∧
      t.live Reg.HP_CFG_OCT 0 = 0 ∧ t.live Reg.HP_CFG_OCT 1 = 0 ∧ t.ple.queue = [] ∧ t.dsl.waiting = [] ∧
      Raised (s.channelsLow).slicesOff t 0 0 0)

/-! ### Time and its calibration, and the sensor inputs -/

/-- The trim takes effect at its stamp; the write of the high GPS word puts the staged relation into force, and
is ignored while SRC is 0; a read of SYS_DT_LO answers the low word and latches the high word for the port; tap
tables and the end of a calibration pass; the temperatures (R52, R54 to R56, R58, R59, R454).
Where it goes beyond the rules it rests on log entries 5 and 23. -/
def Obligations.TimeRelationTrimAndCalibration : Prop :=
  ∀ (s : State) (p : Port) (v : W32) (line : Nat) (taps : List Byte) (worst : Byte) (d g : BitVec 16),
    (∀ trim at_, s.time.trimNext = some (trim, at_) → ∃ t, exec .trimTakesEffect s = .next t ∧
      t = { s with time := { s.time with dt := t.time.dt, trim := trim, trimNext := none } } ∧
      (s.time.valid = true → sAtOrBefore s.time.dt at_ = true → t.time.dt = at_)) ∧
    (s.time.trimNext = none → exec .trimTakesEffect s = .next s) ∧
    (ServesHost s 0x44 →
      let l := logged s p 0x44 v.toNat
      let gps := s.time.gpsStg.toNat % 2 ^ 32 + 2 ^ 32 * v.toNat
      (s.conf Reg.SYS_DISC_STAT_SRC = 0 → exec (.discRelationWrite p v) s = .next l) ∧
      (s.conf Reg.SYS_DISC_STAT_SRC ≠ 0 →
        SetsLive (.discRelationWrite p v) s { l with time := { l.time with gpsStg := BitVec.ofNat 64 gps } }
          [(Reg.SYS_DISC_ANCHOR_LO_ANCHOR, 0, 0, s.time.anchorStg.toNat % 2 ^ 32),
            (Reg.SYS_DISC_ANCHOR_HI_ANCHOR, 0, 0, s.time.anchorStg.toNat / 2 ^ 32),
            (Reg.SYS_DISC_GPS_LO_GPS, 0, 0, s.time.gpsStg.toNat % 2 ^ 32), (Reg.SYS_DISC_GPS_HI_GPS, 0, 0, v.toNat)])) ∧
    (s.power.phase = .rows → ∃ t, exec (.dtLatchRead p) s = .next t ∧
      t = { s with time := { s.time with latch := t.time.latch }, hostData := t.hostData } ∧
      Tab.get [] t.hostData p.idx = [BitVec.ofNat 32 (s.time.dt.toNat % 2 ^ 32)] ∧
      Tab.get 0 t.time.latch p.idx = BitVec.ofNat 32 (s.time.dt.toNat / 2 ^ 32) ∧
      ∀ q, q ≠ p.idx → Tab.get [] t.hostData q = Tab.get [] s.hostData q ∧
        Tab.get 0 t.time.latch q = Tab.get 0 s.time.latch q) ∧
    (s.live Reg.SYS_CLKSTAT_TCLK_LOCK ≠ 0 → line < 514 → taps.length = 64 →
      ∃ t, exec (.dlTapRewrite line taps) s = .next t ∧
        t = { s with time := { s.time with taps := t.time.taps } } ∧
        (∀ i, i < 64 → Tab.get 0 t.time.taps (64 * line + i) = taps.getD i 0) ∧
        ∀ k, (k < 64 * line ∨ 64 * line + 64 ≤ k) → Tab.get 0 t.time.taps k = Tab.get 0 s.time.taps k) ∧
    (s.live Reg.SYS_CLKSTAT_TCLK_LOCK ≠ 0 →
      SetsLive (.dlCalDone worst) s s [(Reg.SYS_CLKSTAT_DL_CAL_DONE, 0, 0, 1), (Reg.ETU_DLSTAT_DONE, 0, 0, 1),
        (Reg.ETU_DLSTAT_PASSES, 0, 0, (s.live Reg.ETU_DLSTAT_PASSES + 1) % 2 ^ 16),
        (Reg.ETU_DLSTAT_WORST, 0, 0, worst.toNat)]) ∧
    (s.power.phase ≠ .unpowered → s.power.phase ≠ .held → SetsLive (.temperatureUpdate d g) s s
      [(Reg.SYS_TEMP_DRIVE, 0, 0, d.toNat), (Reg.SYS_TEMP_LOGIC, 0, 0, g.toNat)])

/-- A pulse input's accepted edge changes its level and, where the input is enabled, from the boundary that enabled it
on, is the last of its polarity, and where its polarity is selected, counts and delivers a
sample of class 4 with period, count and level, to be settled 2 µs after its stamp; a quadrature step counts up in
the forward sequence, in which A leads B, and down otherwise, and a step of both lines sets QERR and delivers
nothing; of a pair that is not enabled the levels alone follow (R385 to R387, R391).
Where it goes beyond the rules it rests on log entries 5, 64 and 66. -/
def Obligations.PulseAndQuadratureEdgesDeliverSamples : Prop :=
  ∀ (s : State) (i : Nat) (at_ : Stamp) (a b : Bool), i < 24 → s.power.phase = .rows → s.rpl.on = false →
    let st := floorTo 64 at_
    let lev := s.live Reg.SIN_PSTAT_LEVEL i ≠ 0
    let lev1 := s.live Reg.SIN_PSTAT_LEVEL (i + 1) ≠ 0
    let en := s.conf Reg.SIN_PCFG_EN i = 1 ∧ sAtOrBefore (s.pulse i).from_ st = true
    let n := s.live Reg.SIN_PCNT_CNT i
    let quad := s.conf Reg.SIN_PCFG_QUAD (i / 2 * 2) = 1
    let q := s.pulse i
    let since := fun (o : Option Stamp) => match o with
      | none => 2 ^ 32 - 1
      | some e => min (2 ^ 32 - 1) ((st - e).toNat / 64)
    let sampled := fun (c : Instr) (per cnt info : Nat) (keys : List Nat) => ∃ t body, exec c s = .next t ∧
      t = { s with
        regs := t.regs, time := { s.time with dt := t.time.dt }
        inp := { s.inp with done := t.inp.done, recent := t.inp.recent, pulses := t.inp.pulses } } ∧
      LiveSameBut s t keys ∧ body.length = 9 ∧ leAt body 0 4 = per ∧ leAt body 4 4 = cnt ∧ leAt body 8 1 = info ∧
      t.live Reg.SIN_PCNT_CNT i = cnt ∧
      t.inp.done = s.inp.done ++ [⟨inputId 4 i, st, st + 51200, 0, body⟩] ∧
      (t.pulse i).from_ = q.from_ ∧ ∀ j, j ≠ i → t.pulse j = s.pulse j
    let moved : State → State := fun u => { s with time := { s.time with dt := u.time.dt } }
    (¬ quad → (lev ↔ a = true) → exec (.pulseEdge i at_ a) s = .next s) ∧
    (¬ quad → ¬ (lev ↔ a = true) →
      let sel := bitOf (s.conf Reg.SIN_PCFG_EDGE i) (if a then 0 else 1) = true
      (¬ en → ∃ u, SetsLive (.pulseEdge i at_ a) s (moved u) [(Reg.SIN_PSTAT_LEVEL, i, 0, a.toNat)]) ∧
      (en → ¬ sel → ∃ t, exec (.pulseEdge i at_ a) s = .next t ∧
        t = { s with regs := t.regs, time := { s.time with dt := t.time.dt }, inp := { s.inp with pulses := t.inp.pulses } } ∧
        LiveSameBut s t [Reg.SIN_PSTAT_LEVEL.key i 0] ∧ t.live Reg.SIN_PSTAT_LEVEL i = a.toNat ∧
        (∀ j, j ≠ i → t.pulse j = s.pulse j) ∧
        t.pulse i = { q with
          riseA := if a then some st else q.riseA, fallA := if a then q.fallA else some st, timed := (t.pulse i).timed }) ∧
      (en → sel → sampled (.pulseEdge i at_ a) (since (if a then q.riseA else q.fallA)) ((n + 1) % 2 ^ 32)
        a.toNat [Reg.SIN_PSTAT_LEVEL.key i 0, Reg.SIN_PCNT_CNT.key i 0])) ∧
    (quad → i % 2 = 0 →
      let onA := ¬ (lev ↔ a = true)
      let onB := ¬ (lev1 ↔ b = true)
      let keys := [Reg.SIN_PSTAT_LEVEL.key i 0, Reg.SIN_PSTAT_LEVEL.key (i + 1) 0, Reg.SIN_PCNT_CNT.key i 0]
      (¬ onA → ¬ onB → exec (.quadEdge i at_ a b) s = .next s) ∧
      (¬ en → onA ∨ onB → ∃ u, SetsLive (.quadEdge i at_ a b) s (moved u)
        [(Reg.SIN_PSTAT_LEVEL, i, 0, a.toNat), (Reg.SIN_PSTAT_LEVEL, i + 1, 0, b.toNat)]) ∧
      (en → onA → onB → ∃ u, SetsLive (.quadEdge i at_ a b) s (moved u) [(Reg.SIN_PSTAT_LEVEL, i, 0, a.toNat),
        (Reg.SIN_PSTAT_LEVEL, i + 1, 0, b.toNat), (Reg.SIN_PSTAT_QERR, i, 0, 1)]) ∧
      (en → onA → ¬ onB → a ≠ b → sampled (.quadEdge i at_ a b) (since (if a then q.riseA else q.fallA))
        ((n + 1) % 2 ^ 32) (a.toNat + 2) keys) ∧
      (en → onA → ¬ onB → a = b → sampled (.quadEdge i at_ a b) (since (if a then q.riseA else q.fallA))
        ((n + (2 ^ 32 - 1)) % 2 ^ 32) a.toNat keys) ∧
      (en → ¬ onA → onB → a = b → sampled (.quadEdge i at_ a b) (since (if b then q.riseB else q.fallB))
        ((n + 1) % 2 ^ 32) (b.toNat + 2) keys) ∧
      (en → ¬ onA → onB → a ≠ b → sampled (.quadEdge i at_ a b) (since (if b then q.riseB else q.fallB))
        ((n + (2 ^ 32 - 1)) % 2 ^ 32) b.toNat keys))

/-- ADC conversions carry the corrected value; a DRDY edge of the selected polarity starts a burst, which sends its
command bytes first, or counts an overlap, and one of the other polarity or before the enabling boundary does nothing;
a burst's 16 bytes are admitted within WIN and refused and counted after it; a completed sample is settled by its
maximum age; IMU_SYNC rises at its grid instant and falls WIDTH later (R27, R28, R387 to R391).
Where it goes beyond the rules it rests on log entries 5 and 64. -/
def Obligations.ConversionsBurstsAndAdmission : Prop :=
  ∀ (s : State) (ch : Nat) (raw : BitVec 12) (at_ : Stamp) (rising : Bool) (bytes : List Byte) (x : Sample),
    s.power.phase = .rows → s.rpl.on = false → ch < 16 → bytes.length = 16 →
    s.conf Reg.DXC_RING_CFG_EN 0 = 0 → s.conf Reg.DXC_RING_CFG_EN 1 = 0 →
    let grid := fun (per : Nat) (t : Stamp) => t.toNat % (per * 256000)
    let base := if sAtOrBefore s.row.cur s.now = true ∧ sAtOrBefore s.now s.fStamp = true then s.row.cur else s.now
    let drdy : Instr := .imuDrdy ⟨at_, rising⟩
    let taken := s.conf Reg.SIN_ICFG_EN = 1 ∧ s.conf Reg.SIN_ICFG_DRPOL = (if rising then 0 else 1) ∧
      sAtOrBefore s.inp.imuFrom (floorTo 64 at_) = true
    (s.conf Reg.SIN_ACFG_EN ch = 1 → ∃ t body src corr, exec (.adcConversion ch raw) s = .next t ∧
      t = { s with
        time := { s.time with dt := t.time.dt }
        inp := { s.inp with done := t.inp.done, recent := t.inp.recent, adcLast := t.inp.adcLast } } ∧
      t.inp.done = s.inp.done ++ [⟨inputId 5 ch, src, src + 51200, 0, body⟩] ∧
      (let apr := s.conf Reg.SIN_ATIME_APER ch;
        0 < apr → s.conf Reg.SIN_ATIME_APH ch < apr → base.toNat + 2 ^ 36 < 2 ^ 64 →
        grid apr src = s.conf Reg.SIN_ATIME_APH ch * 256000 ∧ base.toNat ≤ src.toNat ∧
        src.toNat < base.toNat + 2 * (apr * 256000) ∧ Tab.get none s.inp.adcLast ch ≠ some src) ∧
      Tab.get none t.inp.adcLast ch = some src ∧
      NearestAway ((16 * raw.toNat + sext 16 (s.gauge (32 + 4 * ch) 2)) * s.gauge (34 + 4 * ch) 2) (2 ^ 19) corr ∧
      body.length = 2 ∧ (leAt body 0 2 : Int) = max 0 (min 4095 corr)) ∧
    (¬ taken → exec drdy s = .next s) ∧
    (taken →
      (s.inp.burst = none → ∃ t cmd, exec drdy s = .next t ∧
        t = { s with time := { s.time with dt := t.time.dt }
                     inp := { s.inp with burst := some ⟨floorTo 64 at_, cmd⟩ } } ∧
        cmd.length = min 4 (s.conf Reg.SIN_ICFG_NCMD) ∧
        ∀ j, j < cmd.length → cmd[j]? = some (BitVec.ofNat 8 (s.conf Reg.SIN_ICMD_CMD / 256 ^ j))) ∧
      (∀ b, s.inp.burst = some b → ∃ t, exec drdy s = .next t ∧
        t = { s with time := { s.time with dt := t.time.dt }, regs := t.regs } ∧
        LiveSameBut s t [Reg.SIN_ISTAT_OVLP.key 0 0] ∧
        t.live Reg.SIN_ISTAT_OVLP = (s.live Reg.SIN_ISTAT_OVLP + 1) % 2 ^ 16)) ∧
    (∀ src cmd, s.inp.burst = some ⟨src, cmd⟩ → ∃ t, exec (.imuBurstEnd at_ bytes) s = .next t ∧
      t = { s with time := { s.time with dt := t.time.dt }, regs := t.regs
                   inp := { s.inp with
                     burst := none, pend := t.inp.pend
                     csUntil := some (at_ + BitVec.ofNat 64 (128 * (s.conf Reg.SIN_ICFG_DIV + 1))) } } ∧
      let inTime := 0 ≤ sdiff at_ (src + BitVec.ofNat 64 (s.conf Reg.SIN_ICFG_WIN * 25600))
      (inTime → LiveSameBut s t [] ∧
        t.inp.pend = s.inp.pend ++ [⟨inputId 6 0, src, at_, t.rowOf at_, bytes⟩]) ∧
      (¬ inTime → LiveSameBut s t [Reg.SIN_ISTAT_LATE.key 0 0] ∧ t.inp.pend = s.inp.pend ∧
        t.live Reg.SIN_ISTAT_LATE = (s.live Reg.SIN_ISTAT_LATE + 1) % 2 ^ 16)) ∧
    (∀ rest, s.inp.done = x :: rest → ∃ t, exec (.sampleAdmission x.id x.src) s = .next t ∧
      t = { s with time := { s.time with dt := t.time.dt }
                   inp := { s.inp with done := rest, pend := t.inp.pend } } ∧
      let cls := x.id.toNat / 2 ^ 16
      let age := if cls = 3 then s.conf Reg.FGE_STIME_MAXAGE (x.id.toNat % 2 ^ 16) * 25600000
        else if cls = 8 then 256000000 else 25600000
      let inTime := 0 ≤ sdiff x.adm (x.src + BitVec.ofNat 64 age)
      t.inp.pend = if inTime then s.inp.pend ++ [⟨x.id, x.src, x.adm, t.rowOf x.adm, x.payload⟩] else s.inp.pend) ∧
    (s.conf Reg.SIN_ISYNC_EN = 1 → s.inp.sync = false → ∃ t src, exec .imuSyncPulse s = .next t ∧
      t = { s with
        time := { s.time with dt := t.time.dt }, inp := { s.inp with sync := true, syncLast := some src } } ∧
      (0 < s.conf Reg.SIN_ISYNC_SPER → base.toNat + 2 ^ 36 < 2 ^ 64 →
        grid (s.conf Reg.SIN_ISYNC_SPER) src = 0 ∧ base.toNat ≤ src.toNat ∧
        src.toNat < base.toNat + 2 * (s.conf Reg.SIN_ISYNC_SPER * 256000) ∧ s.inp.syncLast ≠ some src)) ∧
    (s.inp.sync = true → ∃ t, exec .imuSyncPulseEnd s = .next t ∧
      t = { s with time := { s.time with dt := t.time.dt }, inp := { s.inp with sync := false } })

/-! ### Edge channels, carriers and trips -/

/-- Shadows and reloads: a period write below 1,024 is ignored with PER_REJ; any other reaches the shadow and leaves
the period in force; a period start brings every shadow that landed before its cycle into force, or none while the
group is locked, and ends the cut of a group that no trip holds; a carrier that a commit has stopped at F stands
again, its channels low, after what its last microsecond still brings (R240, R241, R244 to R246, R257).
Where it goes beyond the rules it rests on log entries 5, 47 and 108. -/
def Obligations.CarrierShadowsAndReloads : Prop :=
  ∀ (s : State) (p : Port) (g : Nat) (v : W32), g < s.variant.groups →
    let x := s.group g
    let locked := bitOf (s.live Reg.ETU_LOCK_LOCK) g = true
    let a := 0x03001008 + 0x10 * g
    (ServesHost s a → v.toNat < 1024 →
      SetsLive (.periodWrite p g v) s (logged s p a v.toNat) [(Reg.ETU_GSTAT_PER_REJ, g, 0, 1)]) ∧
    (ServesHost s a → 1024 ≤ v.toNat → ∃ t, exec (.periodWrite p g v) s = .next t ∧
      t = { s with regs := t.regs, etu := { s.etu with groups := t.etu.groups } } ∧
      LiveSameBut s t [Reg.ETU_PER_PER.key g 0, Reg.ETU_GSTAT_PEND.key g 0] ∧
      t.live Reg.ETU_PER_PER g = v.toNat ∧ (v.toNat ≠ x.per → t.live Reg.ETU_GSTAT_PEND g = 1) ∧
      (∀ h, h ≠ g → t.group h = s.group h) ∧
      t.group g = { x with
        wroteAt := (t.group g).wroteAt
        writes := x.writes ++ [(p, BitVec.ofNat 32 a, v, floorTo 64 s.now)] }) ∧
    (ServesHost s 0x03000010 →
      let l := logged s p 0x03000010 v.toNat
      ∃ t, exec (.lockWrite p v) s = .next t ∧
        t = { l with regs := t.regs, etu := { l.etu with groups := t.etu.groups } } ∧
        OnlyLive { l with etu := t.etu } t [Reg.ETU_LOCK_LOCK.key 0 0] ∧
        t.live Reg.ETU_LOCK_LOCK = v.toNat ∧
        t.group g = { x with
          lockAt := if bitOf (s.live Reg.ETU_LOCK_LOCK) g = bitOf v.toNat g then x.lockAt
            else (t.group g).lockAt } ∧
        (bitOf (s.live Reg.ETU_LOCK_LOCK) g ≠ bitOf v.toNat g → x.lockAt = none →
          (t.group g).lockAt = some (s.now, bitOf (s.live Reg.ETU_LOCK_LOCK) g))) ∧
    (∀ at_ e, x.run = false → x.startAt = some at_ → x.stopAt = some e → ∃ t, exec (.periodStart g) s = .next t ∧
      (∀ h, h ≠ g → t.group h = s.group h) ∧ (sBefore at_ e = false → t.group g = x) ∧
      (sBefore at_ e = true → (t.group g).run = false ∧ (t.group g).stopAt = some e ∧
        t.live Reg.ETU_GSTAT_RUN g = 0 ∧ ∀ i, i < 16 → t.live Reg.ETU_CHSTAT_OUT (16 * g + i) = 0)) ∧
    (∀ at_, s.rpl.on = false → x.run = true ∨ x.stopAt = none →
      (x.startAt = some at_ ∨ (x.startAt = none ∧ x.run = true ∧ at_ = x.start + BitVec.ofNat 64 x.per)) →
      ∃ t, exec (.periodStart g) s = .next t ∧
        (x.writes = [] → t = { s with regs := t.regs, etu := t.etu, time := { s.time with dt := t.time.dt } }) ∧
        (s.reaches at_ = true → t.now = at_) ∧
        (∀ h, h ≠ g → t.group h = s.group h) ∧ (∀ n, n / 16 ≠ g → t.chan n = s.chan n) ∧
        (t.group g).run = true ∧ (t.group g).start = at_ ∧ (t.group g).startAt = none ∧
        t.live Reg.ETU_GSTAT_RUN g = s.live Reg.ETU_GSTAT_RUN g ∧
        t.live Reg.ETU_GSTAT_PCOUNT g = (s.live Reg.ETU_GSTAT_PCOUNT g + 1) % 2 ^ 16 ∧
        (¬ locked → x.lockAt = none → (∀ e ∈ x.wroteAt, ∀ l b, e.2 = some (l, b) → cycle l < cycle at_) →
          (t.group g).per = s.live Reg.ETU_PER_PER g ∧ (t.group g).wroteAt = [] ∧
          ∀ i, i < 16 → (t.chan (16 * g + i)).ca = s.live Reg.ETU_CA_CA (16 * g + i) ∧
            (t.chan (16 * g + i)).cb = s.live Reg.ETU_CB_CB (16 * g + i)) ∧
        (∀ l b, ¬ locked → x.lockAt = none → x.wroteAt = [(0, some (l, b))] → cycle at_ ≤ cycle l →
          (t.group g).per = b ∧ (t.group g).wroteAt = x.wroteAt) ∧
        (locked → x.lockAt = none → (t.group g).per = x.per ∧
          ∀ i, i < 16 → (t.chan (16 * g + i)).ca = (s.chan (16 * g + i)).ca ∧
            (t.chan (16 * g + i)).cb = (s.chan (16 * g + i)).cb) ∧
        (s.etu.clearedAt = [] →
          let holds := ∃ k, k < 16 ∧ s.conf Reg.ETU_TRIPCFG_EN k = 1 ∧
            bitOf (s.conf Reg.ETU_TRIPMAP_MAP k) g = true ∧
            (if s.conf Reg.ETU_TRIPCFG_MODE k = 1 then bitOf (s.live Reg.ETU_TRIPSTAT_LATCHED) k = true
              else bitOf (s.live Reg.ETU_TRIPSTAT_ACTIVE) k = true)
          (t.live Reg.ETU_GSTAT_CUT g ≠ 0 ↔ s.live Reg.ETU_GSTAT_CUT g ≠ 0 ∧ holds)))

/-- The outputs of channels at an instant of the period: a single channel without a filter is on exactly while its
gate is open and, but in LEVEL mode, its carrier lies in the window of the compares; a rise that follows a fall of the
same cycle begins no new pulse; a pulse scheduled shorter than MINP is removed with SUPP; in a pair the reference's
rise takes the odd output down at once and the even output up DT_R later, and its fall the even output down at once
and the odd output up DT_F later (R242, R243, R247, R252, R253).
Where it goes beyond the rules it rests on log entries 5, 105 and 106. -/
def Obligations.ChannelOutputsFollowWindowGateAndDeadTime : Prop :=
  ∀ (s : State) (n : Nat) (at_ : Stamp), n < s.variant.channels → s.reaches at_ = true →
    s.recordFirst at_ = false →
    let x := s.group (n / 16)
    let k := s.chCfg n
    let q := s.chan n
    let o := s.chan (n + 1)
    let c := (at_ - x.start).toNat
    let gate := k.free = true ∨ s.live Reg.ETU_CHSTAT_GATE n ≠ 0
    let within := if x.per ≤ q.ca ∨ x.per ≤ q.cb then True else if q.ca = q.cb then False
      else if q.ca < q.cb then q.ca ≤ c ∧ c < q.cb else q.ca ≤ c ∨ c < q.cb
    let on := fun (t : State) (m : Nat) => t.live Reg.ETU_CHSTAT_OUT m ≠ 0
    let fellNow := ∃ f, q.fell = some f ∧ cycle f = cycle at_
    let clean := fun (y : Chan) => y.fallAt = none ∧ y.removed = false
    let becomes := fun (P : State → Prop) => ∃ t, exec (.compareMatch n at_) s = .next t ∧
      t = { s with regs := t.regs, time := { s.time with dt := t.time.dt }
                   etu := { s.etu with chans := t.etu.chans } } ∧
      t.now = at_ ∧ (∀ m, m ≠ n → m ≠ n + 1 → t.chan m = s.chan m) ∧ P t
    x.run = true → s.live Reg.ETU_GSTAT_CUT (n / 16) = 0 → sAtOrBefore x.start at_ = true →
    sBefore at_ (x.start + BitVec.ofNat 64 x.per) = true → (s.chCfg (n / 2 * 2)).pair = k.pair → clean q →
      (k.pair = false → k.minp = 0 → (k.gmode = 0 ∨ k.dsrc = 0) → becomes (fun t =>
        LiveSameBut s t [Reg.ETU_CHSTAT_OUT.key n 0] ∧ t.chan (n + 1) = o ∧
        (on t n ↔ gate ∧ (k.gmode = 0 ∨ within)) ∧
        (fellNow → gate → (k.gmode = 0 ∨ within) → ¬ on s n → (t.chan n).rise = q.rise) ∧
        (¬ fellNow → gate → (k.gmode = 0 ∨ within) → ¬ on s n → (t.chan n).rise = at_))) ∧
      (k.pair = false → k.gmode ≠ 0 → k.dsrc = 0 → q.ca < q.cb → q.cb < x.per → c = q.ca → gate → ¬ on s n →
        ¬ fellNow → q.cb - q.ca < k.minp → becomes (fun t => ¬ on t n ∧ t.live Reg.ETU_CHSTAT_SUPP n = 1 ∧
          LiveSameBut s t [Reg.ETU_CHSTAT_SUPP.key n 0])) ∧
      (k.pair = true → n % 2 = 0 → k.minp = 0 → k.gmode ≠ 0 → k.dsrc = 0 → clean o →
        (q.r = false → within → q.lvl = false → q.riseAt = none → ¬ on s n → 0 < k.dtR → k.dtR < 2 ^ 32 →
          o.riseAt = none → o.skip = false → sAtOrBefore o.rise at_ = true → becomes (fun t => ¬ on t n ∧ ¬ on t (n + 1) ∧
            (t.chan n).riseAt = some (at_ + BitVec.ofNat 64 k.dtR))) ∧
        (q.r = true → within → q.lvl = false → q.riseAt = some at_ → o.lvl = false → o.riseAt = none →
          becomes (fun t => (on t n ↔ gate) ∧ ¬ on t (n + 1))) ∧
        (q.r = true → ¬ within → o.lvl = false → o.riseAt = none → ¬ on s (n + 1) → 0 < k.dtF → k.dtF < 2 ^ 32 →
          q.skip = false → sAtOrBefore q.rise at_ = true → becomes (fun t => ¬ on t n ∧ ¬ on t (n + 1) ∧
            (t.chan (n + 1)).riseAt = some (at_ + BitVec.ofNat 64 k.dtF))) ∧
        (q.r = false → ¬ within → o.lvl = false → o.riseAt = some at_ → q.lvl = false → q.riseAt = none →
          becomes (fun t => ¬ on t n ∧ (on t (n + 1) ↔ gate))))

/-- Trips: the filter takes a level once the last N samples agree on it, N samples and the input's delay after the raw
edge; an active level cuts every mapped group of an enabled trip, drives its channels low, latches in LATCH
mode and raises the trip's event, and changes no gate, compare, period or queue entry; a release leaves the cut
to the next period start; a clear releases a latch whose level is inactive and is refused otherwise (R255 to
R258).
Where it goes beyond the rules it rests on log entries 5 and 109. -/
def Obligations.TripsCutGroupsAndLatch : Prop :=
  ∀ (s : State) (p : Port) (n : Nat) (mask : BitVec 16) (edge : Stamp) (levels : List Bool),
    n < 16 → s.rpl.on = false →
    let act := s.live Reg.ETU_TRIPSTAT_ACTIVE
    let lat := s.live Reg.ETU_TRIPSTAT_LATCHED
    let maps := fun g => bitOf (s.conf Reg.ETU_TRIPMAP_MAP n) g = true
    let en := s.conf Reg.ETU_TRIPCFG_EN n = 1
    let latching := s.conf Reg.ETU_TRIPCFG_MODE n = 1
    let flt := s.conf Reg.ETU_TRIPCFG_FLT n
    let pre := 2 ^ s.conf Reg.ETU_TRIPCFG_PRE n
    let takes := fun (active : Bool) => flt ≤ levels.length ∧
      (∀ l ∈ levels.drop (levels.length - flt), l = (active != decide (s.conf Reg.ETU_TRIPCFG_POL n = 1))) ∧
      cycle edge + flt * pre + 2 ≤ cycle s.now ∧ cycle s.now ≤ cycle edge + (flt + 1) * pre + 2
    (¬ takes true → exec (.tripActive ⟨n, edge, levels⟩) s = .next s) ∧
    (¬ takes false → exec (.tripRelease ⟨n, edge, levels⟩) s = .next s) ∧
    (bitOf act n = false → takes true → ∃ t, exec (.tripActive ⟨n, edge, levels⟩) s = .next t ∧
      (∀ k, k < 16 → bitOf (t.live Reg.ETU_TRIPSTAT_ACTIVE) k = (decide (k = n) || bitOf act k)) ∧
      t.ple = s.ple ∧ t.cores = s.cores ∧ t.skn = s.skn ∧
      (∀ m, t.live Reg.ETU_CHSTAT_GATE m = s.live Reg.ETU_CHSTAT_GATE m ∧ (t.chan m).ca = (s.chan m).ca ∧
        (t.chan m).cb = (s.chan m).cb) ∧ (∀ g, (t.group g).per = (s.group g).per) ∧
      (¬ en → t = { s with regs := t.regs, inp := t.inp } ∧
        LiveSameBut s t [Reg.ETU_TRIPSTAT_ACTIVE.key 0 0]) ∧
      (en → Raised s t (65 + n) 0 (floorTo 64 s.now) ∧
        (∀ k, k < 16 → bitOf (t.live Reg.ETU_TRIPSTAT_LATCHED) k =
          ((decide latching && decide (k = n)) || bitOf lat k)) ∧
        ∀ g, g < s.variant.groups →
          (maps g → t.live Reg.ETU_GSTAT_CUT g = 1 ∧ bitOf (t.live Reg.ETU_GCUT_CUT) g = true ∧
            bitOf (t.live Reg.ETU_TRIPHIT_HIT) n = true ∧ n ∈ (t.group g).holders ∧
            ∀ i, i < 16 → t.live Reg.ETU_CHSTAT_OUT (16 * g + i) = 0 ∧ (t.chan (16 * g + i)).riseAt = none) ∧
          (¬ maps g → t.live Reg.ETU_GSTAT_CUT g = s.live Reg.ETU_GSTAT_CUT g ∧ t.group g = s.group g))) ∧
    (bitOf act n = true → exec (.tripActive ⟨n, edge, levels⟩) s = .next s) ∧
    (bitOf act n = true → takes false → ∃ t, exec (.tripRelease ⟨n, edge, levels⟩) s = .next t ∧ t.etu = s.etu ∧
      (∀ k, k < 16 → bitOf (t.live Reg.ETU_TRIPSTAT_ACTIVE) k = (decide (k ≠ n) && bitOf act k)) ∧
      t.live Reg.ETU_TRIPSTAT_LATCHED = lat ∧ (∀ g, t.live Reg.ETU_GSTAT_CUT g = s.live Reg.ETU_GSTAT_CUT g) ∧
      (latching → t = { s with regs := t.regs, inp := t.inp } ∧
        LiveSameBut s t [Reg.ETU_TRIPSTAT_ACTIVE.key 0 0])) ∧
    (ServesHost s 0x03000028 → ∃ t, exec (.tripClear p mask) s = .next t ∧ t.etu.groups = s.etu.groups ∧
      t.etu.chans = s.etu.chans ∧ t.live Reg.ETU_TRIPSTAT_ACTIVE = act ∧
      (∀ k, k < 16 → bitOf (t.live Reg.ETU_TRIPSTAT_LATCHED) k =
        (bitOf lat k && (!mask.getLsbD k || bitOf act k))) ∧
      t.live Reg.ETU_TRIPHIT_TRIP_CLR_REJ =
        if (List.range 16).any (fun k => mask.getLsbD k && bitOf lat k && bitOf act k) then 1
        else s.live Reg.ETU_TRIPHIT_TRIP_CLR_REJ)

/-! ### Drive slices -/

/-- The state machine of a slice between its edges: a grant starts the awaited phase, an exhausted budget refuses
it, T, PEAK and the exits lead to the next phase or turn the slice off, the chop switch follows I_TGT and
I_HYST no sooner than 1 µs after its last change, the off-timer completes an OFF, and MAXON, found by a compare once
every µs, turns off and locks (R265, R266, R268, R271, R272, R274 to R279, R286). The current is that of the shunt
voltages after offset and gain, in a pair the sum of both: as the comparators see it against I_TGT, and from the
converters against I_OFF. Each clause leaves every other slice, and every other but the mate of a pair its STATE, as
it is; at an expiry no replayed record comes first.
Where it goes beyond the rules it rests on log entries 5, 110, 111 and 112. -/
def Obligations.SlicePhasesAndTimers : Prop :=
  ∀ (s : State) (n : Nat) (own mate : Int), n < s.variant.slices → s.slLead n = n →
    let x := s.slice n
    let q := s.prof n
    let cur := s.regulated n own mate
    let conv := s.measured n own mate
    let j := s.live Reg.DSL_SSTAT_PHASE n
    let st := s.live Reg.DSL_SSTAT_STATE n
    let exit := s.conf Reg.DSL_PHA_EXIT q j
    let tgt : Int := s.conf Reg.DSL_PHA_I_TGT q j
    let decay := s.conf Reg.DSL_PHA_DECAY q j
    let ioff : Int := s.conf Reg.DSL_POFF_I_OFF q
    let last := s.conf Reg.DSL_PCFG_NPH_M1 q ≤ j
    let alone := bitOf (s.conf Reg.DSL_BCFG_HSUSE (n / 6)) (n % 6) = false
    let becomes := fun (c : Instr) (st' : Nat) (P : State → Prop) => ∃ t, exec c s = .next t ∧
      t = { s with regs := t.regs, dsl := t.dsl, boot := t.boot, time := { s.time with dt := t.time.dt } } ∧
      (∀ m, m ≠ n → t.slice m = s.slice m) ∧
      (∀ m, m ≠ n → (m ≠ n + 1 ∨ s.paired n = false) →
        t.live Reg.DSL_SSTAT_STATE m = s.live Reg.DSL_SSTAT_STATE m) ∧
      t.live Reg.DSL_SSTAT_STATE n = st' ∧ P t
    let bit := fun (t : State) (f : Fld) => t.live f n = 1
    let runs := fun (t : State) (k : Nat) => t.live Reg.DSL_SSTAT_PHASE n = k ∧ (t.slice n).request = none ∧
      (t.slice n).low = true ∧ (t.slice n).chop = true ∧ (t.slice n).other = true ∧ (t.slice n).offTimer = none ∧
      (t.slice n).chopHigh = decide (s.conf Reg.DSL_PHA_DECAY q k = 2) ∧
      ((t.slice n).recirc = true → x.recirc = true ∧ (t.slice n).chopHigh = false)
    let follows := fun (c : Instr) => (last → becomes c 4 (fun t => (t.slice n).low = false ∧ (t.slice n).chop = false)) ∧
      (¬ last → alone → j < 7 → becomes c 2 (fun t => runs t (j + 1)))
    (∀ rq, x.request = some rq → st = 1 ∨ st = 3 →
      let at_ := s.handOver n s.now
      (s.compatible n = true → s.blocked n rq = false → s.recordFirst at_ = false →
        becomes (.bankGrant n) 2 (fun t => runs t j ∧ (t.slice n).phaseAt = at_ ∧
          t.live Reg.DSL_SDEF_LAST n = min 65535 ((at_ - rq).toNat / 25600))) ∧
      let end_ := sMax s.now (rq + BitVec.ofNat 64 (s.conf Reg.DSL_PCFG_DEFER_MAX q * 25600))
      let refused := fun (t : State) => bit t Reg.DSL_SFLT_REFUSED ∧ (t.slice n).request = none ∧
        t.live Reg.DSL_SDEF_REFCNT n = (s.live Reg.DSL_SDEF_REFCNT n + 1) % 2 ^ 16 ∧
        t.live Reg.DSL_SDEF_LAST n = min 65535 ((end_ - rq).toNat / 25600) ∧ Raised s t 42 n (floorTo 64 end_)
      s.recordFirst end_ = false →
        (st = 1 → becomes (.deferExpiry n) 0 (fun t => refused t ∧ (t.slice n).onFrom = none ∧
          t.live Reg.DSL_SONT_T n = 0)) ∧
        (st = 3 → last → becomes (.deferExpiry n) 4 refused) ∧
        (st = 3 → ¬ last → alone → j < 7 → becomes (.deferExpiry n) 2 (fun t => refused t ∧ runs t (j + 1)))) ∧
    (let at_ := sMax s.now (x.phaseAt + BitVec.ofNat 64 (s.conf Reg.DSL_PHB_T q j * 256000))
     let opens := fun (t : State) (e : Stamp) => bit t Reg.DSL_SFLT_PEAK_MISS ∧ bit t Reg.DSL_SFLT_OPEN ∧
        (t.slice n).low = false ∧ (t.slice n).recirc = false ∧ Raised s t 44 n (floorTo 64 e)
     let overtaken := x.lapsed.map cycle = some (cycle s.now)
     (overtaken → conv < ioff → becomes (.phaseTimeExpiry n ⟨own, mate⟩) 6 (fun t => opens t s.now ∧
        bit t Reg.DSL_SFLT_IGNORED ∧ (t.slice n).kinks = [])) ∧
     (st = 2 → s.recordFirst at_ = false → ¬ overtaken ∨ ioff ≤ conv →
      (exit = 1 → conv < ioff → becomes (.phaseTimeExpiry n ⟨own, mate⟩) 6 (fun t => opens t at_)) ∧
      (exit = 0 ∨ exit = 2 ∨ (exit = 1 ∧ ioff ≤ conv) → follows (.phaseTimeExpiry n ⟨own, mate⟩)))) ∧
    (st = 2 → exit = 1 → s.level n tgt ≤ cur → follows (.peakReached n ⟨own, mate⟩)) ∧
    (let at_ := sMax s.now (x.chopAt + 25600)
     st = 2 → exit ≠ 1 → s.recordFirst at_ = false →
      (x.chop = true → s.level n tgt ≤ cur → becomes (.chopThreshold n ⟨own, mate⟩) 2 (fun t => t.slice n = { x with
        chop := false, chopAt := if sBefore at_ x.chopAt then x.chopAt - 25600 else at_
        low := decide (decay = 2), recirc := decide (decay = 0), chops := (t.slice n).chops })) ∧
      (x.chop = false → cur ≤ s.level n (tgt - s.conf Reg.DSL_PHB_I_HYST q j) →
        becomes (.chopThreshold n ⟨own, mate⟩) 2 (fun t => t.slice n = { x with
          chop := true, chopAt := at_, low := true, recirc := false, chops := (t.slice n).chops }))) ∧
    (st = 4 → conv < ioff → becomes (.currentBelowIoff n ⟨own, mate⟩) 5 (fun t =>
      t.slice n = { x with offTimer := some s.now })) ∧
    (st = 5 → ioff ≤ conv → becomes (.currentAboveIoff n ⟨own, mate⟩) 4 (fun t =>
      t.slice n = { x with offTimer := none })) ∧
    (∀ t0, st = 5 → x.offTimer = some t0 →
      s.recordFirst (t0 + BitVec.ofNat 64 (s.conf Reg.DSL_POFF_T_OFFMIN q * 25600)) = false →
      becomes (.offminExpiry n) 0 (fun t =>
        t.slice n = { x with offTimer := none, recirc := false, onFrom := none } ∧ t.live Reg.DSL_SONT_T n = 0)) ∧
    (∀ t0, st = 2 ∨ st = 3 → x.onFrom = some t0 →
      let due := sMax s.now (t0 + BitVec.ofNat 64 (s.conf Reg.DSL_SMAXON_MAXON n * 25600000))
      let due := match x.edgeAt with | some e => sMax due (e + 1) | none => due
      let at_ := t0 + BitVec.ofNat 64 (((due - t0).toNat + 25599) / 25600 * 25600)
      s.recordFirst at_ = false → becomes (.maxonReached n) 4 (fun t =>
        bit t Reg.DSL_SFLT_MAXON ∧ bit t Reg.DSL_SSTAT_LOCK ∧ (t.slice n).low = false ∧
        Raised s t 43 n (floorTo 64 at_)))

/-- Feedback of a slice: a confirmed dip and a kink in an open window each become one class 8 sample that
carries kind, sharing, delay to the nearest cycle and command edge, and disarm their detector; the windows of a slice
open and close at their stamps, each for its own OFF edge, and close with NOKINK where no kink came (R17, R280 to R285).
Where it goes beyond the rules it rests on log entries 5, 111 and 112. -/
def Obligations.SliceFeedbackBecomesSamples : Prop :=
  ∀ (s : State) (n : Nat) (samples : List ShuntSample) (train : List CoilSample),
    n < s.variant.slices → s.slLead n = n →
    let x := s.slice n
    let st := s.live Reg.DSL_SSTAT_STATE n
    let frame := fun (t : State) =>
      t = { s with regs := t.regs, dsl := t.dsl, time := { s.time with dt := t.time.dt } } ∧
      ∀ m, m ≠ n → t.slice m = s.slice m
    let reports := fun (c : Instr) (kind shared : Nat) (rep conf edge : Stamp) (f : Fld) (P : State → Prop) =>
      ∃ t body d, exec c s = .next t ∧
        t = { s with regs := t.regs, dsl := t.dsl, inp := t.inp, time := { s.time with dt := t.time.dt } } ∧
        t.now = conf ∧ t.inp = { s.inp with done := s.inp.done ++ [⟨inputId 8 n, rep, conf, 0, body⟩] } ∧
        NearestAway (sdiff edge rep) 64 d ∧
        leAt body 0 1 = kind ∧ leAt body 1 1 = shared ∧ (leAt body 4 4 : Int) = d % 2 ^ 32 ∧
        leAt body 8 8 = edge.toNat ∧ (t.live f n : Int) = d % 2 ^ 32 ∧
        (∀ m, m ≠ n → t.slice m = s.slice m) ∧ P t
    (x.dipArmed = true → st = 2 ∨ st = 3 →
      (s.dipResult n samples = none → exec (.dipConfirmed n samples) s = .next s) ∧
      (∀ at_ conf, s.dipResult n samples = some (at_, conf) → s.reaches conf = true → s.recordFirst conf = false →
        (st = 3 ∨ s.conf Reg.DSL_PHA_EXIT (s.prof n) (s.live Reg.DSL_SSTAT_PHASE n) ≠ 2) →
        reports (.dipConfirmed n samples) 2 0 (floorTo 64 at_) conf x.onEdge Reg.DSL_SDDLY_DLY
          (fun t => t.slice n = { x with dipArmed := false } ∧ LiveSameBut s t [Reg.DSL_SDDLY_DLY.key n 0])) ∧
      (∀ at_ conf, s.dipResult n samples = some (at_, conf) → s.reaches conf = true → s.recordFirst conf = false → st = 2 →
        s.conf Reg.DSL_PHA_EXIT (s.prof n) (s.live Reg.DSL_SSTAT_PHASE n) = 2 →
        s.conf Reg.DSL_PCFG_NPH_M1 (s.prof n) ≤ s.live Reg.DSL_SSTAT_PHASE n →
        reports (.dipConfirmed n samples) 2 0 (floorTo 64 at_) conf x.onEdge Reg.DSL_SDDLY_DLY
          (fun t => t.live Reg.DSL_SSTAT_STATE n = 4 ∧ (t.slice n).low = false))) ∧
    (x.kinks.find? (fun w => !w.opened) = none → exec (.kinkWindowOpen n) s = .next s) ∧
    (x.kinks.find? (fun w => w.opened) = none → exec (.kinkWindowClose n) s = .next s) ∧
    (∀ w, x.kinks.find? (fun w => !w.opened) = some w → s.recordFirst w.opens = false →
      ∃ t, exec (.kinkWindowOpen n) s = .next t ∧ frame t ∧ t.live Reg.DSL_SSTAT_KWIN n = 1 ∧
        t.slice n = { x with kinks := x.kinks.map (fun y => if y = w then { w with opened := true } else y) } ∧
        (n, w.opens, w.closes) ∈ Tab.get [] t.dsl.windows (n / 6) ∧ (s.reaches w.opens = true → t.now = w.opens)) ∧
    (∀ w, x.kinks.find? (fun w => w.opened) = some w → s.recordFirst w.closes = false →
      ∃ t, exec (.kinkWindowClose n) s = .next t ∧ frame t ∧ t.slice n = { x with kinks := x.kinks.erase w } ∧
        t.live Reg.DSL_SSTAT_KWIN n = (if ∃ y ∈ x.kinks.erase w, y.opened = true then 1 else 0) ∧
        t.live Reg.DSL_SFLT_NOKINK n = (if w.done then s.live Reg.DSL_SFLT_NOKINK n else 1) ∧
        (s.reaches w.closes = true → t.now = w.closes)) ∧
    let looks := x.kinks.filter (fun w => w.opened && !w.done)
    ((∀ w ∈ looks, s.kinkResult n w.opens w.closes train = none) → exec (.kinkDetected n train) s = .next s) ∧
    (∀ earlier w later at_ conf, looks = earlier ++ w :: later →
      (∀ y ∈ earlier, s.kinkResult n y.opens y.closes train = none) →
      s.kinkResult n w.opens w.closes train = some (at_, conf) → s.reaches conf = true → s.recordFirst conf = false →
      let shared := if 2 ≤ (openAt (Tab.get [] s.dsl.windows (n / 6)) conf).length then 1 else 0
      reports (.kinkDetected n train) 1 shared (floorTo 64 at_) conf w.edge Reg.DSL_SKDLY_DLY
        (fun t => t.slice n = { x with kinks := x.kinks.map (fun y => if y = w then { w with done := true } else y) } ∧
          t.live Reg.DSL_SSTAT_SHARED n = shared ∧
          LiveSameBut s t [Reg.DSL_SKDLY_DLY.key n 0, Reg.DSL_SSTAT_SHARED.key n 0]))

/-- Faults: a slice fault turns the slice, or its pair, off into FAULT with its bit and event 44; a bank fault or
a gate-drive under-voltage holds every slice of the bank with event 45; a slice clear returns it to IDLE, and a
bank clear is refused during an under-voltage and otherwise lets the held slices decay; before row 0 an under-voltage is
noted alone; a bank is ready at its stamp, and an edge that waits for it is issued then with the wake-slip event (R73,
R74, R265, R266, R286, R287). A fault acts where no replayed record comes first.
Where it goes beyond the rules it rests on log entries 5, 36 and 112. -/
def Obligations.SliceAndBankFaultsAndClears : Prop :=
  ∀ (s : State) (p : Port) (n b : Nat) (own drain rail supply source : Int),
    n < s.variant.slices → b < s.variant.banks →
    let lead := s.slLead n
    let st := fun (t : State) (m : Nat) => t.live Reg.DSL_SSTAT_STATE m
    let off := fun (t : State) (m : Nat) => (t.slice m).low = false ∧ (t.slice m).chop = false ∧
      (t.slice m).recirc = false ∧ (t.slice m).request = none
    let frame := fun (t : State) =>
      t = { s with regs := t.regs, dsl := t.dsl, boot := t.boot, time := { s.time with dt := t.time.dt } }
    let faults := fun (c : Instr) (f : Fld) => ∃ t, exec c s = .next t ∧ frame t ∧ st t lead = 6 ∧
      (lead ≠ n → st t n = 6) ∧ (s.paired lead = true → st t (lead + 1) = 6) ∧ off t lead ∧ t.live f n = 1 ∧
      Raised s t 44 n (floorTo 64 (s.faultAt (lead / 6))) ∧
      (∀ m, m ≠ lead → t.slice m = s.slice m) ∧
      (∀ m, m ≠ lead → (m ≠ lead + 1 ∨ s.paired lead = false) → st t m = st s m)
    let held := fun (t : State) (k : Nat) (f : Fld) => t.live f k = 1 ∧ k ∈ t.dsl.faulted ∧
      t.live Reg.DSL_BSTAT_HELD k = 1 ∧
      ∀ i, i < 6 → st t (6 * k + i) = 7 ∧ (s.slLead (6 * k + i) = 6 * k + i → off t (6 * k + i))
    let banked := fun (c : Instr) (k : Nat) (f : Fld) => ∃ t, exec c s = .next t ∧ frame t ∧ held t k f ∧
      (s.time.valid = true → Raised s t 45 k (floorTo 64 (s.faultAt k))) ∧
      ∀ m, m / 6 ≠ k → t.slice m = s.slice m ∧ st t m = st s m
    let limit := comparatorLevel (s.senseEnd n) (s.conf Reg.DSL_SOC_OC n)
    let first := fun (k : Nat) => s.recordFirst (s.faultAt k) = false
    let trim := fun (o : Nat) => (s.gauge o 2 : Int)
    let lo : Int := 500 * s.conf Reg.DSL_BLIM_DRN_LO (n / 6) * 2 ^ 15
    (st s lead ≠ 6 → st s lead ≠ 7 → limit ≤ s.currentAt n own → first (lead / 6) → faults (.overCurrent n own) Reg.DSL_SFLT_OC) ∧
    (s.currentAt n own < limit → exec (.overCurrent n own) s = .next s) ∧
    (st s lead ≠ 6 → st s lead ≠ 7 → (s.slice lead).lowOn s.now = true → first (lead / 6) →
      500 * s.conf Reg.DSL_BLIM_DRN_HI (n / 6) * 2 ^ 15 < drain * trim (288 + 2 * n) →
      faults (.drainShortSupply ⟨n, drain⟩) Reg.DSL_SFLT_DRN_BAT) ∧
    ((s.slice lead).lowOn s.now = false → first (n / 6) → st s lead ≠ 4 → st s lead ≠ 5 → drain * trim (288 + 2 * n) < lo →
      (lo < rail * trim (384 + 4 * (n / 6)) ∨ lo < supply * trim (386 + 4 * (n / 6))) →
      banked (.drainShortGround ⟨n, drain, rail, supply⟩) (n / 6) Reg.DSL_BFLT_DRN_GND) ∧
    (s.live Reg.DSL_BSTAT_BOOST_ON b ≠ 0 ∨ s.live Reg.DSL_BSTAT_PRI_ON b ≠ 0 →
      first b → rail * trim (384 + 4 * b) + 4000 * 2 ^ 15 < source * 2 ^ 15 →
      banked (.highSideFault ⟨b, source, rail⟩) b Reg.DSL_BFLT_HS_FAULT) ∧
    (s.dsl.gduv = false → (∀ e, s.recordFirst e = false) →
      (s.row.started = true → ∃ t, exec .gduvDetect s = .next t ∧ frame t ∧ t.dsl.gduv = true ∧
        ∀ k, k < s.variant.banks → held t k Reg.DSL_BFLT_GDUV) ∧
      (s.row.started = false → exec .gduvDetect s = .next { s with dsl := { s.dsl with gduv := true } })) ∧
    (s.dsl.gduv = true → exec .gduvDetect s = .next s) ∧
    exec .gduvClear s = .next { s with dsl := { s.dsl with gduv := false } } ∧
    (ServesHost s (0x03101014 + 0x40 * n) →
      let l := logged s p (0x03101014 + 0x40 * n) 1
      (st s n ≠ 6 → exec (.sliceClear p n) s = .next l) ∧
      (st s n = 6 → ∃ t, exec (.sliceClear p n) s = .next t ∧ t = { l with regs := t.regs, dsl := t.dsl } ∧
        st t n = 0 ∧ t.live Reg.DSL_SONT_T n = 0 ∧ t.slice n = { s.slice n with onFrom := none } ∧
        LiveSameBut l t [Reg.DSL_SSTAT_STATE.key n 0, Reg.DSL_SONT_T.key n 0] ∧
        ∀ m, m ≠ n → t.slice m = s.slice m)) ∧
    (ServesHost s (0x03100110 + 0x20 * b) →
      let l := logged s p (0x03100110 + 0x20 * b) 1
      (s.dsl.gduv = true → SetsLive (.bankClear p b) s l [(Reg.DSL_BFLT_CLR_REJ, b, 0, 1)]) ∧
      (s.dsl.gduv = false → Tab.get [] s.dsl.trips b = [] → ∃ t, exec (.bankClear p b) s = .next t ∧
        t = { l with regs := t.regs, dsl := t.dsl } ∧ b ∉ t.dsl.faulted ∧ t.live Reg.DSL_BSTAT_HELD b = 0 ∧
        t.dsl.slices = s.dsl.slices ∧ ∀ i, i < 6 → s.slLead (6 * b + i) = 6 * b + i →
          st t (6 * b + i) = if st s (6 * b + i) = 7 then 4 else st s (6 * b + i))) ∧
    (let at_ := Tab.get 0 s.power.bankOpenAt b
     s.power.phase = .rows → at_ ≠ 0 → s.recordFirst at_ = false →
      ∃ t, t = { s with
          regs := t.regs, dsl := t.dsl, time := { s.time with dt := t.time.dt }
          power := { s.power with bankOpenAt := t.power.bankOpenAt } } ∧
        t.dsl = { s.dsl with waiting := s.dsl.waiting.filter (fun w => w.slice / 6 != b) } ∧
        (s.reaches at_ = true → t.now = at_) ∧ Tab.get 0 t.power.bankOpenAt b = 0 ∧
        (∀ k, k ≠ b → Tab.get 0 t.power.bankOpenAt k = Tab.get 0 s.power.bankOpenAt k) ∧
        LiveSameBut s t [Reg.SYS_PWRSTAT_BANK_READY.key 0 0] ∧
        (∀ k, k < 8 → bitOf (t.live Reg.SYS_PWRSTAT_BANK_READY) k =
          (decide (k = b) || bitOf (s.live Reg.SYS_PWRSTAT_BANK_READY) k)) ∧
        ((∀ w ∈ s.dsl.waiting, w.slice / 6 ≠ b) → exec (.bankReady b) s = .next t) ∧
        (∀ w, s.dsl.waiting.filter (fun w => w.slice / 6 == b) = [w] → exec (.bankReady b) s =
          .next ((t.raise 4 (w.slice * 2 ^ 16 + min 65535 ((sdiff w.issue at_).toNat / 64)) (floorTo 64 at_)).sliceEdge
            w.slice w.on w.issue at_)))

/-! ### Control loops -/

/-- A sample of an enabled ungrouped unit with register sources and no pending write lies on the unit's grid and
computes the law of its mode with one rounding per term: AUTO with anti-windup and the following-error count,
MANUAL from MAN, OFF and FAULT at FAILOUT; in a group of two the lower of their own outputs is both members' output, in
AUTO and in MANUAL, and a member in AUTO that loses tracks it with its integrator; no replayed record comes first (R289,
R290, R296 to R301, R303 to R305, R307). Another unit is left as it is where no group step is overdue.
Where it goes beyond the rules it rests on log entries 5, 113 and 114. -/
def Obligations.LoopSamplesComputeTheLaw : Prop :=
  ∀ (s : State) (n k : Nat), n < 64 → s.power.phase = .rows → (∀ t, s.recordFirst t = false) →
    let m := s.skn.act
    let i := fun (f : Fld) => m.int f n
    let x := s.loop n
    let lim := s.conf Reg.CLE_FELIM_LIM n
    m.fld Reg.CLE_LCFG_EN n = 1 → x.cfgOld = none → x.writes = [] → m.fld Reg.CLE_MSRC_TYPE n = 0 →
    m.fld Reg.CLE_SSRC_TYPE n = 0 →
    let limit := fun (w : Int) => min (i Reg.CLE_OMAX_LIM) (max (i Reg.CLE_OMIN_LIM) w)
    let term := fun (c v sh y : Int) => ∃ r, NearestShift (c * v) (sh - 16) r ∧ Clamped 32 r y
    let samples := fun (P : State → Loop → Stamp → Prop) => ∃ t at_, exec (.loopSample n) s = .next t ∧
      t = { s with loops := t.loops, draws := t.draws, regs := t.regs, boot := t.boot
                   time := { s.time with dt := t.time.dt } } ∧
      (t.loop n).at_ = some at_ ∧ (t.loop n).due = true ∧ P t (t.loop n) at_
    let base := if sAtOrBefore s.row.cur s.now = true ∧ sAtOrBefore s.now s.fStamp = true then s.row.cur else s.now
    let settled := ∀ j a, j < 64 → (s.loop j).open_ = true → (s.loop j).at_ = some a →
      ∃ g ∈ s.loopGroup j a, s.loopOpen g a = false
    let alone := fun (P : State → Loop → Stamp → Prop) => samples (fun t y at_ => P t y at_ ∧
      (settled → ∀ j, j ≠ n → t.loop j = s.loop j) ∧
      (let per := m.fld Reg.CLE_LTIME_SPER n * 256000;
        let ph := m.fld Reg.CLE_LTIME_SPH n * 256000;
        ph < per → per < 2 ^ 36 → base.toNat < 2 ^ 62 → (∀ a, x.at_ = some a → a.toNat < 2 ^ 62) →
          at_.toNat % per = ph ∧ base.toNat ≤ at_.toNat ∧ ∀ a, x.at_ = some a → a.toNat < at_.toNat))
    (m.fld Reg.CLE_LCFG_GEN n = 0 →
      (x.mode = 0 ∨ x.mode = 3 → alone (fun _ y _ => y.mode = x.mode ∧ y.u = i Reg.CLE_FAILOUT_OUT ∧
        y.integ = x.integ)) ∧
      (x.mode = 2 → alone (fun _ y _ => y.mode = 2 ∧ y.integ = x.integ ∧ y.man = x.man ∧
        ∃ w, Clamped 32 (x.man + y.comp) w ∧ y.u = limit w)) ∧
      (x.mode = 1 → alone (fun t y at_ => ∃ mea sp e p ff d di z cand ul' w' ul w,
        (∃ r, NearestShift (sext 32 (s.live Reg.CLE_MREG_M n) * i Reg.CLE_MSCL_MGAIN) (i Reg.CLE_MSCL_MSH - 16) r ∧
          Clamped 32 (r + i Reg.CLE_MOFF_MOFF) mea) ∧
        (∃ r, NearestShift (sext 32 (s.live Reg.CLE_SP_SP n) * i Reg.CLE_SSCL_SGAIN) (i Reg.CLE_SSCL_SSH - 16) r ∧
          Clamped 32 r sp) ∧
        Clamped 32 (sp - mea) e ∧ term (m.loopGain n (min (2 ^ 31 - 1) e.natAbs)) e (i Reg.CLE_SH_SH_P) p ∧
        term (i Reg.CLE_KF_K) sp (i Reg.CLE_SH_SH_F) ff ∧
        (m.fld Reg.CLE_LCFG_DEN n ≠ 1 → d = 0) ∧
        (m.fld Reg.CLE_LCFG_DEN n = 1 → ∃ r g, term (i Reg.CLE_KD_K) (mea - x.yPrev) (i Reg.CLE_SH_SH_D) r ∧
          NearestShift (-r - x.df) (-(m.fld Reg.CLE_LCFG_DFILT n : Int)) g ∧ d = x.df + g ∧ y.df = d) ∧
        term (i Reg.CLE_KI_K) e (i Reg.CLE_SH_SH_I) di ∧ Clamped 32 (x.integ + di) z ∧
        cand = min (i Reg.CLE_IMAX_LIM) (max (i Reg.CLE_IMIN_LIM) z) ∧
        Clamped 32 (p + cand + d + ff) ul' ∧ Clamped 32 (ul' + y.comp) w' ∧
        y.integ = (if (i Reg.CLE_OMAX_LIM < w' ∧ 0 < di) ∨ (w' < i Reg.CLE_OMIN_LIM ∧ di < 0) then x.integ
          else cand) ∧
        Clamped 32 (p + y.integ + d + ff) ul ∧ Clamped 32 (ul + y.comp) w ∧ y.err = e ∧ y.yPrev = mea ∧
        y.man = (if n < 8 then ul else x.man) ∧
        y.fe = (if lim = 0 then 0 else if lim < min (2 ^ 31 - 1) e.natAbs then x.fe + 1 else 0) ∧
        (m.fld Reg.CLE_POS_COG_EN n ≠ 1 → m.fld Reg.CLE_POS_FRIC_EN n ≠ 1 → y.comp = 0) ∧
        (¬ (lim ≠ 0 ∧ m.fld Reg.CLE_FETIME_N n ≤ y.fe) → y.mode = 1 ∧ y.u = limit w) ∧
        (lim ≠ 0 → m.fld Reg.CLE_FETIME_N n ≤ y.fe → y.mode = 3 ∧ y.u = i Reg.CLE_FAILOUT_OUT ∧
          (settled → Raised s t 46 n (floorTo 64 at_)))))) ∧
    (∀ a, k < n → s.loopGroup n a = [k, n] → m.fld Reg.CLE_LCFG_GEN n = 1 → x.mode = 1 ∨ x.mode = 2 →
      (s.loop k).mode = 1 ∨ (s.loop k).mode = 2 → (s.loop k).open_ = true → (s.loop k).at_ = some a → x.at_ = none →
      (∀ j, j ≠ k → (s.loop j).open_ = false) → lim = 0 → (s.loopImg k).fld Reg.CLE_FELIM_LIM k = 0 →
      samples (fun t y at_ =>
        let z := t.loop k
        let tracks := fun (m : Image) (j : Nat) (l : Loop) =>
          ∃ v, Clamped 32 (l.u - l.comp - l.p - l.d - l.ff) v ∧
            l.integ = min (m.int Reg.CLE_IMAX_LIM j) (max (m.int Reg.CLE_IMIN_LIM j) v) ∧
            Clamped 32 (l.p + l.integ + l.d + l.ff) l.uLaw ∧ (j < 8 → l.man = l.uLaw)
        at_ = a ∧ z.u = y.u ∧ y.mode = x.mode ∧ z.mode = (s.loop k).mode ∧
        (x.mode = 2 → ∃ w, Clamped 32 (x.man + y.comp) w ∧ y.u = min (s.loop k).u (limit w) ∧
          (y.loser = true ↔ (s.loop k).u ≤ limit w)) ∧
        ((y.loser = true ∧ z.loser = false ∧ y.u = (s.loop k).u) ∨
          (y.loser = false ∧ z.loser = true ∧ y.u < (s.loop k).u)) ∧
        (y.loser = true → x.mode = 1 → tracks m n y) ∧
        (z.loser = true → z.mode = 1 → z.stale = false → tracks (s.loopImg k) k z) ∧
        (z.loser = true → z.mode = 2 → z.integ = (s.loop k).integ)))

/-- Mode writes and clears wait for the first sample whose cycle comes after their landing; there they act by the
table of modes, or are rejected with MODE_REJ; 4 µs after a sample the registers show what it left (R290, R291,
R301, R308).
Where it goes beyond the rules it rests on log entries 5 and 115. -/
def Obligations.LoopWritesActAtTheNextSample : Prop :=
  ∀ (s : State) (p : Port) (n v : Nat), n < 64 →
    let x := s.loop n
    let waits := fun (c : Instr) (o : Nat) (v : W32) => let a := 0x03201000 + o + 0x80 * n
      ServesHost s a → ∃ t, exec c s = .next t ∧
        t = { logged s p a v.toNat with loops := t.loops } ∧ (∀ j, j ≠ n → t.loop j = s.loop j) ∧
        t.loop n = { x with writes := x.writes ++ [(o, v, s.now)] }
    waits (.loopModeOff p n) 0x50 0 ∧ waits (.loopModeAuto p n) 0x50 1 ∧ waits (.loopModeManual p n) 0x50 2 ∧
    waits (.loopClear p n) 0x74 1 ∧
    (∀ land o, s.power.phase = .rows → (∀ t, s.recordFirst t = false) →
      s.conf Reg.CLE_LCFG_EN n = 1 → s.conf Reg.CLE_LCFG_GEN n = 0 →
      x.cfgOld = none → x.writes = [(o, BitVec.ofNat 32 v, land)] → v < 4 → x.mode < 4 →
      s.conf Reg.CLE_MSRC_TYPE n = 0 → s.conf Reg.CLE_SSRC_TYPE n = 0 → s.conf Reg.CLE_FELIM_LIM n = 0 →
      ∃ t at_, exec (.loopSample n) s = .next t ∧ (t.loop n).at_ = some at_ ∧
        (cycle at_ ≤ cycle land → (t.loop n).mode = x.mode ∧ (t.loop n).writes = x.writes) ∧
        (cycle land < cycle at_ → (t.loop n).writes = [] ∧
          (o = 0x50 → x.mode = 3 ∨ v = 3 ∨ (v = 2 ∧ 8 ≤ n) →
            (t.loop n).mode = x.mode ∧ bitOf (t.loop n).flags 6 = true) ∧
          (o = 0x50 → x.mode ≠ 3 → v = 0 ∨ v = 1 ∨ (v = 2 ∧ n < 8) → (t.loop n).mode = v) ∧
          (o = 0x50 → x.mode ≠ 3 → v = 0 →
            (t.loop n).u = s.skn.act.int Reg.CLE_FAILOUT_OUT n) ∧
          (o = 0x74 → v = 1 → (t.loop n).mode = if x.mode = 3 then 0 else x.mode))) ∧
    (∀ a, x.at_ = some a → x.due = true → s.power.phase = .rows → x.mode < 4 → x.fe < 2 ^ 16 →
      s.recordFirst (a + 102400) = false →
      ∃ t, exec (.loopOutput n) s = .next t ∧
        t = { s with regs := t.regs, loops := t.loops, time := { s.time with dt := t.time.dt } } ∧
        (s.reaches (a + 102400) = true → t.now = a + 102400) ∧ (∀ j, j ≠ n → t.loop j = s.loop j) ∧
        t.loop n = { x with
          due := false, flags := 0, outAt := some (a + 102400)
          outOld := if x.outAt.map cycle = some (cycle (a + 102400)) then x.outOld
            else sext 32 (s.live Reg.CLE_OUT_U n) } ∧
        t.live Reg.CLE_OUT_U n = (x.u % 2 ^ 32).toNat ∧ t.live Reg.CLE_ERR_E n = (x.err % 2 ^ 32).toNat ∧
        t.live Reg.CLE_INT_I n = (x.integ % 2 ^ 32).toNat ∧ t.live Reg.CLE_MAN_MAN n = (x.man % 2 ^ 32).toNat ∧
        t.live Reg.CLE_MODE_MODE n = x.mode ∧ t.live Reg.CLE_LSTAT_FECNT n = x.fe ∧
        t.live Reg.CLE_LSTAT_LOSER n = x.loser.toNat ∧
        (∀ q ∈ [(Reg.CLE_LFLG_SAT, 0), (Reg.CLE_LFLG_OLIM, 1), (Reg.CLE_LFLG_ILIM, 2), (Reg.CLE_LFLG_STALE, 3),
            (Reg.CLE_LFLG_FE, 4), (Reg.CLE_LFLG_XCLAMP, 5), (Reg.CLE_LFLG_MODE_REJ, 6)],
          t.live q.1 n = if bitOf x.flags q.2 then 1 else s.live q.1 n) ∧
        LiveSameBut s t ([Reg.CLE_OUT_U, Reg.CLE_ERR_E, Reg.CLE_INT_I, Reg.CLE_MAN_MAN, Reg.CLE_MODE_MODE,
          Reg.CLE_LSTAT_FECNT, Reg.CLE_LSTAT_LOSER, Reg.CLE_LFLG_SAT, Reg.CLE_LFLG_OLIM, Reg.CLE_LFLG_ILIM,
          Reg.CLE_LFLG_STALE, Reg.CLE_LFLG_FE, Reg.CLE_LFLG_XCLAMP, Reg.CLE_LFLG_MODE_REJ].map
            (fun f => f.key n 0)))

/-! ### GNSS baseband -/

/-- Channel writes wait for the next measurement instant, where they are applied; an acquisition finds what it
searches; a unit of the channel's signal is checked and waits for the next epoch; every tracking channel in MEAS or
BOTH mode gives one block of the epoch record; the record is admitted 200 µs later and its check flags raise the
event; 500 ms before a pulse its stamp is fixed and its time-mark written, once the fixed pulses that leave before
then have left; the pulse leaves there and lasts WIDTH (R313 to R319, R321, R328 to R330).
Where it goes beyond the rules it rests on log entries 5, 116, 117 and 118. -/
def Obligations.GnbChannelsEpochsAndPulses : Prop :=
  ∀ (s : State) (p : Port) (k : Nat) (v : W32) (st : TcState) (dopp : Int) (u : NavUnit)
    (meas : List ChanMeas) (o : Nat),
    s.variant.gnb = true → s.power.phase = .rows → s.conf Reg.GNB_CFG_EN = 1 → s.rpl.on = false →
    s.conf Reg.DXC_RING_CFG_EN 0 = 0 → s.conf Reg.DXC_RING_CFG_EN 1 = 0 →
    let base := if sAtOrBefore s.row.cur s.now = true ∧ sAtOrBefore s.now s.fStamp = true then s.row.cur else s.now
    (k < 256 → ServesHost s (0x04001000 + 0x10 * k) → ∃ t, exec (.tccfgWrite p k v) s = .next t ∧
      t = { s with regs := t.regs, gnb := { s.gnb with chans := t.gnb.chans } } ∧
      (∀ j, j ≠ k → t.track j = s.track j) ∧
      t.track k = { s.track k with writes := (s.track k).writes ++ [(0, v, s.now)] } ∧
      LiveSameBut s t ([Reg.GNB_TCCFG_EN, Reg.GNB_TCCFG_MODE, Reg.GNB_TCCFG_ANT, Reg.GNB_TCCFG_SIG,
        Reg.GNB_TCCFG_SV, Reg.GNB_TCCFG_GSLOT].map (fun f => f.key k 0)) ∧
      t.live Reg.GNB_TCCFG_EN k = v.toNat / 2 ^ 31 ∧ t.live Reg.GNB_TCCFG_MODE k = v.toNat / 2 ^ 28 % 4 ∧
      t.live Reg.GNB_TCCFG_ANT k = v.toNat / 2 ^ 24 % 8 ∧ t.live Reg.GNB_TCCFG_SIG k = v.toNat / 2 ^ 16 % 256 ∧
      t.live Reg.GNB_TCCFG_SV k = v.toNat / 2 ^ 8 % 256 ∧ t.live Reg.GNB_TCCFG_GSLOT k = v.toNat % 16) ∧
    (k < s.variant.tracks → s.live Reg.GNB_TCSTAT_STATE k ≠ 0 → st ≠ .idle →
      let aid := (s.track k).aid.toNat
      let win : Nat := if aid % 2 ^ 16 = 0 then 6000 else aid % 2 ^ 16
      let found := s.live Reg.GNB_TCSTAT_STATE k = 1 → st ≠ .acq → (dopp - sext 16 (aid / 2 ^ 16)).natAbs ≤ win
      (¬ found → exec (.channelLockChange k ⟨st, dopp⟩) s = .next s) ∧
      (found → SetsLive (.channelLockChange k ⟨st, dopp⟩) s s [(Reg.GNB_TCSTAT_STATE, k, 0,
        match st with | .idle => 0 | .acq => 1 | .pullIn => 2 | .track => 3 | .reacq => 4)])) ∧
    (u.tc < s.variant.tracks → s.live Reg.GNB_TCSTAT_STATE u.tc = 3 →
      (tcCfg (s.track u.tc).cfg).mode ∈ [1, 2] →
      let x := s.track u.tc
      let sig := (tcCfg x.cfg).sig
      (checkedUnit u sig x.star = none → exec (.navUnitComplete u) s = .next s) ∧
      (∀ w, checkedUnit u sig x.star = some w → ∃ t, exec (.navUnitComplete u) s = .next t ∧
        t = { s with gnb := { s.gnb with units := s.gnb.units ++ [w], chans := t.gnb.chans } } ∧
        (∀ j, j ≠ u.tc → t.track j = s.track j) ∧ t.track u.tc = { x with star := (t.track u.tc).star } ∧
        w = { u with sig := BitVec.ofNat 8 sig, result := w.result, data := w.data } ∧
        w.result.toNat ∈ [1, 2, 3])) ∧
    (∃ t at_ r, exec (.measurementInstant meas) s = .next t ∧
      t = { s with regs := t.regs, draws := t.draws, time := { s.time with dt := t.time.dt }
                   gnb := { s.gnb with chans := t.gnb.chans, units := [], jumped := false
                                       count := s.gnb.count + 1, instant := some at_, epoch := some (at_, r) } } ∧
      (let per := s.conf Reg.GNB_CFG_MPER * 25600000;
        0 < per → base.toNat + 2 ^ 40 < 2 ^ 64 → per < 2 ^ 36 →
          at_.toNat % per = 0 ∧ base.toNat ≤ at_.toNat ∧ s.gnb.instant ≠ some at_) ∧
      (s.reaches at_ = true → t.now = at_) ∧
      leAt r 0 8 = at_.toNat ∧ leAt r 8 4 = (s.gnb.count + 1).toNat ∧ leAt r 16 4 = r.length ∧ r.length ≤ 0x8000 ∧
      ((∀ j, j < s.variant.tracks → (s.track j).writes = []) →
        let l := (List.range s.variant.tracks).filter (fun j => s.live Reg.GNB_TCSTAT_STATE j == 3 &&
          ((tcCfg (s.track j).cfg).mode == 0 || (tcCfg (s.track j).cfg).mode == 2))
        leAt r 12 2 = l.length ∧
        (∀ (i j : Nat) (m : ChanMeas), l[i]? = some j → meas.find? (fun m => m.tc == j) = some m →
          let at' := fun (o w : Nat) => leAt r (64 + 32 * i + o) w
          at' 0 1 = j ∧ at' 1 1 = (tcCfg (s.track j).cfg).sig ∧ at' 4 4 = m.codePh.toNat ∧
          at' 8 4 = m.codeCnt.toNat ∧ at' 12 8 = m.carrPh.toNat ∧ at' 20 4 = m.dopp.toNat ∧
          at' 24 2 = m.cn0.toNat ∧ at' 26 2 = m.lock.toNat ∧ at' 28 1 = m.trk.toNat % 64) ∧
        (s.conf Reg.GNB_CHK1_EN = 0 → s.conf Reg.GNB_CHK2_EN = 0 → s.conf Reg.GNB_CHK3_EN = 0 →
          s.conf Reg.GNB_CHK4_EN = 0 → leAt r 21 1 = if s.gnb.jumped then 16 else 0)) ∧
      (∀ land, k < 64 → k < s.variant.tracks → (s.track k).writes = [(0, v, land)] → cycle land < cycle at_ →
        (t.track k).writes = [] ∧ (t.track k).cfg = v ∧
        (v.toNat < 2 ^ 31 → t.live Reg.GNB_TCSTAT_STATE k = 0) ∧
        (2 ^ 31 ≤ v.toNat → v.toNat / 2 ^ 16 % 256 = 0 →
          t.live Reg.GNB_TCSTAT_STATE k = 0 ∧ t.live Reg.GNB_TCSTAT_REJ k = 1) ∧
        (v = 0x80010100 → s.conf Reg.GNB_PCFG_EN 0 = 1 → s.conf Reg.GNB_PCFG_L0EN 0 = 1 →
          s.conf Reg.GNB_LO0_LO 0 = 1575420000 → s.live Reg.GNB_TCSTAT_STATE k = 0 →
          t.live Reg.GNB_TCSTAT_STATE k = 1))) ∧
    (∀ at_ r, s.gnb.epoch = some (at_, r) → ∃ t, exec .epochAdmission s = .next t ∧
      t = { s with regs := t.regs, boot := t.boot, time := { s.time with dt := t.time.dt }
                   gnb := { s.gnb with epoch := none, record := r }, inp := { s.inp with
                     pend := s.inp.pend ++ [⟨inputId 7 0, at_, at_ + 5120000, t.rowOf (at_ + 5120000), r⟩] } } ∧
      (s.reaches (at_ + 5120000) = true → t.now = at_ + 5120000) ∧
      (leAt r 21 1 = 0 → t.regs = s.regs) ∧
      (leAt r 21 1 ≠ 0 → t.live Reg.GNB_EVT_CHECK = 1 ∧ Raised s t 47 (leAt r 21 1) (floorTo 64 t.now) ∧
        LiveSameBut s t (Reg.GNB_EVT_CHECK.key 0 0 :: eventKeys 47))) ∧
    (o < 2 → s.conf Reg.GNB_PPSCFG_EN o = 1 →
      Tab.get none s.gnb.lastPulse o = none → s.now.toNat + 2 ^ 40 < 2 ^ 64 → s.time.valid = true →
      let fixed := Tab.get [] s.gnb.pulse o
      let marked := fun (P : State → Stamp → Prop) => ∃ x, 0 ≤ sdiff (s.now + 12800000000) x ∧
        sdiff (s.now + 12800000000) x ≤ 25600000000 ∧
        ((∃ y ∈ fixed, 0 ≤ sdiff y (x - 12800000000)) → exec (.timeMark o) s = .next s) ∧
        ((∀ y ∈ fixed, sdiff y (x - 12800000000) < 0) → ∃ t, exec (.timeMark o) s = .next t ∧
        t = { s with regs := t.regs, boot := t.boot, time := { s.time with dt := t.time.dt }
                     gnb := { s.gnb with pulse := t.gnb.pulse, lastPulse := t.gnb.lastPulse, marks := t.gnb.marks
                                         stepMark := t.gnb.stepMark } } ∧
        Tab.get [] t.gnb.pulse o = fixed ++ [x] ∧ Tab.get none t.gnb.lastPulse o = some x ∧
        Tab.get [] t.gnb.pulse (1 - o) = Tab.get [] s.gnb.pulse (1 - o) ∧ t.now = x - 12800000000 ∧
        (∀ j, (j < 8 * o ∨ 8 * o + 8 ≤ j) → Tab.get 0 t.gnb.marks j = Tab.get 0 s.gnb.marks j) ∧
        let w := fun (j : Nat) => Tab.get 0 t.gnb.marks (8 * o + j)
        w 0 = x.setWidth 32 ∧ w 1 = (x >>> 32).setWidth 32 ∧ w 6 = Tab.get 0 s.gnb.marks (8 * o + 6) + 1 ∧
        w 7 = 0 ∧ Raised s t (52 + o) ((Tab.get 0 s.gnb.marks (8 * o + 6)).toNat + 1)
          (floorTo 64 (x - 12800000000)) ∧
        LiveSameBut s t (eventKeys (52 + o)) ∧ P t x)
      (s.live Reg.GNB_DSTAT_PHASE ≤ 1 → s.conf Reg.GNB_PPSCFG_FREEPPS o ≠ 1 → exec (.timeMark o) s = .next s) ∧
      (s.live Reg.GNB_DSTAT_PHASE ≤ 1 → s.conf Reg.GNB_PPSCFG_FREEPPS o = 1 →
        marked (fun _ x => x.toNat % 25600000000 = 0)) ∧
      (3 ≤ s.live Reg.GNB_DSTAT_PHASE → s.live Reg.GNB_DSTAT_EXPIRED ≠ 0 → s.conf Reg.GNB_PPSCFG_HOSUP o = 1 →
        exec (.timeMark o) s = .next s) ∧
      (s.live Reg.GNB_DSTAT_PHASE = 2 → s.gnb.step = none → 0 ≤ sdiff s.anchor s.now →
        sdiff s.anchor s.now < 2 ^ 62 → 2 ^ 40 ≤ s.gpsAnchor → s.gpsAnchor < 2 ^ 62 →
        marked (fun t x => ∃ (n : Nat) (d q r : Int),
          let w := fun (j : Nat) => Tab.get 0 t.gnb.marks (8 * o + j)
          d = 10 * sdiff s.anchor x -
            (((n : Int) * 1000000000 - s.gpsAnchor) * 256 - sext 32 (s.conf Reg.GNB_PPSOFS_OFS o)) ∧
          -5 < d ∧ d ≤ 5 ∧ NearestAway (-(d * 125)) 32 q ∧ NearestAway s.gnb.sig0.toNat 10 r ∧
          w 2 = BitVec.ofNat 32 (n * 1000000000) ∧ w 3 = BitVec.ofNat 32 (n * 1000000000 / 2 ^ 32) ∧
          w 4 = BitVec.ofNat 32 ((q % 2 ^ 16).toNat + 2 ^ 16 * (1 + 4 * s.live Reg.GNB_DSTAT_EXPIRED +
            16 * (Tab.get false s.gnb.stepMark o).toNat + (if s.gnb.slew = 0 then 0 else 32))) ∧
          w 5 = BitVec.ofInt 32 r))) ∧
    (o < 2 → ∀ x rest,
      (Tab.get [] s.gnb.pulse o = x :: rest → ∃ t, exec (.ppsPulse o) s = .next t ∧
        t = { s with time := { s.time with dt := t.time.dt }
                     gnb := { s.gnb with pulse := t.gnb.pulse, up := t.gnb.up } } ∧
        (s.reaches x = true → t.now = x) ∧ Tab.get [] t.gnb.pulse o = rest ∧ Tab.get none t.gnb.up o = some x ∧
        ∀ j, j ≠ o → Tab.get [] t.gnb.pulse j = Tab.get [] s.gnb.pulse j ∧
          Tab.get none t.gnb.up j = Tab.get none s.gnb.up j) ∧
      (Tab.get none s.gnb.up o = some x → ∃ t, exec (.ppsPulseEnd o) s = .next t ∧
        t = { s with time := { s.time with dt := t.time.dt }, gnb := { s.gnb with up := t.gnb.up } } ∧
        (let e := x + BitVec.ofNat 64 (s.conf Reg.GNB_PPSCFG_WIDTH o * 25600);
          s.reaches e = true → t.now = e) ∧ Tab.get none t.gnb.up o = none ∧
        ∀ j, j ≠ o → Tab.get none t.gnb.up j = Tab.get none s.gnb.up j))

/-- The discipline of device time: APPLY queues the staged solution; at its boundary it is refused by its
instant, steers, steps, counts as a jump or leads back by the table of states; HOLD, ACCEPT, the loss of solutions,
the holdover limit and a step at its stamp change the state as the table says (R323 to R326). No replayed record comes
first; a MAC that becomes a grandmaster has no Sync due from before (R383).
Where it goes beyond the rules it rests on log entry 118. -/
def Obligations.GnbDisciplinesDeviceTime : Prop :=
  ∀ (s : State) (p : Port) (q : Solution) (b : Stamp),
    s.variant.gnb = true → s.power.phase = .rows → s.conf Reg.GNB_CFG_EN = 1 → s.conf Reg.SYS_DISC_STAT_SRC = 0 →
    (∀ t, s.recordFirst t = false) →
    let a := 0x040000DC
    let phase := s.live Reg.GNB_DSTAT_PHASE
    let cnt := s.live Reg.GNB_DSTAT_COUNT
    let n := s.conf Reg.GNB_DISC_LOCK_N
    let ctl := fun (v : Nat) => logged s p a v
    let stands := fun (t : State) (ph : Nat) => t.live Reg.GNB_DSTAT_PHASE = ph ∧
      t.live Reg.SYS_DISC_STAT_STATE = (if ph ≤ 1 then 0 else if ph = 2 then 1 else 2)
    let syncs := fun (l t : State) => (s.live Reg.SYS_DISC_STAT_STATE ∈ [1, 2] → t.eths = l.eths) ∧
      ∀ e, t.eth e = { l.eth e with syncFrom := (t.eth e).syncFrom }
    let frame := fun (l t : State) => syncs l t ∧ t = { l with
      regs := t.regs, boot := t.boot, eths := t.eths
      time := { l.time with dt := t.time.dt, trimNext := t.time.trimNext }
      gnb := { l.gnb with jumps := t.gnb.jumps, jumped := t.gnb.jumped, lastEps := t.gnb.lastEps, slew := t.gnb.slew
                          sig0 := t.gnb.sig0, holdAt := t.gnb.holdAt, lastSol := t.gnb.lastSol, step := t.gnb.step
                          stepMark := t.gnb.stepMark } }
    let holds := fun (l t : State) (cause : Nat) (x at_ : Stamp) => frame l t ∧ stands t 3 ∧ t.gnb.slew = 0 ∧
      t.gnb.holdAt = x ∧ t.live Reg.GNB_DSTAT_CAUSE = cause ∧ t.live Reg.GNB_EVT_HOLD = 1 ∧
      t.live Reg.GNB_FREQ_FREQ = l.live Reg.GNB_FREQ_FREQ ∧
      Clamped 24 (sext 24 (l.live Reg.GNB_FREQ_FREQ)) (sext 24 (t.live Reg.SYS_TCLK_TRIM_TRIM)) ∧
      Raised l t 49 cause (floorTo 64 at_)
    (ServesHost s a → exec (.solutionApply p) s = .next { ctl 1 with gnb := { s.gnb with
      hostSol := s.gnb.hostSol ++ [(p,
        let g := fun (f : Fld) => s.staged (.host p) f
        { t := BitVec.ofNat 64 (g Reg.GNB_SOL_T_LO_T + 2 ^ 32 * g Reg.GNB_SOL_T_HI_T)
          gps := BitVec.ofNat 64 (g Reg.GNB_SOL_GPS_LO_GPS + 2 ^ 32 * g Reg.GNB_SOL_GPS_HI_GPS)
          frac := BitVec.ofNat 16 (g Reg.GNB_SOL_FRAC_FRAC), drift := sext 32 (g Reg.GNB_SOL_DRIFT_DRIFT)
          sig := BitVec.ofNat 32 (g Reg.GNB_SOL_SIG_SIG) })] } }) ∧
    (ServesHost s a →
      (phase ≠ 2 → exec (.hold p) s = .next (ctl 4)) ∧
      (phase = 2 → ∃ t, exec (.hold p) s = .next t ∧ holds (ctl 4) t 3 s.now s.now) ∧
      (phase ∈ [3, 4] → SetsLive (.accept p) s (ctl 8) [(Reg.GNB_DSTAT_ACCEPTED, 0, 0, 1)]) ∧
      (phase ∉ [3, 4] → exec (.accept p) s = .next (ctl 8))) ∧
    (let x := s.gnb.lastSol + BitVec.ofNat 64 (s.conf Reg.GNB_DISC2_LOSS * 25600000);
      s.reaches x = true →
      (phase ∈ [0, 3] → exec .solutionLoss s = .next s) ∧
      (phase = 1 → ∃ t, exec .solutionLoss s = .next t ∧ t.now = x ∧ stands t 0 ∧
        OnlyLive { s with time := t.time } t [Reg.GNB_DSTAT_PHASE.key 0 0, Reg.SYS_DISC_STAT_STATE.key 0 0]) ∧
      (phase = 2 → ∃ t, exec .solutionLoss s = .next t ∧ t.now = x ∧ holds s t 1 x x) ∧
      (phase = 4 → ∃ t, exec .solutionLoss s = .next t ∧ t.now = x ∧ stands t 3 ∧ t.live Reg.GNB_DSTAT_COUNT = 0 ∧
        syncs s t ∧ OnlyLive { s with time := t.time, eths := t.eths } t [Reg.GNB_DSTAT_PHASE.key 0 0,
          Reg.SYS_DISC_STAT_STATE.key 0 0, Reg.GNB_DSTAT_COUNT.key 0 0])) ∧
    (let x := s.gnb.holdAt + BitVec.ofNat 64 (s.conf Reg.GNB_DISC_HOLD_LIM * 25600000000);
      s.reaches x = true → phase ∈ [3, 4] → s.live Reg.GNB_DSTAT_EXPIRED = 0 →
      ∃ t, exec .holdoverExpiry s = .next t ∧ t.now = x ∧
        t = { s with regs := t.regs, boot := t.boot, time := t.time } ∧ t.live Reg.GNB_DSTAT_EXPIRED = 1 ∧
        t.live Reg.GNB_EVT_EXPIRED = 1 ∧ Raised s t 50 0 (floorTo 64 x) ∧
        LiveSameBut s t ([Reg.GNB_DSTAT_EXPIRED.key 0 0, Reg.GNB_EVT_EXPIRED.key 0 0] ++ eventKeys 50)) ∧
    (∀ x, s.gnb.step = some x → ∃ t, exec .relationStep s = .next t ∧
      t = { s with regs := t.regs, boot := t.boot, time := { s.time with dt := t.time.dt }
                   gnb := { s.gnb with step := none, steps := s.gnb.steps + 1, stepEps := x.eps } } ∧
      (s.reaches x.at_ = true → t.now = x.at_) ∧ t.anchor = x.at_ ∧ t.gpsAnchor = x.gps % 2 ^ 64 ∧
      (x.event = true → t.live Reg.GNB_EVT_STEP = 1 ∧ Raised s t 51 0 (floorTo 64 x.at_)) ∧
      (x.event = false → LiveSameBut s t [Reg.SYS_DISC_ANCHOR_LO_ANCHOR.key 0 0,
        Reg.SYS_DISC_ANCHOR_HI_ANCHOR.key 0 0, Reg.SYS_DISC_GPS_LO_GPS.key 0 0,
        Reg.SYS_DISC_GPS_HI_GPS.key 0 0])) ∧
    (let t := s.solutionAct q b
      let refused := q.t.toNat % (s.conf Reg.GNB_CFG_MPER * 25600000) ≠ 0 ∨ 0 < sdiff b q.t ∨
        0 < sdiff q.t (b - 51200000000)
      (refused → OnlyLive s t [Reg.GNB_SOL_CTL_REJ.key 0 0] ∧ t.live Reg.GNB_SOL_CTL_REJ = 1) ∧
      (¬ refused →
        let e := (q.gps.toNat : Int) * 65536 + q.frac.toNat - (s.gpsAnchor * 65536 + sdiff s.anchor q.t * 2560)
        let within := fun (f : Fld) (y : Int) => y.natAbs ≤ s.conf f * 65536
        let steers := fun (y : Int) => ∃ f, Clamped 24 (sext 24 (s.live Reg.GNB_FREQ_FREQ) - q.drift) f ∧
          sext 24 (t.live Reg.GNB_FREQ_FREQ) = f ∧ Clamped 24 (f + y) (sext 24 (t.live Reg.SYS_TCLK_TRIM_TRIM)) ∧
          t.gnb.slew = y ∧ t.gnb.sig0 = q.sig
        let slews := ∃ r, NearestAway (e * 100) (65536 * s.conf Reg.GNB_DISC_TAU) r ∧
          steers (max (-(s.conf Reg.GNB_DJUMP_SLEW_MAX : Int)) (min (s.conf Reg.GNB_DJUMP_SLEW_MAX) r))
        let steps := 0 ≤ sdiff s.anchor b → sdiff s.anchor b < 2 ^ 62 → 2 ^ 40 ≤ s.gpsAnchor → s.gpsAnchor < 2 ^ 62 →
          Tab.get none s.gnb.lastPulse 0 = none → Tab.get none s.gnb.lastPulse 1 = none →
          ∃ (x : RelStep) (k : Nat), t.gnb.step = some x ∧ x.gps = k * 1000000000 ∧ x.eps = e ∧ x.event = false ∧
            0 ≤ sdiff (b + 15360000000) x.at_ ∧ sdiff (b + 15360000000) x.at_ ≤ 25600000000 ∧
            ((k : Int) * 65536000000000 - e - (s.gpsAnchor * 65536 + sdiff s.anchor x.at_ * 2560)).natAbs ≤ 1280
        let returns := fun (m : Nat) => t.live Reg.GNB_DSTAT_COUNT = min 255 m ∧
          (m < n → stands t 4 ∧ t.gnb.slew = s.gnb.slew) ∧
          (n ≤ m → stands t 2 ∧ t.live Reg.GNB_DSTAT_CAUSE = 0 ∧ t.live Reg.GNB_DSTAT_EXPIRED = 0 ∧
            t.live Reg.GNB_DSTAT_ACCEPTED = 0 ∧ Raised s t 48 0 (floorTo 64 s.now) ∧
            (e.natAbs < s.conf Reg.GNB_DTOL_STEP * 65536 → slews ∧ t.gnb.step = s.gnb.step) ∧
            (s.conf Reg.GNB_DTOL_STEP * 65536 ≤ e.natAbs → steers 0 ∧ ∃ x, t.gnb.step = some x ∧ x.event = true))
        0 < s.conf Reg.GNB_DISC_TAU →
        frame s t ∧ t.gnb.lastEps = e ∧ t.gnb.lastSol = b ∧
        (phase = 0 → stands t 1 ∧ t.live Reg.GNB_DSTAT_COUNT = 1 ∧ slews ∧ steps) ∧
        (phase = 1 → ¬ within Reg.GNB_DTOL_LOCK_TOL e → t.live Reg.GNB_DSTAT_PHASE = 1 ∧
          t.live Reg.GNB_DSTAT_COUNT = 1 ∧ slews ∧ steps) ∧
        (phase = 1 → within Reg.GNB_DTOL_LOCK_TOL e → slews ∧ t.live Reg.GNB_DSTAT_COUNT = min 255 (cnt + 1) ∧
          (cnt + 1 < n → t.live Reg.GNB_DSTAT_PHASE = 1) ∧
          (n ≤ cnt + 1 → stands t 2 ∧ Raised s t 48 0 (floorTo 64 s.now))) ∧
        (phase = 2 → within Reg.GNB_DJUMP_JUMP e → slews ∧ t.live Reg.GNB_DSTAT_PHASE = 2 ∧ t.gnb.jumps = 0) ∧
        (phase = 2 → ¬ within Reg.GNB_DJUMP_JUMP e → t.live Reg.GNB_EVT_TJUMP = 1 ∧ t.gnb.jumped = true ∧
          (s.gnb.jumps + 1 < s.conf Reg.GNB_DISC2_JUMP_N → t.gnb.jumps = s.gnb.jumps + 1 ∧
            LiveSameBut s t [Reg.GNB_EVT_TJUMP.key 0 0, Reg.GNB_EPS_EPS.key 0 0]) ∧
          (s.conf Reg.GNB_DISC2_JUMP_N ≤ s.gnb.jumps + 1 → holds s t 2 (b + 25600) s.now)) ∧
        (phase = 3 →
          (s.live Reg.GNB_DSTAT_CAUSE = 2 ∧ s.live Reg.GNB_DSTAT_ACCEPTED = 0 →
            LiveSameBut s t [Reg.GNB_DSTAT_COUNT.key 0 0, Reg.GNB_EPS_EPS.key 0 0] ∧
            t.live Reg.GNB_DSTAT_COUNT = min 255 (cnt + 1)) ∧
          (¬ (s.live Reg.GNB_DSTAT_CAUSE = 2 ∧ s.live Reg.GNB_DSTAT_ACCEPTED = 0) →
            returns 1)) ∧
        (phase = 4 → returns (if within Reg.GNB_DTOL_LOCK_TOL (e - s.gnb.lastEps) then cnt + 1 else 1))))

/-! ### Fusion, tracks and disputes -/

/-- A datagram gives its sync observation to the clock model of its source, and completes, joins or discards its
frame, or is dropped where that has ended; the end and the deadline of an output; a result due at its boundary becomes
visible or is abandoned; in a replay the record says which output is late; track commands queue, four at most; a
dispute follows its assertion (R42, R332 to R335, R338, R340, R344, R346, R347, R356, R358).
Where it goes beyond the rules it rests on log entries 5, 119, 122 and 124. -/
def Obligations.FusionFramesOutputsAndDisputes : Prop :=
  ∀ (s : State) (p : Port) (i : Nat) (d : Datagram) (rest : List Datagram) (e x : Stamp) (f : Frame) (o : FOut),
    s.power.phase = .rows → s.variant.fge = true → s.conf Reg.DXC_RING_CFG_EN 0 = 0 →
    let h := fun (at_ n : Nat) => leAt d.bytes at_ n
    let q := s.source i
    let soff := BitVec.ofNat 64 (s.live64 Reg.FGE_SOFF_LO_SOFF Reg.FGE_SOFF_HI_SOFF i)
    let sref := BitVec.ofNat 64 (s.live64 Reg.FGE_SREF_LO_SREF Reg.FGE_SREF_HI_SREF i)
    let dt := fun (u y : Stamp) => ∃ r, NearestAway (sdiff sref u * q.rate) (2 ^ 24) r ∧ y = soff + BitVec.ofInt 64 r
    let takes := s.fge.ingress = d :: rest ∧ s.sourceOf d.mac d.udp = some i ∧ 48 ≤ d.bytes.length ∧ h 0 1 = 1
    let only := fun (t : State) => t = { s with
      regs := t.regs, boot := t.boot, inp := { s.inp with done := t.inp.done }
      fge := { s.fge with ingress := rest, sources := t.fge.sources } } ∧ ∀ j, j ≠ i → t.source j = s.source j
    (s.fge.ingress = d :: rest → s.sourceOf d.mac d.udp = none →
      exec .fusionDatagram s = .next { s with fge := { s.fge with ingress := rest } }) ∧
    (takes → h 8 2 = 0 → h 20 8 = e.toNat → e ≠ 0 → q.ingress = [(BitVec.ofNat 32 (h 4 4) - 1, x)] →
      ∃ t pr, exec .fusionDatagram s = .next t ∧ only t ∧ dt e pr ∧
        let net := x - BitVec.ofNat 64 (s.conf Reg.FGE_SNET_NETLAT i * 25600)
        let r := sdiff pr net
        let de := sdiff sref e
        let state := s.live Reg.FGE_SSTAT_STATE i
        let good := s.live Reg.FGE_SSTAT_GOOD i
        let model := fun (so se : Stamp) (g : Nat) => t.live Reg.FGE_SSTAT_GOOD i = g ∧
          t.live64 Reg.FGE_SOFF_LO_SOFF Reg.FGE_SOFF_HI_SOFF i = so.toNat ∧
          t.live64 Reg.FGE_SREF_LO_SREF Reg.FGE_SREF_HI_SREF i = se.toNat
        let anchors := model net e 1 ∧ (t.source i).rate = s.conf Reg.FGE_SRATE_RATE0 i
        let follows := fun (g : Nat) => ∃ a b, NearestAway (r * 2 ^ (24 - s.conf Reg.FGE_SGAIN_KR i)) de.toNat a ∧
          NearestAway r (2 ^ s.conf Reg.FGE_SGAIN_KO i) b ∧ model (pr + BitVec.ofInt 64 b) e g ∧
          (t.source i).rate = max 0 (min (2 ^ 32 - 1) (q.rate + a))
        let far := s.conf Reg.FGE_STIME_FPER i * 256000 < r.natAbs ∨ de ≤ 0
        let near := 1 ≤ good ∧ 0 < de ∧ r.natAbs ≤ s.conf Reg.FGE_SNET_RELTOL i * 25600
        (state = 1 → far → t.live Reg.FGE_SSTAT_STATE i = 2 ∧ anchors ∧
          t.live Reg.FGE_SSTAT_QCNT i = (s.live Reg.FGE_SSTAT_QCNT i + 1) % 2 ^ 8 ∧
          Raised s t 54 i (floorTo 64 s.now)) ∧
        (state = 1 → ¬ far → good < 2 ^ 4 → t.live Reg.FGE_SSTAT_STATE i = 1 ∧ follows good) ∧
        (state ≠ 1 → near → good < 8 → follows (good + 1) ∧
          (good < 7 → t.live Reg.FGE_SSTAT_STATE i = state) ∧
          (good = 7 → t.live Reg.FGE_SSTAT_STATE i = 1 ∧ Raised s t 55 i (floorTo 64 s.now))) ∧
        (state ≠ 1 → ¬ near → t.live Reg.FGE_SSTAT_STATE i = state ∧ anchors)) ∧
    (takes → h 20 8 = 0 → h 8 2 = 0 → q.partials = [] →
      let size := h 28 2 * h 30 2 * h 32 1
      let fits := 1 ≤ h 28 2 ∧ h 28 2 ≤ 512 ∧ 1 ≤ h 30 2 ∧ h 30 2 ≤ 512 ∧ 1 ≤ h 32 1 ∧ h 32 1 ≤ 64 ∧ 4 ≤ h 33 1 ∧
        h 33 1 ≤ 10 ∧ 1 ≤ h 10 2 ∧ h 10 2 ≤ 4096 ∧ h 36 4 + h 40 2 ≤ size ∧
        s.conf Reg.FGE_SCFG_C0 i + h 32 1 ≤ 64
      let seq := BitVec.ofNat 32 (h 4 4)
      (seq ∈ q.ended → ∃ t, exec .fusionDatagram s = .next t ∧ only t ∧ t.regs = s.regs ∧ t.inp = s.inp ∧
        (t.source i).partials = []) ∧
      (seq ∉ q.ended → ∃ t, exec .fusionDatagram s = .next t ∧ only t ∧
        (¬ fits → LiveSameBut s t [Reg.FGE_SSTAT_INCOMPLETE.key i 0] ∧ t.inp = s.inp ∧ (t.source i).partials = [] ∧
          t.live Reg.FGE_SSTAT_INCOMPLETE i = (s.live Reg.FGE_SSTAT_INCOMPLETE i + 1) % 2 ^ 8) ∧
        (fits → 2 ≤ h 10 2 → LiveSameBut s t [] ∧ t.inp = s.inp ∧ ∃ g, (t.source i).partials = [g] ∧
          g.pcnt = h 10 2 ∧ g.tcap = BitVec.ofNat 64 (h 12 8) ∧ g.first = d.ingress ∧ g.got = [0]) ∧
        (fits → h 10 2 = 1 → s.live Reg.FGE_SSTAT_STATE i ≠ 1 →
          LiveSameBut s t [] ∧ t.inp = s.inp ∧ (t.source i).partials = []) ∧
        (fits → h 10 2 = 1 → s.live Reg.FGE_SSTAT_STATE i = 1 →
          LiveSameBut s t [] ∧ (t.source i).partials = [] ∧ ∃ y body, dt (BitVec.ofNat 64 (h 12 8)) y ∧
            t.inp.done = s.inp.done ++ [⟨inputId 3 i, y, d.ingress, 0, body⟩] ∧ body.length = 48 + size ∧
            body.take 48 = d.bytes.take 48 ∧
            (h 36 4 = 0 → h 40 2 = size → d.bytes.length = 48 + size → body = d.bytes)))) ∧
    (q.partials = [f] → let b := f.first + BitVec.ofNat 64 (s.conf Reg.FGE_STIME_FPER i * 256000)
      ∃ t, exec (.frameTimeout i) s = .next t ∧
        t = { s with regs := t.regs, time := { s.time with dt := t.time.dt }
                     fge := { s.fge with sources := t.fge.sources } } ∧
        (s.reaches b = true → t.now = b) ∧ t.source i = { q with partials := [], ended := (f.fseq :: q.ended).take 16 } ∧
        (∀ j, j ≠ i → t.source j = s.source j) ∧ LiveSameBut s t [Reg.FGE_SSTAT_INCOMPLETE.key i 0] ∧
        t.live Reg.FGE_SSTAT_INCOMPLETE i = (s.live Reg.FGE_SSTAT_INCOMPLETE i + 1) % 2 ^ 8) ∧
    (s.fge.out = some o → exec .fusionOutputDone s = .next { s with
      fge := { s.fge with out := some { o with ended := true } } }) ∧
    (s.fge.out = some o → o.due = s.row.num + 1 → s.recordFirst (s.row.next - 25600) = false →
      let late := if s.rpl.on = true then 0 < s.lateCount 57 o.due else o.ended = false
      (¬ late → exec .fusionDeadline s = .next s) ∧
      (late → ∃ t, exec .fusionDeadline s = .next t ∧
        t = { s with regs := t.regs, boot := t.boot, time := { s.time with dt := t.time.dt }
                     fge := { s.fge with out := none } } ∧
        (s.reaches (s.row.next - 25600) = true → t.now = s.row.next - 25600) ∧
        t.live Reg.FGE_STAT_LATE = 1 ∧ Raised s t 57 0 (floorTo 64 t.now) ∧
        LiveSameBut s t (Reg.FGE_STAT_LATE.key 0 0 :: eventKeys 57))) ∧
    (ServesHost s 0x0500014C → ∀ c ∈ [(Instr.trackDelete p, 1, false), (Instr.trackInject p, (2 : Nat), true)],
      let g := fun (fl : Fld) => s.staged (.host p) fl
      let l := logged s p 0x0500014C (2 ^ 31 + c.2.1 * 2 ^ 28 + g Reg.FGE_TCMD_CTL_INDEX)
      let l' := l.setStaged (.host p) Reg.FGE_TCMD_CTL_CODE c.2.1
      (s.fge.cmds.length < 4 → exec c.1 s = .next { l' with fge := { s.fge with cmds := s.fge.cmds ++
        [⟨c.2.2, BitVec.ofNat 32 (g Reg.FGE_TCMD_E_E), BitVec.ofNat 32 (g Reg.FGE_TCMD_N_N),
          BitVec.ofNat 16 (g Reg.FGE_TCMD_R_RAD), g Reg.FGE_TCMD_CTL_INDEX⟩] } }) ∧
      (4 ≤ s.fge.cmds.length → SetsLive c.1 s l' [(Reg.FGE_TCMD_CTL_REJ, 0, 0, 1)])) ∧
    (s.fge.out = none → s.power.bind = .none → s.live Reg.SYS_PWRSTAT_CUR ≤ 2 → s.conf Reg.FGE_CFG_EN = 1 →
      s.live Reg.PLE_POSE_CTL_VALID ≠ 0 → 0 < s.conf Reg.FGE_CFG_ODIV →
      let due := s.row.num.toNat % s.conf Reg.FGE_CFG_ODIV = s.conf Reg.FGE_OCFG_OPH
      (¬ due → s.startOutput = s) ∧
      (due → ∃ y, s.startOutput = { s with fge := { s.fge with
        out := some y, onum := s.fge.onum + 1, cmds := [], sources := s.startOutput.fge.sources } } ∧
        y.due = s.row.num + BitVec.ofNat 32 (s.conf Reg.FGE_CFG_VIS) ∧ y.ended = false ∧
        y.to_ = s.row.cur - BitVec.ofNat 64 (s.conf Reg.FGE_OCFG_OLAG * 256000))) ∧
    (s.fge.out = some o → o.due = s.row.num → let t := s.visibleOutput
      t.fge.out = none ∧
      (o.ended = false → t.fge.tracks = s.fge.tracks ∧ t.live Reg.FGE_STAT_LATE = 1 ∧
        Raised s t 57 0 (floorTo 64 s.now)) ∧
      (o.ended = true → t.fge.tracks = o.tracks ∧ t.live Reg.FGE_STAT_BUF = (1 - s.live Reg.FGE_STAT_BUF) % 2 ∧
        t.live64 Reg.FGE_OUTT_LO_T Reg.FGE_OUTT_HI_T = o.to_.toNat ∧ t.live Reg.FGE_NDET_N = o.ndet % 2 ^ 13)) ∧
    (∀ (y : HeadLayer) (acc : Int), ∃ a r, Clamped 32 acc a ∧
      NearestShift ((if y.relu = true then max 0 a else a) * y.m) (-(y.sh : Int)) r ∧ Clamped 8 r (y.value acc).1 ∧
      ((y.value acc).2 = true ↔ a ≠ acc)) ∧
    (∀ n, n < 8 →
      let t := s.updateDispute n
      let st := s.live Reg.DSP_STAT_STATE n
      let asserted := bitOf (s.live Reg.DSP_ASSERT_Q) n = true ∨ (n = 1 ∧ s.fge.devSpeed = true) ∨
        (n = 4 ∧ s.fge.devTargets = true)
      let lim := s.conf Reg.DSP_CFG_LIMIT n
      (¬ asserted → t.live Reg.DSP_STAT_STATE n = 0) ∧
      (asserted → st = 0 → t.live Reg.DSP_STAT_STATE n = 1 ∧ Tab.get 0 t.fge.since n = s.row.cur ∧
        Raised s t 59 n (floorTo 64 s.now)) ∧
      (asserted → st = 1 →
        let old := lim ≠ 0 ∧ lim * 256000000 ≤ (s.row.cur - Tab.get 0 s.fge.since n).toNat
        (¬ old → t.live Reg.DSP_STAT_STATE n = 1) ∧
        (old → t.live Reg.DSP_STAT_STATE n = 2 ∧ Raised s t 60 n (floorTo 64 s.now))))

/-! ### CAN -/

/-- The CAN controllers: received frames and own records enter the ring; requests, aborts, the start and the end of
an attempt lead to the status the rules give; the error counters set the state, and every change of it is a record;
recovery, RXRD, the coming into force of settings and the end of integration (R360, R363 to R368, R370 to R374, R376,
R377). How the errors and the frames count is the model's choice (log entry 131).
Where it goes beyond the rules it rests on log entries 5, 125, 127 and 131. -/
def Obligations.CanControllers : Prop :=
  ∀ (s : State) (p : Port) (c b : Nat) (fr : CanFrame) (sof adm : Stamp) (v : W32) (role : CanRole) (flag : Bool),
    c < 4 → b < 32 → s.power.phase = .rows → s.rpl.on = false →
    s.conf Reg.DXC_RING_CFG_EN 0 = 0 → s.conf Reg.DXC_RING_CFG_EN 1 = 0 →
    let q := s.can c
    let st := s.live Reg.CAN_ESTAT_STATE c
    let tec := s.live Reg.CAN_ESTAT_TEC c
    let rc := s.live Reg.CAN_ESTAT_REC c
    let mode := s.canConf c Reg.CAN_CCFG_MODE
    let a := 0x06000000 + 0x1000 * c
    let only := fun (m t : State) => t = { m with
      regs := t.regs, win := t.win, inp := t.inp, cans := t.cans, draws := t.draws
      time := { m.time with dt := t.time.dt } } ∧
      (∀ d, d ≠ c → t.can d = m.can d) ∧ (t.can c).hold = (m.can c).hold ∧
      (t.can c).integrating = (m.can c).integrating
    let stays := fun (m t : State) =>
      t.live Reg.CAN_RXWR_WR c = m.live Reg.CAN_RXWR_WR c ∧ t.win = m.win ∧ t.inp = m.inp
    let w := s.winWord (0x06030000 + 0x1000 * c + 96 * b)
    let bit := fun (i : Nat) => w / 2 ^ i % 2
    let len := w / 2 ^ 24 % 2 ^ 7
    let word := s.winWord (0x06030000 + 0x1000 * c + 96 * b + 4)
    let id := if bit 22 = 1 then word % 2 ^ 29 else word % 2 ^ 11
    let kind := bit 18 * 2 ^ 18 + bit 18 * bit 19 * 2 ^ 19 + bit 21 * 2 ^ 21 + bit 22 * 2 ^ 22
    let passive := bit 18 * q.passive.toNat * 2 ^ 20
    let bytes := if bit 21 = 1 then [] else s.winBytes (0x06030000 + 0x1000 * c + 96 * b + 32) (min 64 len)
    let ends := fun (m t : State) (status : Nat) (stamp : Stamp) (sent : Bool) =>
      only m t ∧ t.live Reg.CAN_TXST_ST c b = status ∧ b ∉ (t.can c).pend ∧
      (b, BitVec.ofNat 32 (m.live Reg.CAN_RXWR_WR c)) ∈ (t.can c).busy ∧
      CanEntered m t c (kind + 2 ^ 23 + (if sent then passive else 0)) (if sent then min 64 len else 0) id
        (b + status * 2 ^ 8) (if sent then bytes else []) stamp s.now
    let becomes := fun (m t : State) (n : Nat) =>
      t.live Reg.CAN_ESTAT_STATE c = n ∧
      (n = m.live Reg.CAN_ESTAT_STATE c → stays m t) ∧
      (n ≠ m.live Reg.CAN_ESTAT_STATE c →
        CanEntered m t c (2 ^ 31) 0 0 (n + t.live Reg.CAN_ESTAT_TEC c * 2 ^ 8 +
          t.live Reg.CAN_ESTAT_REC c * 2 ^ 24) [] m.now m.now ∧
        (t.can c).news = (m.can c).news ++ [(BitVec.ofNat 32 (m.live Reg.CAN_RXWR_WR c), n)])
    let judged := fun (x y wt wr : Nat) =>
      if 255 < x then 3 else if 128 ≤ x ∨ 128 ≤ y then 2 else if wt ≤ x ∨ wr ≤ y then 1 else 0
    let counted := fun (m t : State) (x y : Nat) =>
      t.live Reg.CAN_ESTAT_TEC c = x ∧ t.live Reg.CAN_ESTAT_REC c = y ∧
      becomes m t (judged x y (s.canConf c Reg.CAN_EWARN_TEC_W) (s.canConf c Reg.CAN_EWARN_REC_W))
    let up := st ≤ 2 ∧ tec ≤ 255 ∧ rc ≤ 255
    let runs := s.canConf c Reg.CAN_CCFG_EN = 1 ∧ q.integrating = false ∧ up
    let received := fun (m : State) (flags n id : Nat) (data : List Byte) (src adm : Stamp) =>
      let inTime := 0 ≤ sdiff adm (src + BitVec.ofNat 64 (s.canConf c Reg.CAN_CCFG_MAXAGE * 25600000))
      (inTime → CanEntered s m c flags n id 0 data src adm) ∧
      (¬ inTime → stays s m ∧ LiveSameBut s m [Reg.CAN_RXSTAT_AGEREJ.key c 0] ∧
        m.live Reg.CAN_RXSTAT_AGEREJ c = (s.live Reg.CAN_RXSTAT_AGEREJ c + 1) % 2 ^ 12)
    (runs → (fr.fdf = true → s.canConf c Reg.CAN_CCFG_FDEN = 1) → fr.data.length ≤ 64 →
      (mode = 2 → exec (.canFrameReceive c sof adm fr) s = .next s) ∧
      (mode ≠ 2 → ∃ m t, exec (.canFrameReceive c sof adm fr) s = .next t ∧ only s m ∧ only m t ∧
        t.time = m.time ∧ (s.reaches adm = true → m.now = adm) ∧
        received m (fr.fdf.toNat * 2 ^ 18 + fr.fdf.toNat * fr.brs.toNat * 2 ^ 19 +
          fr.fdf.toNat * fr.esi.toNat * 2 ^ 20 + fr.rtr.toNat * 2 ^ 21 + fr.ide.toNat * 2 ^ 22) fr.data.length
          (if fr.ide = true then fr.id.toNat else fr.id.toNat % 2 ^ 11) (if fr.rtr = true then [] else fr.data)
          (floorTo 64 sof) adm ∧
        ∃ r, (rc ≤ 127 → r = rc - 1) ∧ (127 < rc → 119 ≤ r ∧ r ≤ 127) ∧ counted m t tec r)) ∧
    (ServesHost s (a + 0x28) → v = BitVec.ofNat 32 (2 ^ b) →
      let busy := b ∈ q.pend ∨ ∃ k, (b, k) ∈ q.busy
      let fd := bit 18 = 1
      let bad := (fd ∧ s.canConf c Reg.CAN_CCFG_FDEN = 0) ∨ (fd ∧ bit 21 = 1) ∨ (¬ fd ∧ 8 < len) ∨
        len ∉ [0, 1, 2, 3, 4, 5, 6, 7, 8, 12, 16, 20, 24, 32, 48, 64]
      (busy → SetsLive (.canTxRequest p c v) s s [(Reg.CAN_RXSTAT_TXREJ, c, 0, 1)]) ∧
      (¬ busy → ∃ t, exec (.canTxRequest p c v) s = .next t ∧ (bad → ends s t 9 s.now false) ∧
        (¬ bad → only s t ∧ t.can c = { q with pend := q.pend ++ [b] } ∧ stays s t ∧
          LiveSameBut s t [Reg.CAN_TXST_ST.key c b] ∧ t.live Reg.CAN_TXST_ST c b = 1))) ∧
    (ServesHost s (a + 0x2C) → v = BitVec.ofNat 32 (2 ^ b) → ∃ t, exec (.canTxAbort p c v) s = .next t ∧
      (b ∉ q.pend → t = s) ∧
      (b ∈ q.pend → q.active = none → ends s t (if q.tried.contains b then 7 else 4) s.now false) ∧
      (∀ x, b ∈ q.pend → q.active = some (b, x) →
        let brp := 320 * (s.canConf c Reg.CAN_NBT_BRP_M1 + 1)
        let one := 1 + (s.canConf c Reg.CAN_NBT_TSEG1_M1 + 1)
        let sample := x + BitVec.ofNat 64 (brp * (one + (s.canConf c Reg.CAN_NBT_TSEG2_M1 + 1)) + brp * one)
        (cycle sample ≤ cycle s.now → t = { s with cans := t.cans } ∧ t.can c = { q with aborted := b :: q.aborted }) ∧
        (cycle s.now < cycle sample → ends s t 5 s.now false ∧ (t.can c).active = none))) ∧
    (runs → mode ≠ 1 → q.active = none → s.kwQueue c = [] → ∀ x y, x < y → y < 32 →
      q.pend = [y, x] →
      let ctrl := fun (b : Nat) => s.winWord (0x06030000 + 0x1000 * c + 96 * b)
      let ident := fun (b : Nat) => s.winWord (0x06030000 + 0x1000 * c + 96 * b + 4) % 2 ^ 11
      (∀ z ∈ [x, y], ∀ i ∈ [18, 21, 22], ctrl z / 2 ^ i % 2 = 0) →
      let first := if ident y < ident x then y else x
      ∃ t, exec (.canStartOfFrame c sof) s = .next t ∧ only s t ∧ (s.reaches sof = true → t.now = sof) ∧ stays s t ∧
        t.can c = { q with active := some (first, floorTo 64 sof), passive := decide (st = 2) } ∧
        LiveSameBut s t [Reg.CAN_TXST_ST.key c first] ∧ t.live Reg.CAN_TXST_ST c first = 2) ∧
    (∀ x, q.active = some (b, x) →
      (up → ∃ m u t, exec (.canTxEnd c .sent) s = .next t ∧ (t.can c).active = none ∧
        only s m ∧ (m.can c).active = none ∧ m.now = s.now ∧ (mode < 2 → m = { s with cans := m.cans }) ∧
        (2 ≤ mode → received m (kind + passive) (min 64 len) id bytes x s.now) ∧
        ends m u (if q.aborted.contains b then 6 else 3) x true ∧ only u t ∧ counted u t (tec - 1) rc) ∧
      (∀ o ∈ [TxOutcome.lost, TxOutcome.error], ∃ t, exec (.canTxEnd c o) s = .next t ∧ (t.can c).active = none ∧
        (q.aborted.contains b = true → ends s t 7 s.now false) ∧
        (q.aborted.contains b = false → bit 23 = 1 → ends s t 8 s.now false) ∧
        (q.aborted.contains b = false → bit 23 = 0 → only s t ∧ stays s t ∧
          t.can c = { q with active := none, tried := b :: q.tried } ∧ t.live Reg.CAN_TXST_ST c b = 1))) ∧
    (up → s.kwQueue c = [] → q.active = none → s.canConf c Reg.CAN_CCFG_AUTOREC = 0 →
      ∃ t, exec (.canError c role flag) s = .next t ∧ t = { s with
          regs := t.regs, win := t.win, inp := t.inp, cans := t.cans, kw := t.kw } ∧
        (role = .receiver → counted s t tec (min 255 (rc + if flag = true then 8 else 1))) ∧
        (role = .transmitter → counted s t (tec + 8) rc)) ∧
    (ServesHost s (a + 0x14) → ∃ t, exec (.canRecover p c) s = .next t ∧ (st ≠ 3 → t = s) ∧
      (st = 3 → only s t ∧ becomes s t 4 ∧ t.live Reg.CAN_ESTAT_TEC c = tec)) ∧
    (st = 4 → ∃ t, exec (.canRecoveryDone c) s = .next t ∧ only s t ∧ counted s t 0 0) ∧
    (ServesHost s (a + 0x20) →
      let rd := s.live Reg.CAN_RXRD_RD c
      let within := (v.toNat + 2 ^ 32 - rd) % 2 ^ 32 ≤ (s.live Reg.CAN_RXWR_WR c + 2 ^ 32 - rd) % 2 ^ 32
      (within → SetsLive (.canRxrdWrite p c v) s s [(Reg.CAN_RXRD_RD, c, 0, v.toNat)]) ∧
      (¬ within → SetsLive (.canRxrdWrite p c v) s s [(Reg.CAN_RXSTAT_RDREJ, c, 0, 1)])) ∧
    (q.hold ≠ none → tec ≤ 255 → ∃ t, exec (.canSettingsChange c) s = .next t ∧ (t.can c).hold = none ∧
      (∀ d, d ≠ c → t.can d = s.can d) ∧
      t = { s with regs := t.regs, win := t.win, inp := t.inp, cans := t.cans } ∧
      becomes s t (if s.conf Reg.CAN_CCFG_EN c = 0 then 5
        else if st = 3 then (if s.conf Reg.CAN_CCFG_AUTOREC c = 1 then 4 else 3)
        else if st = 4 then 4
        else judged tec rc (s.conf Reg.CAN_EWARN_TEC_W c) (s.conf Reg.CAN_EWARN_REC_W c))) ∧
    (q.integrating = true → ∃ t, exec (.canIntegrationEnd c) s = .next t ∧ t = { s with cans := t.cans } ∧
      t.can c = { q with integrating := false } ∧ ∀ d, d ≠ c → t.can d = s.can d)

/-! ### Ethernet, 802.1AS, management and Kwaros frames -/

/-- Frames are stamped, checked and classified; transmit slots end in one record; link changes are records; RXRD;
the grandmaster's Sync goes on the grid of its interval; it and the answer to a Pdelay_Req carry their PTP times
exactly, wait while a frame is in progress and go before other frames; management cycles run one at a
time; SYNC and FOLLOW_UP frames of Kwaros join their port's queue, which goes before the program slots (R164, R166,
R375, R378 to R384).
Where it goes beyond the rules it rests on log entries 5, 96, 126, 127 and 133. -/
def Obligations.EthernetPtpAndKwarosSync : Prop :=
  ∀ (s : State) (p : Port) (e slot port : Nat) (fr : EthFrame) (ingress adm : Stamp) (v : W32) (up : Bool)
    (speed : BitVec 2) (phy dev : BitVec 5) (data : BitVec 16) (f : KwFrame),
    e < 2 → slot < 16 → s.power.phase = .rows → s.rpl.on = false →
    s.conf Reg.DXC_RING_CFG_EN 0 = 0 → s.conf Reg.DXC_RING_CFG_EN 1 = 0 →
    let q := s.eth e
    let on := s.conf Reg.ETH_MACCFG_EN e = 1
    let a := 0x06100000 + 0x1000 * e
    let only := fun (t : State) => t = { s with
      regs := t.regs, win := t.win, inp := t.inp, eths := t.eths, draws := t.draws
      time := { s.time with dt := t.time.dt } } ∧ ∀ d, d ≠ e → t.eth d = s.eth d
    let per := fun (d : Nat) => let l := s.conf Reg.ETH_PTPCFG_LOGSYNC d
      if l < 8 then 25600000000 * 2 ^ l else 25600000000 / 2 ^ (16 - l)
    let due := fun (d : Nat) (from_ u : Stamp) => s.row.started && decide (s.conf Reg.ETH_PTPCFG_GM_EN d = 1) &&
      decide (s.live Reg.SYS_DISC_STAT_STATE = 1 ∨ s.live Reg.SYS_DISC_STAT_STATE = 2) &&
      sAtOrBefore from_ (floorTo (per d) u)
    let next := fun (reqs : List (Stamp × List Byte)) (from_ u : Stamp) (queue : List KwFrame) (pend : List Nat) =>
      if reqs ≠ [] ∨ due e from_ u = true then none else if queue ≠ [] then some 16 else pend.head?
    let moved := fun (t : State) => t = { s with time := { s.time with dt := t.time.dt }, regs := t.regs }
    let b := fr.bytes
    let x := ethInfo b
    (on → ∃ t r st, exec (.ethFrameReceive e ingress adm fr) s = .next t ∧ (s.reaches adm = true → t.now = adm) ∧
      NearestAway (s.conf Reg.ETH_LAT_RXLAT e * 256) 10 r ∧ st = floorTo 64 (ingress - BitVec.ofInt 64 r) ∧
      let bad := fr.fcsOk = false ∨ 1518 < b.length ∨ (beAt b 12 2 = 0x8100 ∧ beAt b 16 2 = 0x8100)
      let dst := b.take 6
      let own := bytesLE 4 (s.conf Reg.ETH_MACADDR_LO_ADDR e) ++ bytesLE 2 (s.conf Reg.ETH_MACADDR_HI_ADDR e)
      let ours := dst = own ∨ dst = List.replicate 6 0xFF ∨ dst = [0x01, 0x80, 0xC2, 0, 0, 0x0E] ∨
        (s.conf Reg.ETH_MACCFG_MCAST e = 1 ∧ (dst.headD 0).toNat % 2 = 1)
      let counts := fun (c : Fld) => moved t ∧ LiveSameBut s t [c.key e 0] ∧ t.live c e = (s.live c e + 1) % 2 ^ 16
      let toRing := if 0 ≤ sdiff adm (st + BitVec.ofNat 64 (s.conf Reg.ETH_MACCFG_MAXAGE e * 25600000)) then
          EthEntered s t e (x.tagged.toNat * 2 ^ 20 + (if x.etype = 0x88F7 then 2 ^ 21 else 0))
            (x.body.length % 2 ^ 11 + x.vid * 2 ^ 16 + x.pcp * 2 ^ 28) x.body st adm
        else t.inp = s.inp ∧ t.win = s.win ∧ t.regs = s.regs
      (bad → counts Reg.ETH_CNT_DROP_ERR) ∧ (¬ bad → ¬ ours → counts Reg.ETH_CNT_DROP_FILTER) ∧
      (¬ bad → ours → x.etype = 0x88F7 → beAt x.body 14 1 % 16 = 2 → s.conf Reg.ETH_PTPCFG_PDELAY_EN e = 1 →
        only t ∧ (t.eth e).reqs = q.reqs ++ [(st, x.body)] ∧ toRing) ∧
      (¬ bad → ours → x.etype = 0x0800 → (ipBad x.body = true → counts Reg.ETH_CNT_DROP_ERR) ∧
        (ipBad x.body = false → (∀ udp dg, s.ethFusion e x.body = some (udp, dg) →
          t = { s with time := t.time, fge := { s.fge with ingress := s.fge.ingress ++ [⟨e, udp, st, dg⟩] } }) ∧
          (s.ethFusion e x.body = none → only t ∧ toRing))) ∧
      (¬ bad → ours → x.etype ≠ 0x0800 → (x.etype ≠ 0x88F7 ∨ s.conf Reg.ETH_PTPCFG_PDELAY_EN e ≠ 1) →
        only t ∧ (t.eth e).reqs = q.reqs ∧ toRing)) ∧
    (ServesHost s (a + 0x28) →
      let len := s.winWord (0x06140000 + 0x8000 * e + 2048 * slot) % 2 ^ 11
      let busy := slot ∈ q.pend ∨ ∃ k, (slot, k) ∈ q.busy
      ∃ t, exec (.ethTxRequest p e (BitVec.ofNat 16 (2 ^ slot))) s = .next t ∧ (busy → t = s) ∧
        (¬ busy → 14 ≤ len → len ≤ 1518 →
          let then_ := if q.active ≠ none ∨ s.conf Reg.ETH_MACCFG_EN e ≠ 1 then q.active
            else next q.reqs q.syncFrom s.now (s.kwQueue (4 + e)) (q.pend ++ [slot])
          only t ∧ t.eth e = { q with pend := q.pend ++ [slot], active := then_ } ∧
          LiveSameBut s t [Reg.ETH_TXST_ST.key e slot, Reg.ETH_TXST_ST.key e ((q.pend ++ [slot]).headD 0)] ∧
          t.live Reg.ETH_TXST_ST e slot = if q.active = none ∧ then_ = some slot then 2 else 1) ∧
        (¬ busy → len < 14 ∨ 1518 < len → only t ∧ EthEntered s t e (2 ^ 18 + 2 ^ 22 + slot * 2 ^ 24) 0 [] 0 s.now ∧
          slot ∉ (t.eth e).pend ∧ t.live Reg.ETH_TXST_ST e slot = 3)) ∧
    (on → ∃ t r st, exec (.ethTxEnd e adm) s = .next t ∧ (s.reaches adm = true → t.now = adm) ∧
      NearestAway (s.conf Reg.ETH_LAT_TXLAT e * 256) 10 r ∧ st = floorTo 64 (adm + BitVec.ofInt 64 r) ∧
      let now := if q.active = none then next q.reqs q.syncFrom s.now (s.kwQueue (4 + e)) q.pend else q.active
      (now = none → moved t ∧ t.regs = s.regs) ∧
      (∀ rest, now = some 16 → s.kwQueue (4 + e) = f :: rest → t.kwQueue (4 + e) = rest ∧
        (∀ d, d ≠ e → t.eth d = s.eth d) ∧
        t.eth e = { q with active := next q.reqs q.syncFrom t.now rest q.pend, wire := (t.eth e).wire } ∧
        t = { s with kw := t.kw, regs := t.regs, eths := t.eths, draws := t.draws
                     time := { s.time with dt := t.time.dt } } ∧
        (f.typ = 3 → Tab.get none t.kw.syncWait (4 + e) = some (leAt f.bytes 2 2, st)) ∧
        let z := (t.eth e).wire
        beAt z 12 2 = 0x0800 ∧ beAt z 14 1 = 0x45 ∧ beAt z 20 2 = 0x4000 ∧ beAt z 22 1 = 64 ∧ beAt z 23 1 = 17 ∧
        onesSum ((z.drop 14).take 20) = 0xFFFF ∧ beAt z 26 4 = s.conf Reg.ETH_IPV4_IP e % 2 ^ 32 ∧
        beAt z 34 2 = s.conf Reg.KW_UDP_PORT % 2 ^ 16 ∧ beAt z 36 2 = f.udp.toNat ∧ beAt z 40 2 = 0 ∧
        (f.bytes.length < 60000 → beAt z 16 2 = 28 + f.bytes.length ∧ beAt z 38 2 = 8 + f.bytes.length) ∧
        (z.drop 42).take f.bytes.length = f.bytes ∧ z.length = max 60 (42 + f.bytes.length) ∧
        ∀ ip j, f.ipv4 = some ip → (z.drop 30).take 4 = bytesLE 4 ip.toNat ∧
          let hit := fun (k : Nat) => s.confWord (0x06108008 + 0x10 * k) / 2 ^ 31 % 2 = 1 ∧
            (bytesLE 4 (s.confWord (0x06108000 + 0x10 * k))).reverse = bytesLE 4 ip.toNat
          (j < 16 → hit j → (∀ k, k < j → ¬ hit k) →
            z.take 6 = bytesLE 4 (s.confWord (0x06108004 + 0x10 * j)) ++ bytesLE 2 (s.confWord (0x06108008 + 0x10 * j)))) ∧
      (now = some slot →
        let frame := s.winBytes (0x06140000 + 0x8000 * e + 2048 * slot + 16)
          (s.winWord (0x06140000 + 0x8000 * e + 2048 * slot) % 2 ^ 11)
        let y := ethInfo frame
        let rest := q.pend.filter (· != slot)
        only t ∧ (t.eth e).pend = rest ∧ (t.eth e).active = next q.reqs q.syncFrom t.now (s.kwQueue (4 + e)) rest ∧
        t.live Reg.ETH_TXST_ST e slot = 3 ∧ (t.eth e).wire.take frame.length = frame ∧
        (t.eth e).wire.length = max 60 frame.length ∧
        EthEntered s t e (2 ^ 18 + y.tagged.toNat * 2 ^ 20 + (if y.etype = 0x88F7 then 2 ^ 21 else 0) + slot * 2 ^ 24)
          (y.body.length % 2 ^ 11 + y.vid * 2 ^ 16 + y.pcp * 2 ^ 28) y.body st t.now)) ∧
    (on → s.conf Reg.ETH_MACCFG_SPEED e < 4 →
      let v := if s.conf Reg.ETH_MACCFG_IF e = 0 then s.conf Reg.ETH_MACCFG_SPEED e else speed.toNat
      ∃ t, exec (.ethLinkChange e up speed) s = .next t ∧ only t ∧ t.live Reg.ETH_LINK_UP e = up.toNat ∧
        t.live Reg.ETH_LINK_SPEED e = v ∧
        EthEntered s t e (2 ^ 19 + up.toNat * 2 ^ 26 + v * 2 ^ 24) 0 [] s.now s.now) ∧
    (ServesHost s (a + 0x24) →
      let rd := s.live Reg.ETH_RXRD_RD e
      let within := (v.toNat + 2 ^ 32 - rd) % 2 ^ 32 ≤ (s.live Reg.ETH_RXWR_WR e + 2 ^ 32 - rd) % 2 ^ 32
      (within → SetsLive (.ethRxrdWrite p e v) s s [(Reg.ETH_RXRD_RD, e, 0, v.toNat)]) ∧
      (¬ within → exec (.ethRxrdWrite p e v) s = .next s)) ∧
    (on →
      let free := s.live Reg.SYS_DISC_STAT_STATE = 0
      let ptp := fun (m : PtpMsg) (u : Stamp) => 0 ≤ m.ns ∧ m.ns < 1000000000 ∧ 0 ≤ m.frac ∧ m.frac < 65536 ∧
        (m.sec * 1000000000 + m.ns) * 65536 + m.frac =
          if free then (u.toNat : Int) * 2560
          else ((s.gpsAnchor : Int) + 19000000000) * 65536 + sdiff s.anchor u * 2560
      let mine := fun (m : PtpMsg) => m.clockId.toNat =
          (s.conf Reg.ETH_CLKID_LO_ID e + s.conf Reg.ETH_CLKID_HI_ID e * 2 ^ 32) % 2 ^ 64 ∧ m.port = e + 1 ∧
        m.dest = [0x01, 0x80, 0xC2, 0, 0, 0x0E]
      let out := fun (c : Instr) (P : State → Stamp → PtpMsg → PtpMsg → Prop) => ∃ t r st m n, exec c s = .next t ∧
        t = { s with regs := t.regs, eths := t.eths, time := { s.time with dt := t.time.dt } } ∧
        (∀ d, d ≠ e → t.eth d = s.eth d) ∧ (s.reaches adm = true → t.now = adm) ∧
        LiveSameBut s t [Reg.ETH_TXST_ST.key e (q.pend.headD 0)] ∧
        (t.live Reg.ETH_TXST_ST e (q.pend.headD 0) = if (t.eth e).active ≠ none ∧ (t.eth e).active = q.pend.head? ∧
          s.kwQueue (4 + e) = [] then 2 else s.live Reg.ETH_TXST_ST e (q.pend.headD 0)) ∧
        NearestAway (s.conf Reg.ETH_LAT_TXLAT e * 256) 10 r ∧ st = floorTo 64 (adm + BitVec.ofInt 64 r) ∧
        (t.eth e).sent = [m, n] ∧ m.egress = st ∧ mine m ∧ mine n ∧ P t st m n
      let at_ := sMax s.now adm
      (due e q.syncFrom at_ = false ∨ q.active ≠ none → exec (.ptpSync e adm) s = .next s) ∧
      (due e q.syncFrom at_ = true → q.active = none → out (.ptpSync e adm) (fun t st m n =>
        let g := floorTo (per e) at_
        t.eth e = { q with ptpSeq := (q.ptpSeq + 1) % 65536, syncFrom := g + 1, sent := (t.eth e).sent
                           active := next q.reqs (g + 1) t.now (s.kwQueue (4 + e)) q.pend } ∧
        m.typ = 0 ∧ m.seq = q.ptpSeq ∧ n.typ = 8 ∧ n.seq = q.ptpSeq ∧ ptp n st ∧ n.base = s.gnb.steps % 65536 ∧
        n.phase = s.gnb.stepEps ∧ n.rateOffset = 0 ∧ n.freqChange = 0)) ∧
      (q.reqs ≠ [] → q.active ≠ none → exec (.pdelayResponse e adm) s = .next s) ∧
      (∀ t2 req rest, q.reqs = (t2, req) :: rest → q.active = none → out (.pdelayResponse e adm) (fun t st m n =>
        t.eth e = { q with reqs := rest, sent := (t.eth e).sent
                           active := next rest q.syncFrom t.now (s.kwQueue (4 + e)) q.pend } ∧
        m.typ = 3 ∧ n.typ = 10 ∧ m.seq = beAt req 44 2 ∧ n.seq = beAt req 44 2 ∧ ptp m t2 ∧ ptp n st))) ∧
    (ServesHost s (a + 0x40) → ∀ c ∈ [(Instr.mdioC22Write p e phy dev data, 0, data.toNat),
        (Instr.mdioC22Read p e phy dev, 1, 0), (Instr.mdioC45Address p e phy dev data, 2, data.toNat),
        (Instr.mdioC45Read p e phy dev, (3 : Nat), (0 : Nat))],
      ∃ t, exec c.1 s = .next t ∧ t = { s with regs := t.regs, eths := t.eths } ∧ (∀ d, d ≠ e → t.eth d = s.eth d) ∧
        LiveSameBut s t ([Reg.ETH_MDIO_CMD_OP, Reg.ETH_MDIO_CMD_PHYAD, Reg.ETH_MDIO_CMD_DEVAD,
          Reg.ETH_MDIO_CMD_DATA, Reg.ETH_MDIO_DATA_BUSY].map (fun g => g.key e 0)) ∧
        t.live Reg.ETH_MDIO_CMD_OP e = c.2.1 ∧ t.live Reg.ETH_MDIO_CMD_PHYAD e = phy.toNat ∧
        t.live Reg.ETH_MDIO_CMD_DEVAD e = dev.toNat ∧ t.live Reg.ETH_MDIO_CMD_DATA e = c.2.2 ∧
        (s.live Reg.ETH_MDIO_DATA_BUSY e = 0 → t.eth e = { q with mdio := some c.2.1 } ∧
          t.live Reg.ETH_MDIO_DATA_BUSY e = 1) ∧
        (s.live Reg.ETH_MDIO_DATA_BUSY e ≠ 0 → t.eth e = q ∧
          t.live Reg.ETH_MDIO_DATA_BUSY e = s.live Reg.ETH_MDIO_DATA_BUSY e)) ∧
    (∀ op, q.mdio = some op → ∃ t, exec (.mdioCycleDone e data) s = .next t ∧
      t = { s with regs := t.regs, eths := t.eths } ∧ t.eth e = { q with mdio := none } ∧
      (∀ d, d ≠ e → t.eth d = s.eth d) ∧ t.live Reg.ETH_MDIO_DATA_BUSY e = 0 ∧
      t.live Reg.ETH_MDIO_DATA_DATA e =
        (if op = 1 ∨ op = 3 then data.toNat else s.live Reg.ETH_MDIO_DATA_DATA e) ∧
      LiveSameBut s t [Reg.ETH_MDIO_DATA_BUSY.key e 0, Reg.ETH_MDIO_DATA_DATA.key e 0]) ∧
    (port < 6 →
      let n := Tab.get 0 s.kw.syncSeq port
      let cap := if port < 4 then 16 else 64
      let sa := s.conf Reg.KW_CFG_SA % 256
      let queued := fun (t : State) (typ : Nat) (P : KwFrame → Prop) =>
        t = { s with kw := { s.kw with
                       queues := t.kw.queues, syncSeq := t.kw.syncSeq, syncWait := t.kw.syncWait, synced := t.kw.synced }
                     regs := t.regs, boot := t.boot, eths := t.eths, time := { s.time with dt := t.time.dt } } ∧
        (∀ d, (s.eth d).active ≠ none ∨ s.conf Reg.ETH_MACCFG_EN d ≠ 1 ∨ 4 + d ≠ port → t.eth d = s.eth d) ∧
        (∀ d, 4 + d = port → (s.kwQueue port).length < cap → (s.eth d).active = none → s.conf Reg.ETH_MACCFG_EN d = 1 →
          t.eth d = { s.eth d with active :=
            if (s.eth d).reqs ≠ [] ∨ due d (s.eth d).syncFrom t.now = true then none else some 16 }) ∧
        Tab.get 0 t.kw.syncSeq port = (n + 1) % 2 ^ 16 ∧
        ((s.kwQueue port).length < cap → ∃ g, t.kwQueue port = s.kwQueue port ++ [g] ∧ g.typ = typ ∧ g.prio = 2 ∧
          g.da = 0xFF ∧ g.bytes.length = 24 ∧ leAt g.bytes 0 2 = 1 + 256 * typ ∧ leAt g.bytes 2 2 = n % 2 ^ 16 ∧
          leAt g.bytes 4 4 = 0x000100FF + 256 * sa ∧ P g) ∧
        (cap ≤ (s.kwQueue port).length → t.kwQueue port = s.kwQueue port ∧
          (port < 4 → t.live Reg.CAN_KWST_DROP port = (s.live Reg.CAN_KWST_DROP port + 1) % 2 ^ 16) ∧
          Raised s t 61 port (floorTo 64 t.now))
      (s.conf Reg.KW_SYNC_PERIOD port ≠ 0 → ∃ t, exec (.kwarosSync port) s = .next t ∧
        let per := s.conf Reg.KW_SYNC_PERIOD port * 25600000
        let early := s.time.valid = true ∧ s.now.toNat + 2 ^ 42 < 2 ^ 63 ∧ per < 2 ^ 40
        (early → Tab.get none t.kw.synced port = some t.now ∧ ∃ g : Nat, g % per = 0 ∧ s.now.toNat ≤ g ∧
          g < s.now.toNat + per ∧
          t.now.toNat = if Tab.get none s.kw.synced port = some (BitVec.ofNat 64 g) then g + per else g) ∧
        queued t 3 (fun g => (early → g.at_ = t.now) ∧ leAt g.bytes 8 16 = 0)) ∧
      (∀ sq u, Tab.get none s.kw.syncWait port = some (sq, u) → ∃ t, exec (.kwarosFollowUp port) s = .next t ∧
        Tab.get none t.kw.syncWait port = none ∧
        queued t 4 (fun g => g.at_ = s.now ∧ leAt g.bytes 8 8 = u.toNat ∧ leAt g.bytes 16 2 = sq % 2 ^ 16 ∧
          leAt g.bytes 18 6 = 0)))

/-! ### The placement pass and the edge queue -/

/-- The host's pose and QPEAK; issue (an edge of the cycle of its node's N_w goes out with what the unit write
commits), landing and resolution of an edge; the end of an evaluation and of a pass; the
matching of R199; the stop actions (R156, R164, R168, R187, R192 to R194, R196 to R199, R202, R206, R207, R210). The
queue lists each entry once (`Tab.wf`), and an entry not yet committed is not resolved.
Where it goes beyond the rules it rests on log entries 5, 85, 86, 87 and 98. -/
def Obligations.PlacementPassAndEdgeQueue : Prop :=
  ∀ (s : State) (p : Port) (e n w : Nat) (landed : Stamp) (P : Pass) (rest : List (Nat × Nat × Bool))
    (cl : Bool),
    s.power.phase = .rows → s.rpl.on = false → s.conf Reg.DXC_RING_CFG_EN 0 = 0 →
    Tab.wf QEntry.free s.ple.queue = true →
    let q := s.entry e
    let ty := q.endpoint.toNat / 2 ^ 28
    let idx := q.endpoint.toNat % 2 ^ 28
    let on := q.value.getLsbD 23
    let copy := fun (f : Fld) => s.staged (.host p) f
    let atTime := fun (t : State) (u : Stamp) => s.reaches u = true → t.now = u
    let others := fun (t : State) => ∀ k, k ≠ e → t.entry k = s.entry k
    let only := fun (t : State) => t = { s with time := { s.time with dt := t.time.dt }, ple := t.ple }
    let withEvent := fun (t : State) => t = { s with
      time := { s.time with dt := t.time.dt }, ple := t.ple, regs := t.regs, boot := t.boot }
    let ends := fun (i : Nat) (t : State) (a : Stamp) => (a, on) ∈ (t.nodeRt i).acts ∧
      (ty ≤ 4 → (a + BitVec.ofNat 64 (2560000 *
        (if on then s.conf Reg.PLE_TAIL_ON_TAIL ty else s.conf Reg.PLE_TAIL_OFF_TAIL ty)), on) ∈ (t.nodeRt i).ground)
    let nw := fun (b : Stamp) (v : Nat) => b + BitVec.ofNat 64 (64 * (400 + ((v + 1) * 512 + 2) / 3))
    let withheld := ∃ Q, s.ple.pass = some Q ∧ ∃ x ∈ Q.todo, x.1 = q.node ∧ x.2.2 = (s.node q.node).composing ∧
      0 < sdiff (nw Q.b x.2.1) (floorTo 64 q.issue)
    let lead := (s.node q.node)
    let inCycle := ∃ Q, s.ple.pass = some Q ∧ ∃ x ∈ Q.todo, x.1 = q.node ∧ x.2.2 = (s.node q.node).composing ∧
      (nw Q.b x.2.1).toNat / 64 = q.issue.toNat / 64
    let out := fun (x : QEntry) (u : Stamp) => x.out = true ∨ 0 < sdiff u (floorTo 64 x.issue)
    let F := s.row.cur + 25600
    let deadline := s.row.next - 25600
    (ServesHost s 0x02000120 → ∃ x : Pose, exec (.poseApply p) s =
        .next { s with ple := { s.ple with hostPose := s.ple.hostPose ++ [(p, x)] } } ∧
      x.t = BitVec.ofNat 64 (copy Reg.PLE_POSE_T_LO_T + 2 ^ 32 * copy Reg.PLE_POSE_T_HI_T) ∧
      x.hdg = BitVec.ofNat 32 (copy Reg.PLE_POSE_HDG_HDG) ∧
      [x.e, x.n, x.spd, x.acc, x.yr] = [Reg.PLE_POSE_E_E, Reg.PLE_POSE_N_N, Reg.PLE_POSE_SPD_SPD,
        Reg.PLE_POSE_ACC_ACC, Reg.PLE_POSE_YR_YR].map (fun f => (BitVec.ofNat 32 (copy f)).toInt)) ∧
    (ServesHost s 0x02000384 → SetsLive (.qpeakClear p) s s [(Reg.PLE_QPEAK_PEAK, 0, 0, 0)]) ∧
    let slices := fun (x : W32) => x.toNat / 2 ^ 28 = 1 ∨ x.toNat / 2 ^ 28 = 2
    (q.st = .spec → (∀ x ∈ s.ple.queue, x.1 ≠ e → x.2.st = .spec →
        x.2.endpoint = q.endpoint ∨ (slices x.2.endpoint ∧ slices q.endpoint) →
        x.2.issue.toNat / 64 ≠ q.issue.toNat / 64) →
      ∃ t, exec (.edgeIssue e) s = .next t ∧ atTime t (floorTo 64 q.issue) ∧
        (withheld → only t ∧ t.ple = { s.ple with queue := t.ple.queue } ∧ others t ∧ t.entry e = { q with st := .held }) ∧
        (¬ withheld → ty ≠ 3 → q.resolved = false → q.nofb = false →
          let L := if on then lead.leadOn else lead.leadOff
          let a := q.issue + BitVec.ofNat 64 (64 * L)
          let sure := ty = 0 ∨ ty = 4
          others t ∧ t.entry e = { q with st := .committed, cfgLead := L, out := (t.entry e).out, resolved := decide sure
                                          actual := if sure then a else q.actual } ∧
          (inCycle → (t.entry e).out = q.out ∧ only t) ∧ (¬ inCycle → (t.entry e).out = true) ∧
          ((s.node q.node).kind ≠ 0 → (t.nodeRt q.node).cmd = on ∧ (sure → ends q.node t a)) ∧
          (ty = 4 → ¬ inCycle → t.core idx = { s.core idx with
              callbacks := (s.core idx).callbacks ++ [(q.issue, q.target, q.node, q.value)] } ∧
            t = { s with time := { s.time with dt := t.time.dt }, ple := t.ple, cores := t.cores } ∧
            ∀ d, d ≠ idx → t.core d = s.core d) ∧
          (ty = 0 → ¬ inCycle → idx < 512 → (s.chCfg idx).free = false → (s.chCfg idx).gmode ≠ 2 →
            t.live Reg.ETU_CHSTAT_RATE idx = q.value.toNat % 2 ^ 16 ∧ t.live Reg.ETU_CHSTAT_GATE idx = on.toNat) ∧
          (ty = 1 ∨ ty = 2 → ¬ inCycle → let sl := if ty = 2 then 2 * idx else idx
            (s.live Reg.SYS_PWRSTAT_BANK_READY).testBit (sl / 6) = false →
              t.dsl = { s.dsl with waiting := s.dsl.waiting ++ [⟨sl, on, q.issue, q.target, e⟩] }))) ∧
    (ty = 3 → q.st = .spec ∨ (q.st = .committed ∧ q.out = false) → ¬ withheld → ¬ inCycle → q.issue.toNat % 64 = 0 →
      (∀ x ∈ s.ple.queue, x.1 ≠ e → x.2.issue.toNat / 64 ≠ q.issue.toNat / 64) →
      let r := s.skn.act.remote idx
      let port := if r.port < 8 then r.port else r.port - 4
      let seq := Tab.get 0 s.ple.remSeq r.key
      ∃ t f, exec (.edgeIssue e) s = .next t ∧ atTime t q.issue ∧ others t ∧
        t.entry e = { q with st := .committed, out := true, cfgLead := (t.entry e).cfgLead } ∧
        Tab.get 0 t.ple.remSeq r.key = (seq + 1) % 2 ^ 16 ∧
        ((s.kwQueue port).length < (if port < 4 then 16 else 64) → t.kwQueue port = s.kwQueue port ++ [f]) ∧
        f.at_ = q.issue ∧ f.typ = 1 ∧ f.prio = r.prio ∧ f.da = BitVec.ofNat 8 r.da ∧ f.bytes.length = 24 ∧
        leAt f.bytes 0 2 = 0x0101 ∧ leAt f.bytes 2 2 = seq % 2 ^ 16 ∧ leAt f.bytes 4 1 = r.da % 256 ∧
        leAt f.bytes 5 1 = s.conf Reg.KW_CFG_SA % 256 ∧ leAt f.bytes 6 2 = 1 ∧ leAt f.bytes 8 8 = q.target.toNat ∧
        leAt f.bytes 16 2 = r.channel % 2 ^ 16 ∧ leAt f.bytes 18 6 = q.value.toNat) ∧
    (q.st = .committed → ∃ t, exec (.edgeTarget e) s = .next t ∧ atTime t q.target ∧ others t ∧
      t.entry e = { q with st := .landed } ∧
      ((∀ x ∈ s.ple.nodes, x.2.orphan = []) → only t ∧ t.ple = { s.ple with queue := t.ple.queue })) ∧
    (q.st = .committed ∨ q.st = .landed → q.resolved = false →
      (ty = 1 ∨ ty = 2 → let a := q.issue + BitVec.ofNat 64 (64 * q.cfgLead)
        ∃ t, exec (.fbWaitExpiry e) s = .next t ∧
          atTime t (q.target + BitVec.ofNat 64 (2560000 * s.conf Reg.PLE_TRAIL_FB_WAIT)) ∧ withEvent t ∧ others t ∧
          t.entry e = { q with actual := a, resolved := true, nofb := true } ∧ Raised s t 15 q.node (floorTo 64 t.now) ∧
          ((s.node q.node).kind ≠ 0 → ends q.node t a)) ∧
      (ty = 3 → ∃ t, exec (.remoteAckTimeout e) s = .next t ∧
        atTime t (q.target + BitVec.ofNat 64 (25600000 * (s.node q.node).leadMax)) ∧ only t ∧ others t ∧
        t.entry e = { q with actual := q.target, resolved := true, nofb := true } ∧
        ((s.node q.node).kind ≠ 0 → ends q.node t q.target) ∧
        (t.nodeRt q.node).miss = (if q.acked then (s.nodeRt q.node).miss else min 255 ((s.nodeRt q.node).miss + 1)))) ∧
    (s.ple.pass = some P → P.todo = (n, w, cl) :: rest → w < 2 ^ 32 → (∀ x ∈ rest, w ≤ x.2.1) →
      (∀ x ∈ rest, x.1 = n → w < x.2.1) →
      let land := if 0 < sdiff (nw P.b w) landed then landed else nw P.b w
      let r := s.node n
      0 < sdiff land deadline → ∃ t Q, exec (.nodeEvaluationEnd n landed) s = .next t ∧ atTime t land ∧
        (rest ≠ [] → t.ple.pass = some Q ∧ Q.b = P.b ∧ Q.todo = rest ∧ Q.carried = P.carried ∧ Q.evals = P.evals + (!cl).toNat ∧
          Q.waves = max P.waves (w + 1)) ∧
        (rest = [] → t.ple.pass = none ∧ t.live Reg.PLE_STAT_BUSY = 0 ∧
          t.live Reg.PLE_EVALS_CNT = (P.evals + (!cl).toNat) % 2 ^ 18 ∧ t.live Reg.PLE_WAVES_LAST = max P.waves (w + 1) % 2 ^ 16) ∧
        (cl = false → (t.nodeRt n).lastRow.toNat = s.row.num.toNat % 256 ∧
          (t.nodeRt n).status.getLsbD 5 = P.carried.contains n) ∧
        (cl = false → n = 0 → r.kind = 1 → r.tsrc ≠ 4 → (t.nodeRt 0).yawNow = s.pose.hdg ∧ (t.nodeRt 0).yawRate = s.pose.yr ∧
          (t.nodeRt 0).srcStamp = some s.pose.t) ∧
        (r.kind = 2 ∨ r.kind = 3 → cl = r.composing → (s.nodeRt n).status.getLsbD 2 = true →
          (r.fail = 2 → ∀ x ∈ s.ple.queue, x.2.node = n → x.2.st = .spec → 0 < sdiff (nw P.b w) (floorTo 64 x.2.issue)) →
          (t.nodeRt n).rateNext = (if r.fail = 1 then some (BitVec.ofNat 16 r.rateFix) else if r.fail = 0 then some 0
            else none) ∧
          (t.nodeRt n).line = ⟨if r.fail = 2 then (s.nodeRt n).cmd else decide (r.fail = 1), []⟩)) ∧
    (∀ S K : List (Stamp × BitVec 24), verdict S K =
      if S = K then (.confirm, S.length) else if S.isPrefixOf K then (.extend, S.length)
      else if 1 ≤ S.length ∧ (S.take (S.length - 1)).isPrefixOf K then (.tink, S.length - 1) else (.frog, 0)) ∧
    (s.ple.pass = some P → P.todo = [] → ∃ t, exec .passDeadline s = .next t ∧ t.ple = { s.ple with pass := none } ∧
      t.live Reg.PLE_STAT_BUSY = 0 ∧ t.live Reg.PLE_STAT_LATE = s.live Reg.PLE_STAT_LATE) ∧
    (s.ple.pass = some P → P.todo ≠ [] → (∀ x ∈ P.todo, x.1 ∈ s.defined) → s.defined.Pairwise (· < ·) →
      ∃ t i left, exec .passDeadline s = .next t ∧ atTime t deadline ∧ t.ple.pass = none ∧ t.ple.carry = left ∧
        (∀ j, j ∈ left ↔ ∃ x ∈ P.todo, x.1 = j) ∧ i ∈ left ∧ (∀ j ∈ left, i ≤ j) ∧
        t.live Reg.PLE_STAT_LATE = 1 ∧ t.live Reg.PLE_STAT_BUSY = 0 ∧ t.live Reg.PLE_NEXT_VALID = 1 ∧
        t.live Reg.PLE_NEXT_NODE = i % 2 ^ 17 ∧ t.live Reg.PLE_LATECNT_CNT = min 65535 (s.live Reg.PLE_LATECNT_CNT + 1) ∧
        Raised s t 12 i (floorTo 64 t.now) ∧
        (s.ple.direct = [] → (∀ x ∈ s.ple.queue, x.2.st ≠ .held ∧ (x.2.st = .committed → out x.2 deadline)) → t.ple = { s.ple with pass := none, carry := left }) ∧
        (s.ple.direct = [] → s.ple.queue = [(e, q)] → q.st = .held → q.node ∈ left → ty = 4 →
          (t.entry e).st = .committed ∧ (t.entry e).slip = true ∧ t.live Reg.PLE_QEVT_SLIP = 1 ∧
          (t.core idx).callbacks = (s.core idx).callbacks ++ [(q.issue, q.target, q.node, q.value)])) ∧
    (s.live Reg.PLE_MOTION_STATE = 1 → s.live Reg.PLE_POSE_CTL_STALE = 0 →
      (s.conf Reg.PLE_STOP_DWELL * 256000000 : Nat) ≤ sdiff s.ple.dwell s.pose.t →
      let bound := fun i => i ∈ s.defined ∧ (s.node i).actuated = true ∧ (s.nodeRt i).status.getLsbD 2 = false
      let gone := fun (x : QEntry) => bound x.node ∧ (x.st = .spec ∨ x.st = .held) ∧ 0 < sdiff F (floorTo 64 x.issue)
      ∃ t, exec .dwellExpiry s = .next t ∧ atTime t F ∧ t.live Reg.PLE_MOTION_STATE = 2 ∧
        t.live Reg.PLE_MOTION_STOPS = (s.live Reg.PLE_MOTION_STOPS + 1) % 2 ^ 16 ∧
        let settled := s.ple.direct = [] ∧ ∀ x ∈ s.ple.queue, (x.2.st = .spec → 0 < sdiff F (floorTo 64 x.2.issue)) ∧
          (x.2.st = .committed → out x.2 F)
        (settled → (∀ i, bound i → (s.committedLine i).on F = false) →
          t = { s with time := { s.time with dt := t.time.dt }, regs := t.regs, ple := { s.ple with queue := t.ple.queue } } ∧
          ∀ k, (gone (s.entry k) → t.entry k = QEntry.free) ∧ (¬ gone (s.entry k) → t.entry k = s.entry k)) ∧
        (settled → (∀ i, bound i → i ≠ n → (s.committedLine i).on F = false) → bound n → (s.committedLine n).on F = true →
          s.ple.queue.length < 32768 → s.defined.Pairwise (· < ·) → (s.node n).endpoint / 2 ^ 28 ≠ 3 →
          let a := BitVec.ofNat 64 ((F.toNat + 63) / 64 * 64) + BitVec.ofNat 64 (64 * s.lead n false)
          (∀ k, (s.entry k).st = .committed ∨ (s.entry k).st = .landed → t.entry k = s.entry k) ∧
          ∃ k, (t.entry k).node = n ∧ (t.entry k).value = 0 ∧ (t.entry k).comp = true ∧
            ((t.entry k).st = .spec ∨ (t.entry k).st = .committed) ∧
            (s.lastTarget n = none → (t.entry k).target = a ∧ (t.entry k).st = .committed) ∧
            (∀ l, s.lastTarget n = some l → (t.entry k).target = if 0 < sdiff a (l + 64) then l + 64 else a)))

/-! ### Tiles, trailing writes, transfers and the start of a replay -/

/-- Swaps queue, four at most, and the directory entry changes as its mode says while the probes of the row see what
they saw; a copy is outstanding once and is made from what the probes see; write-back, trailing write and its
deadline; a transfer completes after the earlier ones of its core, and one that overwrites a layer or a skein slot
leaves it undefined; GO and LOADED of a replay (R31, R67, R88, R101, R128, R213, R214, R230, R231, R233, R234, R236,
R237, R400).
Where it goes beyond the rules it rests on log entries 5, 43, 61, 79, 101 and 132. -/
def Obligations.TilesTrailsTransfersAndReplay : Prop :=
  ∀ (s : State) (p : Port) (arm final : Bool) (c i res layer col row dest : Nat) (x : Trail) (m : Move) (y : Swap),
    s.conf Reg.DXC_RING_CFG_EN 0 = 0 →
    let rows := s.power.phase = .rows
    let copy := fun (f : Fld) => s.staged (.host p) f
    let sameProbes := fun (t : State) => ∀ off, t.probeByte off = s.probeByte off
    (ServesHost s 0x02000508 → ∀ k ∈ [(Instr.swapReplace p, 0), (.swapMerge p, 1), (.swapRemove p, (2 : Nat))],
      let job : Swap := ⟨256 + p.idx, k.2, copy Reg.FAB_SWAP_A_ROW, copy Reg.FAB_SWAP_A_COL, copy Reg.FAB_SWAP_A_LAYER,
        BitVec.ofNat 32 (copy Reg.FAB_SWAP_B_ENTRY)⟩
      (s.fab.hostSwaps.length < 4 →
        exec k.1 s = .next { s with fab := { s.fab with hostSwaps := s.fab.hostSwaps ++ [job] } }) ∧
      (4 ≤ s.fab.hostSwaps.length → SetsLive k.1 s s [(Reg.FAB_SWAP_CTL_REJ, 0, 0, 1)])) ∧
    (let l := s.layer y.layer
      let d := l.dir + 4 * (y.row * l.cols + y.col)
      let old := leNat (s.dramBytes d 4)
      let fits := y.layer < 12 ∧ l.en = true ∧ y.col < l.cols ∧ y.row < l.rows ∧ y.mode < 3 ∧
        (y.mode = 1 → l.cover = true ∧ 2 ^ 31 ≤ y.entry.toNat) ∧ s.power.bind ≠ .parkNext ∧ s.power.bind ≠ .linger
      let t := s.applySwap y
      sameProbes t ∧
        (¬ fits → t = { s with regs := t.regs, boot := t.boot } ∧ Raised s t 5 y.who (floorTo 64 s.now)) ∧
        (y.layer ∉ s.fab.spoiled → fits → y.mode ≠ 1 → DramSameBut s t d 4 ∧
          (∀ k, k < 4 → d + k < s.variant.dramBytes → (t.dramByte (d + k)).toNat =
            (if y.mode = 2 then old % 2 ^ 31 else y.entry.toNat) / 256 ^ k % 256) ∧
          t.fab.leaving = s.fab.leaving ++ (if 2 ^ 31 ≤ old ∧ old < 2 ^ 31 + 2 ^ 28 then
            [(if l.cover then old % 2 ^ 28 * 32768 else old % 2 ^ 28 / 4 * 131072, if l.cover then 32768 else 131072)]
            else []) ∧
          t.live Reg.FAB_SWAP_STAT_APPLIED = (s.live Reg.FAB_SWAP_STAT_APPLIED + 1) % 2 ^ 8)) ∧
    (ServesHost s 0x02000518 →
      let job := (copy Reg.FAB_COPY_A_LAYER, copy Reg.FAB_COPY_A_COL, copy Reg.FAB_COPY_A_ROW,
        copy Reg.FAB_COPY_B_DEST * 4096)
      (s.fab.copy = none → exec (.copyGo p) s = .next { s with fab := { s.fab with copy := some job } }) ∧
      (s.fab.copy ≠ none → SetsLive (.copyGo p) s s [(Reg.FAB_COPY_CTL_REJ, 0, 0, 1)])) ∧
    (rows → layer ∉ s.fab.spoiled → s.fab.copy = some (layer, col, row, dest) → s.fab.copyRes = some (res, false) →
      let l := s.layer layer
      let w := s.probeNat (l.dir + 4 * (row * l.cols + col)) 4 % 2 ^ 28
      let n := if l.cover then 32768 else 131072
      ∃ t, exec .copyDone s = .next t ∧
        t = { s with fab := { s.fab with
          dram := t.fab.dram, cache := t.fab.cache, copyRes := some (res, true) } } ∧
        (res ≠ 1 → t.fab.dram = s.fab.dram) ∧
        (res = 1 → DramSameBut s t dest n ∧ ∀ k, k < n → dest + k < s.variant.dramBytes →
          t.dramByte (dest + k) = s.probeByte ((if l.cover then w * 32768 else w / 4 * 131072) + k))) ∧
    (s.power.bind = .writeBack →
      ∃ t, exec .tileWritebackDone s = .next t ∧ t = { s with
          power := { s.power with bind := .parkNext }, fab := { s.fab with cache := t.fab.cache } } ∧
        t.fab.cache.map (fun l => l.line) = s.fab.cache.map (fun l => l.line) ∧ ∀ l ∈ t.fab.cache, l.back = []) ∧
    (rows → s.rpl.on = false →
      ((if s.fab.trailOld = none then s.fab.trail else s.fab.trailOld) = some x →
        ∃ t, exec .trailingWriteEnd s = .next t ∧ t.fab.trailOld = none ∧
        t.fab.trail = (if s.fab.trailOld = none then none else s.fab.trail) ∧
        t = { s with regs := t.regs, boot := t.boot, ple := t.ple, fab := t.fab, power := t.power } ∧
        (s.power.bind = .edges → 0 < sdiff s.power.lastTarget s.row.cur → t.fab.trail = none →
          t.power = { s.power with bind := .writeBack }) ∧
        (s.power.bind ≠ .edges ∨ ¬ 0 < sdiff s.power.lastTarget s.row.cur ∨ t.fab.trail ≠ none →
          t.power = s.power) ∧
        ((∀ q ∈ s.ple.queue, q.2.st = .committed ∨ q.2.st = .landed → q.2.resolved = true) →
          ∀ j ∈ s.defined, 2 ≤ (s.node j).kind →
            let from_ := ((s.nodeRt j).coverTo).getD x.from_
            (t.nodeRt j).coverTo = some (if 0 < sdiff from_ x.to_ then x.to_ else from_)) ∧
        (s.conf Reg.PLE_TRAIL_EN ≠ 1 → t.fab.dram = s.fab.dram) ∧
        (s.fab.spoiled = [] → s.conf Reg.FAB_CFG_AUTO = 0 → sameProbes t ∧ ∀ off, ∀ h ∈ [1, 16],
          let v := (s.dramByte off).toNat / h % 16
          let v' := (t.dramByte off).toNat / h % 16
          (14 ≤ v → v' = v) ∧ (v < 14 → v ≤ v' ∧ v' ≤ 14))) ∧
      (s.fab.trail = some x → x.late = true → exec .trailDeadline s = .next s) ∧
      (s.fab.trail = some x → x.late = false → ∃ t, exec .trailDeadline s = .next t ∧
        (s.reaches (s.row.next - 25600) = true → t.now = s.row.next - 25600) ∧
        t = { s with regs := t.regs, boot := t.boot, time := { s.time with dt := t.time.dt }
                     fab := { s.fab with trail := some { x with late := true } } } ∧
        t.live Reg.FAB_STAT_TRAIL_LATE = 1 ∧ Raised s t 19 0 (floorTo 64 t.now))) ∧
    (rows → c < 8 →
      ((∃ a ∈ (s.core c).moves, a.index < i ∧ a.stat = 2) → exec (.xferComplete c i) s = .next s) ∧
      ((s.core c).moves = [m] → m.index = i → m.stat = 2 → ∃ t, exec (.xferComplete c i) s = .next t ∧
        (m.out = false → ∃ d, t = { s with cores := t.cores, draws := t.draws } ∧
          t.core c = { s.core c with moves := [{ m with stat := 1, data := d }] } ∧ (∀ d, d ≠ c → t.core d = s.core d) ∧
          d.length = m.len ∧ ∀ k b, d[k]? = some b → s.shielded (m.off + k) = false →
            s.underWrite (m.off + k) = false → s.inSlots (m.off + k) = false → b = s.dramByte (m.off + k)) ∧
        (m.out = true → let within := fun (a b : Nat) => ∃ k, k < m.data.length ∧ a ≤ m.off + k ∧ m.off + k < b
          let reached := fun (f : Fld) => s.flag Reg.SYS_PWRSTAT_CAST_DONE = true ∧
            within (s.slotAt (s.live f)) (s.slotAt (s.live f + 1))
          t = { s with
            cores := t.cores, fab := { s.fab with dram := t.fab.dram, spoiled := t.fab.spoiled }, draws := t.draws
            skn := { s.skn with act := t.skn.act, prv := t.skn.prv, stg := t.skn.stg } } ∧
          (¬ reached Reg.SKN_SLOTS_ACT → t.skn.act = s.skn.act) ∧ (¬ reached Reg.SKN_SLOTS_PRV → t.skn.prv = s.skn.prv) ∧
          (¬ reached Reg.SKN_SLOTS_STG → t.skn.stg = s.skn.stg) ∧
          (∀ l, l ∈ t.fab.spoiled ↔ l ∈ s.fab.spoiled ∨
            (l < 12 ∧ ∃ k, k < m.data.length ∧ s.inLayer l (m.off + k) = true)) ∧
          t.core c = { s.core c with moves := [{ m with stat := 1 }] } ∧ (∀ d, d ≠ c → t.core d = s.core d) ∧
          DramSameBut s t m.off m.data.length ∧ ∀ k b, m.data[k]? = some b → m.off + k < s.variant.dramBytes →
            s.installed (m.off + k) = false → t.dramByte (m.off + k) = b))) ∧
    (ServesHost s 0x00180060 →
      let held := s.power.phase = .replayHold ∨ s.power.phase = .replayEnded ∨
        (s.power.phase = .failed ∧ s.time.valid = true ∧ 4 ≤ s.live Reg.SYS_BOOTSTAT_FAIL)
      let ctl := fun (t : State) (a : Nat) => t.live Reg.DXC_RPL_CTL_ARM = a ∧ t.live Reg.DXC_RPL_CTL_FINAL = final.toNat
      let keys := [Reg.DXC_RPL_CTL_ARM.key 0 0, Reg.DXC_RPL_CTL_FINAL.key 0 0]
      let casts := fun (t : State) (replay : Bool) => t.rpl.on = replay ∧
        t.power = { State.reset.power with
          phase := .castOn 6, pwren := s.power.pwren, resetN := s.power.resetN, supplies := s.power.supplies } ∧
        t.time.dt = s.time.dt ∧ t.time.valid = s.time.valid ∧ t.fab.dram = s.fab.dram ∧ t.aon = s.aon ∧
        t.pending = s.pending ∧ t.cores = [] ∧ t.ple = State.reset.ple ∧ t.skn.act = State.reset.skn.act
      (∃ t, exec (.replayGo p arm final) s = .next t ∧ ctl t arm.toNat ∧
        (rows → t = { s with regs := t.regs, power := { s.power with bindReplay := true } } ∧
          LiveSameBut s t keys) ∧
        (¬ rows → ¬ held → OnlyLive s t keys) ∧
        (held → arm = true → t = { s with
            regs := t.regs, rpl := { s.rpl with on := true }
            power := { s.power with phase := .replayHold, bind := .none, bindReplay := false } } ∧
          LiveSameBut s t (Reg.DXC_RPL_STAT_STATE.key 0 0 :: keys) ∧ t.live Reg.DXC_RPL_STAT_STATE = 1) ∧
        (held → arm = false → casts t false ∧ t.live Reg.DXC_RPL_STAT_STATE = 0)) ∧
      (∃ t, exec (.replayLoaded p final) s = .next t ∧ ctl t 1 ∧
        (s.power.phase ≠ .replayHold → OnlyLive s t keys) ∧
        (s.power.phase = .replayHold → casts t s.rpl.on)))

/-! ### The row boundary -/

/-- The four steps of a boundary: number, stamps and period of the row, the end of a request, the samples of the
snapshot, the row tasks; row 0; the first boundary after DOZE; the parking of the banks and the end of the linger (R22
to R24, R28, R49, R61, R62, R64, R67, R79, R103, R404, R405); the skeins are stated where no outbound transfer is under
way, which could overwrite one. On an empty queue a TCLK cycle passes: that is the model's
choice.
Where it goes beyond the rules it rests on log entries 1, 5, 34, 35, 36, 55 and 65. -/
def Obligations.RowBoundaryAndIdleCycle : Prop :=
  ∀ (s : State) (c : Nat) (q : Request), s.rpl.on = false →
    let b := s.row.next
    let new := s.row.num + 1
    let still := ∀ d, ∀ m ∈ (s.core d).moves, m.stat = 2 → m.out = false
    let quiet := s.skn.req = none ∧ ∀ d, (s.core d).outs = []
    (s.pending = [] → step s = .next { s with
      time := { s.time with dt := if s.time.valid then s.time.dt + 64 else s.time.dt } }) ∧
    (s.power.phase ≠ .rows → s.power.phase ≠ .waitRow0 → s.power.phase ≠ .doze → exec .rowBoundary s = .next s) ∧
    (s.power.phase = .doze → s.power.ungated = false → exec .rowBoundary s = .next s) ∧
    (s.power.phase = .rows → s.row.started = true → s.power.bind ≠ .linger → s.power.bind ≠ .parkNext →
      ∃ t, exec .rowBoundary s = .next t ∧ t.power.phase = .rows ∧ t.pending = s.pending ∧
        t.row = ⟨new, b, s.row.cur, b + BitVec.ofNat 64 (t.row.k * 6400000), t.row.k, true⟩ ∧
        (s.reaches b = true → t.now = b + 25600) ∧
        (c < s.variant.cores → t.live Reg.DXC_ROWNUM_ROW c = new.toNat ∧
          t.live64 Reg.DXC_ROWSTAMP_LO_STAMP Reg.DXC_ROWSTAMP_HI_STAMP c = b.toNat) ∧
        (still → (∀ r, s.skn.req = some r → r.named ≠ new) → t.skn.act = s.skn.act ∧ t.skn.prv = s.skn.prv ∧ t.row.k = s.row.k) ∧
        (still → s.skn.req = some q → q.named = new → q.outcome ≠ none →
          (q.outcome = some 0 → t.row.k = t.skn.act.rowK ∧
            t.skn.act = (if q.rollback then s.skn.prv else s.skn.stg) ∧
            t.skn.prv = (if q.rollback then s.skn.stg else s.skn.act)) ∧
          (q.outcome ≠ some 0 → t.skn.act = s.skn.act ∧ t.skn.prv = s.skn.prv ∧
            ((∀ d, (s.core d).outs = []) → t.skn.req = none ∧ t.live Reg.SKN_STAT_PENDING = 0))) ∧
        (s.inp.done = [] → ∀ id : InputId, id.toNat / 2 ^ 16 ∈ [4, 5, 6, 8, 10] →
          let l := s.inp.pend.filter (fun x => decide (x.id = id) && sAtOrBefore x.adm b)
          (l = [] → Tab.get [] t.snap.samples id.toNat = (Tab.get [] s.snap.samples id.toNat).getLast?.toList) ∧
          (l ≠ [] → Tab.get [] t.snap.samples id.toNat =
            (sortBy (fun x y => sAtOrBefore x.src y.src) l).drop (l.length - 64))) ∧
        (quiet → c < s.variant.cores → s.conf Reg.DXC_CFG_EN c = 1 → (∀ k, k < 8 → s.conf Reg.DXC_ETASK_EN c k ≠ 1) →
          (s.core c).run = .idle → (s.core c).reload = false → (s.core c).heldSnap = none →
          (t.core c).run = .task 8 ∧ (t.core c).pc = s.conf Reg.DXC_ENTRY_ENTRY c ∧ (t.core c).used = 0 ∧
          (t.core c).gpr = (s.core c).gpr)) ∧
    (s.power.phase = .waitRow0 → s.row.started = false → s.power.bind = .none →
      ∃ t, exec .rowBoundary s = .next t ∧ t.power.phase = .rows ∧ (still → t.skn.act = s.skn.act) ∧
        t.row = ⟨s.row.num, b, b, b + BitVec.ofNat 64 (s.row.k * 6400000), s.row.k, true⟩ ∧
        t.live Reg.SYS_PWRSTAT_CAST_DONE = 1 ∧ t.live Reg.SYS_PWRSTAT_CUR = s.conf Reg.SYS_MODE_WORK % 16 ∧
        t.live64 Reg.DXC_ROW0_LO_STAMP Reg.DXC_ROW0_HI_STAMP = b.toNat ∧ (s.reaches b = true → t.now = b + 25600)) ∧
    (s.power.phase = .doze → s.power.ungated = true → s.row.started = true → s.skn.req = none →
      ∃ t, exec .rowBoundary s = .next t ∧ t.power.phase = .rows ∧ t.power.bind = .none ∧ t.power.ungated = false ∧
        t.row = ⟨new, b, s.row.cur, b + BitVec.ofNat 64 (s.row.k * 6400000), s.row.k, true⟩ ∧
        t.live Reg.SYS_PWRSTAT_CUR = s.conf Reg.SYS_MODE_RESUME % 16) ∧
    (s.power.phase = .rows → s.row.started = true → quiet → s.power.bindReplay = false →
      ∃ t, exec .rowBoundary s = .next t ∧
        (s.power.bind = .parkNext → s.power.lingerOver = false → 0 < s.conf Reg.SYS_MODE_LINGER → s.conf Reg.SYS_MODE_LINGER < 2 ^ 16 →
          t.power.bind = .linger ∧ t.power.lingerFrom = b ∧ t.live Reg.SYS_PWRSTAT_BINDOFF = 0 ∧
          t.live Reg.SYS_PWRSTAT_LINGER = 1 ∧ t.live Reg.SYS_PWRSTAT_BANK_READY = 0 ∧ t.row.num = new ∧
          t.row.cur = b) ∧
        (s.power.bind = .linger → s.power.lingerOver = true →
          (s.live Reg.SYS_PWRSTAT_CUR = 5 → t.power.phase = .doze ∧ t.power.bind = .none ∧
            t.live Reg.SYS_PWRSTAT_LINGER = 0) ∧
          (s.live Reg.SYS_PWRSTAT_CUR = 6 → t.power.phase = .unpowered ∧ t.power.pwren = false)))
end

