-- ==== Sys2Proof/Laws/Tab.lean ====
section
/-! SUPPORT. What reading, writing and clearing a sparse table do, and that they keep its canonical
form. -/

namespace Sys2Proof.Machine

variable {α : Type}

theorem Tab.get_without_same (d : α) (x : Nat) (t : Tab α) : Tab.get d (Tab.without x t) x = d := by
  induction t with
  | nil => rfl
  | cons p t ih =>
    obtain ⟨k, w⟩ := p
    by_cases h : k = x
    · simpa [Tab.without, h] using ih
    · have hx : ¬ x = k := fun e => h e.symm
      simpa [Tab.without, h, Tab.get, hx] using ih

theorem Tab.get_without_ne (d : α) {x y : Nat} (hxy : y ≠ x) (t : Tab α) :
    Tab.get d (Tab.without x t) y = Tab.get d t y := by
  induction t with
  | nil => rfl
  | cons p t ih =>
    obtain ⟨k, w⟩ := p
    by_cases h : k = x
    · have hy : ¬ y = k := fun e => hxy (e.trans h)
      simpa [Tab.without, h, Tab.get, hy, hxy] using ih
    · by_cases hy : y = k
      · simp [Tab.without, h, Tab.get, hy]
      · simpa [Tab.without, h, Tab.get, hy] using ih

variable [DecidableEq α]

/-- What is written is what is read. -/
@[simp] theorem Tab.get_put_same (d : α) (t : Tab α) (x : Nat) (v : α) :
    Tab.get d (Tab.put d t x v) x = v := by
  induction t with
  | nil => by_cases h : v = d <;> simp [Tab.put, Tab.get, h]
  | cons p t ih =>
    obtain ⟨k, w⟩ := p
    by_cases h1 : x < k
    · by_cases h : v = d
      · subst h; simpa [Tab.put, h1] using Tab.get_without_same _ x ((k, w) :: t)
      · simp [Tab.put, h1, h, Tab.get]
    · by_cases h2 : x = k
      · by_cases h : v = d
        · subst h; simpa [Tab.put, h2] using Tab.get_without_same _ k t
        · simp [Tab.put, h2, h, Tab.get]
      · simpa [Tab.put, h1, h2, Tab.get] using ih

/-- A write leaves every other key alone, whatever an unlisted key reads as. -/
theorem Tab.get_put_ne' (d e : α) (t : Tab α) {x y : Nat} (hxy : y ≠ x) (v : α) :
    Tab.get e (Tab.put d t x v) y = Tab.get e t y := by
  induction t with
  | nil => by_cases h : v = d <;> simp [Tab.put, Tab.get, h, hxy]
  | cons p t ih =>
    obtain ⟨k, w⟩ := p
    by_cases h1 : x < k
    · by_cases h : v = d
      · simpa [Tab.put, h1, h] using Tab.get_without_ne e hxy ((k, w) :: t)
      · simpa [Tab.put, h1, h, Tab.get, hxy] using Tab.get_without_ne e hxy ((k, w) :: t)
    · by_cases h2 : x = k
      · subst h2
        by_cases h : v = d
        · simpa [Tab.put, h, Tab.get, hxy] using Tab.get_without_ne e hxy t
        · simpa [Tab.put, h, Tab.get, hxy] using Tab.get_without_ne e hxy t
      · by_cases hy : y = k
        · simp [Tab.put, h1, h2, Tab.get, hy]
        · simpa [Tab.put, h1, h2, Tab.get, hy] using ih

/-- A write leaves every other key alone. -/
theorem Tab.get_put_ne (d : α) (t : Tab α) {x y : Nat} (hxy : y ≠ x) (v : α) :
    Tab.get d (Tab.put d t x v) y = Tab.get d t y := Tab.get_put_ne' d d t hxy v

/-- Reading after a write, in one equation. -/
theorem Tab.get_put (d : α) (t : Tab α) (x y : Nat) (v : α) :
    Tab.get d (Tab.put d t x v) y = if y = x then v else Tab.get d t y := by
  by_cases h : y = x
  · subst h; simp
  · simp [h, Tab.get_put_ne d t h]

theorem Tab.wfFrom_mono (d : α) {lo lo' : Nat} (h : lo ≤ lo') {t : Tab α} (ht : Tab.wfFrom d lo' t) :
    Tab.wfFrom d lo t := by
  cases t with
  | nil => rfl
  | cons p t => simp [Tab.wfFrom] at ht ⊢; exact ⟨⟨by omega, ht.1.2⟩, ht.2⟩

theorem Tab.without_of_wfFrom (d : α) {x lo : Nat} (h : x < lo) {t : Tab α} (ht : Tab.wfFrom d lo t) :
    Tab.without x t = t := by
  induction t generalizing lo with
  | nil => rfl
  | cons p t ih =>
    simp [Tab.wfFrom] at ht
    have hk : ¬ p.1 = x := by omega
    simp only [Tab.without, List.filter_cons, hk, ne_eq, not_false_eq_true, decide_true, if_true]
    congr 1
    exact ih (by omega : x < p.1 + 1) ht.2

theorem Tab.wfFrom_put (d : α) {lo x : Nat} (hlo : lo ≤ x) (v : α) {t : Tab α}
    (ht : Tab.wfFrom d lo t) : Tab.wfFrom d lo (Tab.put d t x v) := by
  induction t generalizing lo with
  | nil => by_cases h : v = d <;> simp [Tab.put, Tab.wfFrom, h, hlo]
  | cons p t ih =>
    obtain ⟨k, w⟩ := p
    have ht' := ht
    simp only [Tab.wfFrom, Bool.and_eq_true, decide_eq_true_eq] at ht
    obtain ⟨⟨h0, hw⟩, ht⟩ := ht
    by_cases h1 : x < k
    · have hwo : Tab.without x ((k, w) :: t) = (k, w) :: t := by
        have : Tab.wfFrom d k ((k, w) :: t) := by simp [Tab.wfFrom, hw, ht]
        exact Tab.without_of_wfFrom d h1 this
      by_cases h : v = d
      · simp only [Tab.put, h1, h, if_true, hwo]; exact ht'
      · simp only [Tab.put, h1, h, if_true, if_false, hwo]
        simp [Tab.wfFrom, hlo, h, hw, ht]; omega
    · by_cases h2 : x = k
      · subst h2
        have hwo : Tab.without x t = t := Tab.without_of_wfFrom d (Nat.lt_succ_self x) ht
        by_cases h : v = d
        · simp only [Tab.put, lt_irrefl, if_false, h, if_true, hwo]
          exact Tab.wfFrom_mono d (by omega) ht
        · simp only [Tab.put, lt_irrefl, if_false, h, if_true, hwo]
          simp [Tab.wfFrom, hlo, h, ht]
      · simp only [Tab.put, h1, h2, if_false]
        simp only [Tab.wfFrom, Bool.and_eq_true, decide_eq_true_eq]
        exact ⟨⟨h0, hw⟩, ih (by omega) ht⟩

/-- A write keeps the canonical form. -/
theorem Tab.wf_put (d : α) {t : Tab α} (x : Nat) (v : α) (ht : Tab.wf d t) :
    Tab.wf d (Tab.put d t x v) := Tab.wfFrom_put d (Nat.zero_le x) v ht

theorem Tab.wfFrom_filter (d : α) (q : Nat × α → Bool) {lo : Nat} {t : Tab α}
    (ht : Tab.wfFrom d lo t) : Tab.wfFrom d lo (t.filter q) := by
  induction t generalizing lo with
  | nil => rfl
  | cons p t ih =>
    simp only [Tab.wfFrom, Bool.and_eq_true, decide_eq_true_eq] at ht
    by_cases hq : q p
    · simp only [List.filter_cons, hq, if_true, Tab.wfFrom, Bool.and_eq_true, decide_eq_true_eq]
      exact ⟨ht.1, ih ht.2⟩
    · simp only [List.filter_cons, hq]
      exact Tab.wfFrom_mono d (by omega) (ih ht.2)

/-- Clearing a range keeps the canonical form. -/
theorem Tab.wf_clearRange (d : α) {t : Tab α} (lo hi : Nat) (ht : Tab.wf d t) :
    Tab.wf d (Tab.clearRange t lo hi) := Tab.wfFrom_filter d _ ht

/-- A table with one entry, above the default, is canonical; so is the empty one. -/
theorem Tab.wf_nil (d : α) : Tab.wf d ([] : Tab α) = true := rfl

end Sys2Proof.Machine
end

