-- ==== Sys2Proof/Laws/State.lean ====
section
/-! SUPPORT. What the shared updates of the state leave alone: one lemma for each field and update, so that
no proof unfolds a record update; and what is read after a field, a core, a node or an entry is written. -/

namespace Sys2Proof.Machine

@[simp] theorem State.setCore_variant (s : State) (n : Nat) (c : Core) :
    (s.setCore n c).variant = s.variant := rfl
@[simp] theorem State.setCore_power (s : State) (n : Nat) (c : Core) :
    (s.setCore n c).power = s.power := rfl
@[simp] theorem State.setCore_time (s : State) (n : Nat) (c : Core) :
    (s.setCore n c).time = s.time := rfl
@[simp] theorem State.setCore_row (s : State) (n : Nat) (c : Core) :
    (s.setCore n c).row = s.row := rfl
@[simp] theorem State.setCore_regs (s : State) (n : Nat) (c : Core) :
    (s.setCore n c).regs = s.regs := rfl
@[simp] theorem State.setCore_stage (s : State) (n : Nat) (c : Core) :
    (s.setCore n c).stage = s.stage := rfl
@[simp] theorem State.setCore_win (s : State) (n : Nat) (c : Core) :
    (s.setCore n c).win = s.win := rfl
@[simp] theorem State.setCore_skn (s : State) (n : Nat) (c : Core) :
    (s.setCore n c).skn = s.skn := rfl
@[simp] theorem State.setCore_snap (s : State) (n : Nat) (c : Core) :
    (s.setCore n c).snap = s.snap := rfl
@[simp] theorem State.setCore_ple (s : State) (n : Nat) (c : Core) :
    (s.setCore n c).ple = s.ple := rfl
@[simp] theorem State.setCore_kw (s : State) (n : Nat) (c : Core) :
    (s.setCore n c).kw = s.kw := rfl
@[simp] theorem State.setCore_fab (s : State) (n : Nat) (c : Core) :
    (s.setCore n c).fab = s.fab := rfl
@[simp] theorem State.setCore_etu (s : State) (n : Nat) (c : Core) :
    (s.setCore n c).etu = s.etu := rfl
@[simp] theorem State.setCore_dsl (s : State) (n : Nat) (c : Core) :
    (s.setCore n c).dsl = s.dsl := rfl
@[simp] theorem State.setCore_loops (s : State) (n : Nat) (c : Core) :
    (s.setCore n c).loops = s.loops := rfl
@[simp] theorem State.setCore_gnb (s : State) (n : Nat) (c : Core) :
    (s.setCore n c).gnb = s.gnb := rfl
@[simp] theorem State.setCore_fge (s : State) (n : Nat) (c : Core) :
    (s.setCore n c).fge = s.fge := rfl
@[simp] theorem State.setCore_cans (s : State) (n : Nat) (c : Core) :
    (s.setCore n c).cans = s.cans := rfl
@[simp] theorem State.setCore_eths (s : State) (n : Nat) (c : Core) :
    (s.setCore n c).eths = s.eths := rfl
@[simp] theorem State.setCore_inp (s : State) (n : Nat) (c : Core) :
    (s.setCore n c).inp = s.inp := rfl
@[simp] theorem State.setCore_aon (s : State) (n : Nat) (c : Core) :
    (s.setCore n c).aon = s.aon := rfl
@[simp] theorem State.setCore_boot (s : State) (n : Nat) (c : Core) :
    (s.setCore n c).boot = s.boot := rfl
@[simp] theorem State.setCore_rpl (s : State) (n : Nat) (c : Core) :
    (s.setCore n c).rpl = s.rpl := rfl
@[simp] theorem State.setCore_draws (s : State) (n : Nat) (c : Core) :
    (s.setCore n c).draws = s.draws := rfl
@[simp] theorem State.setCore_hostData (s : State) (n : Nat) (c : Core) :
    (s.setCore n c).hostData = s.hostData := rfl
@[simp] theorem State.setCore_pending (s : State) (n : Nat) (c : Core) :
    (s.setCore n c).pending = s.pending := rfl

@[simp] theorem State.setNodeRt_variant (s : State) (n : Nat) (r : NodeRt) :
    (s.setNodeRt n r).variant = s.variant := rfl
@[simp] theorem State.setNodeRt_power (s : State) (n : Nat) (r : NodeRt) :
    (s.setNodeRt n r).power = s.power := rfl
@[simp] theorem State.setNodeRt_time (s : State) (n : Nat) (r : NodeRt) :
    (s.setNodeRt n r).time = s.time := rfl
@[simp] theorem State.setNodeRt_row (s : State) (n : Nat) (r : NodeRt) :
    (s.setNodeRt n r).row = s.row := rfl
@[simp] theorem State.setNodeRt_regs (s : State) (n : Nat) (r : NodeRt) :
    (s.setNodeRt n r).regs = s.regs := rfl
@[simp] theorem State.setNodeRt_stage (s : State) (n : Nat) (r : NodeRt) :
    (s.setNodeRt n r).stage = s.stage := rfl
@[simp] theorem State.setNodeRt_win (s : State) (n : Nat) (r : NodeRt) :
    (s.setNodeRt n r).win = s.win := rfl
@[simp] theorem State.setNodeRt_skn (s : State) (n : Nat) (r : NodeRt) :
    (s.setNodeRt n r).skn = s.skn := rfl
@[simp] theorem State.setNodeRt_snap (s : State) (n : Nat) (r : NodeRt) :
    (s.setNodeRt n r).snap = s.snap := rfl
@[simp] theorem State.setNodeRt_cores (s : State) (n : Nat) (r : NodeRt) :
    (s.setNodeRt n r).cores = s.cores := rfl
@[simp] theorem State.setNodeRt_kw (s : State) (n : Nat) (r : NodeRt) :
    (s.setNodeRt n r).kw = s.kw := rfl
@[simp] theorem State.setNodeRt_fab (s : State) (n : Nat) (r : NodeRt) :
    (s.setNodeRt n r).fab = s.fab := rfl
@[simp] theorem State.setNodeRt_etu (s : State) (n : Nat) (r : NodeRt) :
    (s.setNodeRt n r).etu = s.etu := rfl
@[simp] theorem State.setNodeRt_dsl (s : State) (n : Nat) (r : NodeRt) :
    (s.setNodeRt n r).dsl = s.dsl := rfl
@[simp] theorem State.setNodeRt_loops (s : State) (n : Nat) (r : NodeRt) :
    (s.setNodeRt n r).loops = s.loops := rfl
@[simp] theorem State.setNodeRt_gnb (s : State) (n : Nat) (r : NodeRt) :
    (s.setNodeRt n r).gnb = s.gnb := rfl
@[simp] theorem State.setNodeRt_fge (s : State) (n : Nat) (r : NodeRt) :
    (s.setNodeRt n r).fge = s.fge := rfl
@[simp] theorem State.setNodeRt_cans (s : State) (n : Nat) (r : NodeRt) :
    (s.setNodeRt n r).cans = s.cans := rfl
@[simp] theorem State.setNodeRt_eths (s : State) (n : Nat) (r : NodeRt) :
    (s.setNodeRt n r).eths = s.eths := rfl
@[simp] theorem State.setNodeRt_inp (s : State) (n : Nat) (r : NodeRt) :
    (s.setNodeRt n r).inp = s.inp := rfl
@[simp] theorem State.setNodeRt_aon (s : State) (n : Nat) (r : NodeRt) :
    (s.setNodeRt n r).aon = s.aon := rfl
@[simp] theorem State.setNodeRt_boot (s : State) (n : Nat) (r : NodeRt) :
    (s.setNodeRt n r).boot = s.boot := rfl
@[simp] theorem State.setNodeRt_rpl (s : State) (n : Nat) (r : NodeRt) :
    (s.setNodeRt n r).rpl = s.rpl := rfl
@[simp] theorem State.setNodeRt_draws (s : State) (n : Nat) (r : NodeRt) :
    (s.setNodeRt n r).draws = s.draws := rfl
@[simp] theorem State.setNodeRt_hostData (s : State) (n : Nat) (r : NodeRt) :
    (s.setNodeRt n r).hostData = s.hostData := rfl
@[simp] theorem State.setNodeRt_pending (s : State) (n : Nat) (r : NodeRt) :
    (s.setNodeRt n r).pending = s.pending := rfl

@[simp] theorem State.setEntry_variant (s : State) (i : Nat) (e : QEntry) :
    (s.setEntry i e).variant = s.variant := rfl
@[simp] theorem State.setEntry_power (s : State) (i : Nat) (e : QEntry) :
    (s.setEntry i e).power = s.power := rfl
@[simp] theorem State.setEntry_time (s : State) (i : Nat) (e : QEntry) :
    (s.setEntry i e).time = s.time := rfl
@[simp] theorem State.setEntry_row (s : State) (i : Nat) (e : QEntry) :
    (s.setEntry i e).row = s.row := rfl
@[simp] theorem State.setEntry_regs (s : State) (i : Nat) (e : QEntry) :
    (s.setEntry i e).regs = s.regs := rfl
@[simp] theorem State.setEntry_stage (s : State) (i : Nat) (e : QEntry) :
    (s.setEntry i e).stage = s.stage := rfl
@[simp] theorem State.setEntry_win (s : State) (i : Nat) (e : QEntry) :
    (s.setEntry i e).win = s.win := rfl
@[simp] theorem State.setEntry_skn (s : State) (i : Nat) (e : QEntry) :
    (s.setEntry i e).skn = s.skn := rfl
@[simp] theorem State.setEntry_snap (s : State) (i : Nat) (e : QEntry) :
    (s.setEntry i e).snap = s.snap := rfl
@[simp] theorem State.setEntry_cores (s : State) (i : Nat) (e : QEntry) :
    (s.setEntry i e).cores = s.cores := rfl
@[simp] theorem State.setEntry_kw (s : State) (i : Nat) (e : QEntry) :
    (s.setEntry i e).kw = s.kw := rfl
@[simp] theorem State.setEntry_fab (s : State) (i : Nat) (e : QEntry) :
    (s.setEntry i e).fab = s.fab := rfl
@[simp] theorem State.setEntry_etu (s : State) (i : Nat) (e : QEntry) :
    (s.setEntry i e).etu = s.etu := rfl
@[simp] theorem State.setEntry_dsl (s : State) (i : Nat) (e : QEntry) :
    (s.setEntry i e).dsl = s.dsl := rfl
@[simp] theorem State.setEntry_loops (s : State) (i : Nat) (e : QEntry) :
    (s.setEntry i e).loops = s.loops := rfl
@[simp] theorem State.setEntry_gnb (s : State) (i : Nat) (e : QEntry) :
    (s.setEntry i e).gnb = s.gnb := rfl
@[simp] theorem State.setEntry_fge (s : State) (i : Nat) (e : QEntry) :
    (s.setEntry i e).fge = s.fge := rfl
@[simp] theorem State.setEntry_cans (s : State) (i : Nat) (e : QEntry) :
    (s.setEntry i e).cans = s.cans := rfl
@[simp] theorem State.setEntry_eths (s : State) (i : Nat) (e : QEntry) :
    (s.setEntry i e).eths = s.eths := rfl
@[simp] theorem State.setEntry_inp (s : State) (i : Nat) (e : QEntry) :
    (s.setEntry i e).inp = s.inp := rfl
@[simp] theorem State.setEntry_aon (s : State) (i : Nat) (e : QEntry) :
    (s.setEntry i e).aon = s.aon := rfl
@[simp] theorem State.setEntry_boot (s : State) (i : Nat) (e : QEntry) :
    (s.setEntry i e).boot = s.boot := rfl
@[simp] theorem State.setEntry_rpl (s : State) (i : Nat) (e : QEntry) :
    (s.setEntry i e).rpl = s.rpl := rfl
@[simp] theorem State.setEntry_draws (s : State) (i : Nat) (e : QEntry) :
    (s.setEntry i e).draws = s.draws := rfl
@[simp] theorem State.setEntry_hostData (s : State) (i : Nat) (e : QEntry) :
    (s.setEntry i e).hostData = s.hostData := rfl
@[simp] theorem State.setEntry_pending (s : State) (i : Nat) (e : QEntry) :
    (s.setEntry i e).pending = s.pending := rfl

@[simp] theorem State.setLive_variant (s : State) (f : Fld) (v i j : Nat) :
    (s.setLive f v i j).variant = s.variant := rfl
@[simp] theorem State.setLive_power (s : State) (f : Fld) (v i j : Nat) :
    (s.setLive f v i j).power = s.power := rfl
@[simp] theorem State.setLive_time (s : State) (f : Fld) (v i j : Nat) :
    (s.setLive f v i j).time = s.time := rfl
@[simp] theorem State.setLive_row (s : State) (f : Fld) (v i j : Nat) :
    (s.setLive f v i j).row = s.row := rfl
@[simp] theorem State.setLive_stage (s : State) (f : Fld) (v i j : Nat) :
    (s.setLive f v i j).stage = s.stage := rfl
@[simp] theorem State.setLive_win (s : State) (f : Fld) (v i j : Nat) :
    (s.setLive f v i j).win = s.win := rfl
@[simp] theorem State.setLive_skn (s : State) (f : Fld) (v i j : Nat) :
    (s.setLive f v i j).skn = s.skn := rfl
@[simp] theorem State.setLive_snap (s : State) (f : Fld) (v i j : Nat) :
    (s.setLive f v i j).snap = s.snap := rfl
@[simp] theorem State.setLive_cores (s : State) (f : Fld) (v i j : Nat) :
    (s.setLive f v i j).cores = s.cores := rfl
@[simp] theorem State.setLive_ple (s : State) (f : Fld) (v i j : Nat) :
    (s.setLive f v i j).ple = s.ple := rfl
@[simp] theorem State.setLive_kw (s : State) (f : Fld) (v i j : Nat) :
    (s.setLive f v i j).kw = s.kw := rfl
@[simp] theorem State.setLive_fab (s : State) (f : Fld) (v i j : Nat) :
    (s.setLive f v i j).fab = s.fab := rfl
@[simp] theorem State.setLive_etu (s : State) (f : Fld) (v i j : Nat) :
    (s.setLive f v i j).etu = s.etu := rfl
@[simp] theorem State.setLive_dsl (s : State) (f : Fld) (v i j : Nat) :
    (s.setLive f v i j).dsl = s.dsl := rfl
@[simp] theorem State.setLive_loops (s : State) (f : Fld) (v i j : Nat) :
    (s.setLive f v i j).loops = s.loops := rfl
@[simp] theorem State.setLive_gnb (s : State) (f : Fld) (v i j : Nat) :
    (s.setLive f v i j).gnb = s.gnb := rfl
@[simp] theorem State.setLive_fge (s : State) (f : Fld) (v i j : Nat) :
    (s.setLive f v i j).fge = s.fge := rfl
@[simp] theorem State.setLive_cans (s : State) (f : Fld) (v i j : Nat) :
    (s.setLive f v i j).cans = s.cans := rfl
@[simp] theorem State.setLive_eths (s : State) (f : Fld) (v i j : Nat) :
    (s.setLive f v i j).eths = s.eths := rfl
@[simp] theorem State.setLive_inp (s : State) (f : Fld) (v i j : Nat) :
    (s.setLive f v i j).inp = s.inp := rfl
@[simp] theorem State.setLive_aon (s : State) (f : Fld) (v i j : Nat) :
    (s.setLive f v i j).aon = s.aon := rfl
@[simp] theorem State.setLive_boot (s : State) (f : Fld) (v i j : Nat) :
    (s.setLive f v i j).boot = s.boot := rfl
@[simp] theorem State.setLive_rpl (s : State) (f : Fld) (v i j : Nat) :
    (s.setLive f v i j).rpl = s.rpl := rfl
@[simp] theorem State.setLive_draws (s : State) (f : Fld) (v i j : Nat) :
    (s.setLive f v i j).draws = s.draws := rfl
@[simp] theorem State.setLive_hostData (s : State) (f : Fld) (v i j : Nat) :
    (s.setLive f v i j).hostData = s.hostData := rfl
@[simp] theorem State.setLive_pending (s : State) (f : Fld) (v i j : Nat) :
    (s.setLive f v i j).pending = s.pending := rfl

@[simp] theorem State.setLive64_variant (s : State) (lo hi : Fld) (v i : Nat) :
    (s.setLive64 lo hi v i).variant = s.variant := rfl
@[simp] theorem State.setLive64_power (s : State) (lo hi : Fld) (v i : Nat) :
    (s.setLive64 lo hi v i).power = s.power := rfl
@[simp] theorem State.setLive64_time (s : State) (lo hi : Fld) (v i : Nat) :
    (s.setLive64 lo hi v i).time = s.time := rfl
@[simp] theorem State.setLive64_row (s : State) (lo hi : Fld) (v i : Nat) :
    (s.setLive64 lo hi v i).row = s.row := rfl
@[simp] theorem State.setLive64_stage (s : State) (lo hi : Fld) (v i : Nat) :
    (s.setLive64 lo hi v i).stage = s.stage := rfl
@[simp] theorem State.setLive64_win (s : State) (lo hi : Fld) (v i : Nat) :
    (s.setLive64 lo hi v i).win = s.win := rfl
@[simp] theorem State.setLive64_skn (s : State) (lo hi : Fld) (v i : Nat) :
    (s.setLive64 lo hi v i).skn = s.skn := rfl
@[simp] theorem State.setLive64_snap (s : State) (lo hi : Fld) (v i : Nat) :
    (s.setLive64 lo hi v i).snap = s.snap := rfl
@[simp] theorem State.setLive64_cores (s : State) (lo hi : Fld) (v i : Nat) :
    (s.setLive64 lo hi v i).cores = s.cores := rfl
@[simp] theorem State.setLive64_ple (s : State) (lo hi : Fld) (v i : Nat) :
    (s.setLive64 lo hi v i).ple = s.ple := rfl
@[simp] theorem State.setLive64_kw (s : State) (lo hi : Fld) (v i : Nat) :
    (s.setLive64 lo hi v i).kw = s.kw := rfl
@[simp] theorem State.setLive64_fab (s : State) (lo hi : Fld) (v i : Nat) :
    (s.setLive64 lo hi v i).fab = s.fab := rfl
@[simp] theorem State.setLive64_etu (s : State) (lo hi : Fld) (v i : Nat) :
    (s.setLive64 lo hi v i).etu = s.etu := rfl
@[simp] theorem State.setLive64_dsl (s : State) (lo hi : Fld) (v i : Nat) :
    (s.setLive64 lo hi v i).dsl = s.dsl := rfl
@[simp] theorem State.setLive64_loops (s : State) (lo hi : Fld) (v i : Nat) :
    (s.setLive64 lo hi v i).loops = s.loops := rfl
@[simp] theorem State.setLive64_gnb (s : State) (lo hi : Fld) (v i : Nat) :
    (s.setLive64 lo hi v i).gnb = s.gnb := rfl
@[simp] theorem State.setLive64_fge (s : State) (lo hi : Fld) (v i : Nat) :
    (s.setLive64 lo hi v i).fge = s.fge := rfl
@[simp] theorem State.setLive64_cans (s : State) (lo hi : Fld) (v i : Nat) :
    (s.setLive64 lo hi v i).cans = s.cans := rfl
@[simp] theorem State.setLive64_eths (s : State) (lo hi : Fld) (v i : Nat) :
    (s.setLive64 lo hi v i).eths = s.eths := rfl
@[simp] theorem State.setLive64_inp (s : State) (lo hi : Fld) (v i : Nat) :
    (s.setLive64 lo hi v i).inp = s.inp := rfl
@[simp] theorem State.setLive64_aon (s : State) (lo hi : Fld) (v i : Nat) :
    (s.setLive64 lo hi v i).aon = s.aon := rfl
@[simp] theorem State.setLive64_boot (s : State) (lo hi : Fld) (v i : Nat) :
    (s.setLive64 lo hi v i).boot = s.boot := rfl
@[simp] theorem State.setLive64_rpl (s : State) (lo hi : Fld) (v i : Nat) :
    (s.setLive64 lo hi v i).rpl = s.rpl := rfl
@[simp] theorem State.setLive64_draws (s : State) (lo hi : Fld) (v i : Nat) :
    (s.setLive64 lo hi v i).draws = s.draws := rfl
@[simp] theorem State.setLive64_hostData (s : State) (lo hi : Fld) (v i : Nat) :
    (s.setLive64 lo hi v i).hostData = s.hostData := rfl
@[simp] theorem State.setLive64_pending (s : State) (lo hi : Fld) (v i : Nat) :
    (s.setLive64 lo hi v i).pending = s.pending := rfl

@[simp] theorem State.bump_variant (s : State) (f : Fld) (i : Nat) :
    (s.bump f i).variant = s.variant := rfl
@[simp] theorem State.bump_power (s : State) (f : Fld) (i : Nat) :
    (s.bump f i).power = s.power := rfl
@[simp] theorem State.bump_time (s : State) (f : Fld) (i : Nat) :
    (s.bump f i).time = s.time := rfl
@[simp] theorem State.bump_row (s : State) (f : Fld) (i : Nat) :
    (s.bump f i).row = s.row := rfl
@[simp] theorem State.bump_stage (s : State) (f : Fld) (i : Nat) :
    (s.bump f i).stage = s.stage := rfl
@[simp] theorem State.bump_win (s : State) (f : Fld) (i : Nat) :
    (s.bump f i).win = s.win := rfl
@[simp] theorem State.bump_skn (s : State) (f : Fld) (i : Nat) :
    (s.bump f i).skn = s.skn := rfl
@[simp] theorem State.bump_snap (s : State) (f : Fld) (i : Nat) :
    (s.bump f i).snap = s.snap := rfl
@[simp] theorem State.bump_cores (s : State) (f : Fld) (i : Nat) :
    (s.bump f i).cores = s.cores := rfl
@[simp] theorem State.bump_ple (s : State) (f : Fld) (i : Nat) :
    (s.bump f i).ple = s.ple := rfl
@[simp] theorem State.bump_kw (s : State) (f : Fld) (i : Nat) :
    (s.bump f i).kw = s.kw := rfl
@[simp] theorem State.bump_fab (s : State) (f : Fld) (i : Nat) :
    (s.bump f i).fab = s.fab := rfl
@[simp] theorem State.bump_etu (s : State) (f : Fld) (i : Nat) :
    (s.bump f i).etu = s.etu := rfl
@[simp] theorem State.bump_dsl (s : State) (f : Fld) (i : Nat) :
    (s.bump f i).dsl = s.dsl := rfl
@[simp] theorem State.bump_loops (s : State) (f : Fld) (i : Nat) :
    (s.bump f i).loops = s.loops := rfl
@[simp] theorem State.bump_gnb (s : State) (f : Fld) (i : Nat) :
    (s.bump f i).gnb = s.gnb := rfl
@[simp] theorem State.bump_fge (s : State) (f : Fld) (i : Nat) :
    (s.bump f i).fge = s.fge := rfl
@[simp] theorem State.bump_cans (s : State) (f : Fld) (i : Nat) :
    (s.bump f i).cans = s.cans := rfl
@[simp] theorem State.bump_eths (s : State) (f : Fld) (i : Nat) :
    (s.bump f i).eths = s.eths := rfl
@[simp] theorem State.bump_inp (s : State) (f : Fld) (i : Nat) :
    (s.bump f i).inp = s.inp := rfl
@[simp] theorem State.bump_aon (s : State) (f : Fld) (i : Nat) :
    (s.bump f i).aon = s.aon := rfl
@[simp] theorem State.bump_boot (s : State) (f : Fld) (i : Nat) :
    (s.bump f i).boot = s.boot := rfl
@[simp] theorem State.bump_rpl (s : State) (f : Fld) (i : Nat) :
    (s.bump f i).rpl = s.rpl := rfl
@[simp] theorem State.bump_draws (s : State) (f : Fld) (i : Nat) :
    (s.bump f i).draws = s.draws := rfl
@[simp] theorem State.bump_hostData (s : State) (f : Fld) (i : Nat) :
    (s.bump f i).hostData = s.hostData := rfl
@[simp] theorem State.bump_pending (s : State) (f : Fld) (i : Nat) :
    (s.bump f i).pending = s.pending := rfl

@[simp] theorem State.bumpSat_variant (s : State) (f : Fld) (n i : Nat) :
    (s.bumpSat f n i).variant = s.variant := rfl
@[simp] theorem State.bumpSat_power (s : State) (f : Fld) (n i : Nat) :
    (s.bumpSat f n i).power = s.power := rfl
@[simp] theorem State.bumpSat_time (s : State) (f : Fld) (n i : Nat) :
    (s.bumpSat f n i).time = s.time := rfl
@[simp] theorem State.bumpSat_row (s : State) (f : Fld) (n i : Nat) :
    (s.bumpSat f n i).row = s.row := rfl
@[simp] theorem State.bumpSat_stage (s : State) (f : Fld) (n i : Nat) :
    (s.bumpSat f n i).stage = s.stage := rfl
@[simp] theorem State.bumpSat_win (s : State) (f : Fld) (n i : Nat) :
    (s.bumpSat f n i).win = s.win := rfl
@[simp] theorem State.bumpSat_skn (s : State) (f : Fld) (n i : Nat) :
    (s.bumpSat f n i).skn = s.skn := rfl
@[simp] theorem State.bumpSat_snap (s : State) (f : Fld) (n i : Nat) :
    (s.bumpSat f n i).snap = s.snap := rfl
@[simp] theorem State.bumpSat_cores (s : State) (f : Fld) (n i : Nat) :
    (s.bumpSat f n i).cores = s.cores := rfl
@[simp] theorem State.bumpSat_ple (s : State) (f : Fld) (n i : Nat) :
    (s.bumpSat f n i).ple = s.ple := rfl
@[simp] theorem State.bumpSat_kw (s : State) (f : Fld) (n i : Nat) :
    (s.bumpSat f n i).kw = s.kw := rfl
@[simp] theorem State.bumpSat_fab (s : State) (f : Fld) (n i : Nat) :
    (s.bumpSat f n i).fab = s.fab := rfl
@[simp] theorem State.bumpSat_etu (s : State) (f : Fld) (n i : Nat) :
    (s.bumpSat f n i).etu = s.etu := rfl
@[simp] theorem State.bumpSat_dsl (s : State) (f : Fld) (n i : Nat) :
    (s.bumpSat f n i).dsl = s.dsl := rfl
@[simp] theorem State.bumpSat_loops (s : State) (f : Fld) (n i : Nat) :
    (s.bumpSat f n i).loops = s.loops := rfl
@[simp] theorem State.bumpSat_gnb (s : State) (f : Fld) (n i : Nat) :
    (s.bumpSat f n i).gnb = s.gnb := rfl
@[simp] theorem State.bumpSat_fge (s : State) (f : Fld) (n i : Nat) :
    (s.bumpSat f n i).fge = s.fge := rfl
@[simp] theorem State.bumpSat_cans (s : State) (f : Fld) (n i : Nat) :
    (s.bumpSat f n i).cans = s.cans := rfl
@[simp] theorem State.bumpSat_eths (s : State) (f : Fld) (n i : Nat) :
    (s.bumpSat f n i).eths = s.eths := rfl
@[simp] theorem State.bumpSat_inp (s : State) (f : Fld) (n i : Nat) :
    (s.bumpSat f n i).inp = s.inp := rfl
@[simp] theorem State.bumpSat_aon (s : State) (f : Fld) (n i : Nat) :
    (s.bumpSat f n i).aon = s.aon := rfl
@[simp] theorem State.bumpSat_boot (s : State) (f : Fld) (n i : Nat) :
    (s.bumpSat f n i).boot = s.boot := rfl
@[simp] theorem State.bumpSat_rpl (s : State) (f : Fld) (n i : Nat) :
    (s.bumpSat f n i).rpl = s.rpl := rfl
@[simp] theorem State.bumpSat_draws (s : State) (f : Fld) (n i : Nat) :
    (s.bumpSat f n i).draws = s.draws := rfl
@[simp] theorem State.bumpSat_hostData (s : State) (f : Fld) (n i : Nat) :
    (s.bumpSat f n i).hostData = s.hostData := rfl
@[simp] theorem State.bumpSat_pending (s : State) (f : Fld) (n i : Nat) :
    (s.bumpSat f n i).pending = s.pending := rfl

@[simp] theorem State.setStaged_variant (s : State) (w : Writer) (f : Fld) (v i j : Nat) :
    (s.setStaged w f v i j).variant = s.variant := rfl
@[simp] theorem State.setStaged_power (s : State) (w : Writer) (f : Fld) (v i j : Nat) :
    (s.setStaged w f v i j).power = s.power := rfl
@[simp] theorem State.setStaged_time (s : State) (w : Writer) (f : Fld) (v i j : Nat) :
    (s.setStaged w f v i j).time = s.time := rfl
@[simp] theorem State.setStaged_row (s : State) (w : Writer) (f : Fld) (v i j : Nat) :
    (s.setStaged w f v i j).row = s.row := rfl
@[simp] theorem State.setStaged_regs (s : State) (w : Writer) (f : Fld) (v i j : Nat) :
    (s.setStaged w f v i j).regs = s.regs := rfl
@[simp] theorem State.setStaged_win (s : State) (w : Writer) (f : Fld) (v i j : Nat) :
    (s.setStaged w f v i j).win = s.win := rfl
@[simp] theorem State.setStaged_skn (s : State) (w : Writer) (f : Fld) (v i j : Nat) :
    (s.setStaged w f v i j).skn = s.skn := rfl
@[simp] theorem State.setStaged_snap (s : State) (w : Writer) (f : Fld) (v i j : Nat) :
    (s.setStaged w f v i j).snap = s.snap := rfl
@[simp] theorem State.setStaged_cores (s : State) (w : Writer) (f : Fld) (v i j : Nat) :
    (s.setStaged w f v i j).cores = s.cores := rfl
@[simp] theorem State.setStaged_ple (s : State) (w : Writer) (f : Fld) (v i j : Nat) :
    (s.setStaged w f v i j).ple = s.ple := rfl
@[simp] theorem State.setStaged_kw (s : State) (w : Writer) (f : Fld) (v i j : Nat) :
    (s.setStaged w f v i j).kw = s.kw := rfl
@[simp] theorem State.setStaged_fab (s : State) (w : Writer) (f : Fld) (v i j : Nat) :
    (s.setStaged w f v i j).fab = s.fab := rfl
@[simp] theorem State.setStaged_etu (s : State) (w : Writer) (f : Fld) (v i j : Nat) :
    (s.setStaged w f v i j).etu = s.etu := rfl
@[simp] theorem State.setStaged_dsl (s : State) (w : Writer) (f : Fld) (v i j : Nat) :
    (s.setStaged w f v i j).dsl = s.dsl := rfl
@[simp] theorem State.setStaged_loops (s : State) (w : Writer) (f : Fld) (v i j : Nat) :
    (s.setStaged w f v i j).loops = s.loops := rfl
@[simp] theorem State.setStaged_gnb (s : State) (w : Writer) (f : Fld) (v i j : Nat) :
    (s.setStaged w f v i j).gnb = s.gnb := rfl
@[simp] theorem State.setStaged_fge (s : State) (w : Writer) (f : Fld) (v i j : Nat) :
    (s.setStaged w f v i j).fge = s.fge := rfl
@[simp] theorem State.setStaged_cans (s : State) (w : Writer) (f : Fld) (v i j : Nat) :
    (s.setStaged w f v i j).cans = s.cans := rfl
@[simp] theorem State.setStaged_eths (s : State) (w : Writer) (f : Fld) (v i j : Nat) :
    (s.setStaged w f v i j).eths = s.eths := rfl
@[simp] theorem State.setStaged_inp (s : State) (w : Writer) (f : Fld) (v i j : Nat) :
    (s.setStaged w f v i j).inp = s.inp := rfl
@[simp] theorem State.setStaged_aon (s : State) (w : Writer) (f : Fld) (v i j : Nat) :
    (s.setStaged w f v i j).aon = s.aon := rfl
@[simp] theorem State.setStaged_boot (s : State) (w : Writer) (f : Fld) (v i j : Nat) :
    (s.setStaged w f v i j).boot = s.boot := rfl
@[simp] theorem State.setStaged_rpl (s : State) (w : Writer) (f : Fld) (v i j : Nat) :
    (s.setStaged w f v i j).rpl = s.rpl := rfl
@[simp] theorem State.setStaged_draws (s : State) (w : Writer) (f : Fld) (v i j : Nat) :
    (s.setStaged w f v i j).draws = s.draws := rfl
@[simp] theorem State.setStaged_hostData (s : State) (w : Writer) (f : Fld) (v i j : Nat) :
    (s.setStaged w f v i j).hostData = s.hostData := rfl
@[simp] theorem State.setStaged_pending (s : State) (w : Writer) (f : Fld) (v i j : Nat) :
    (s.setStaged w f v i j).pending = s.pending := rfl

@[simp] theorem State.drawn_variant (s : State)  :
    s.drawn.variant = s.variant := rfl
@[simp] theorem State.drawn_power (s : State)  :
    s.drawn.power = s.power := rfl
@[simp] theorem State.drawn_time (s : State)  :
    s.drawn.time = s.time := rfl
@[simp] theorem State.drawn_row (s : State)  :
    s.drawn.row = s.row := rfl
@[simp] theorem State.drawn_regs (s : State)  :
    s.drawn.regs = s.regs := rfl
@[simp] theorem State.drawn_stage (s : State)  :
    s.drawn.stage = s.stage := rfl
@[simp] theorem State.drawn_win (s : State)  :
    s.drawn.win = s.win := rfl
@[simp] theorem State.drawn_skn (s : State)  :
    s.drawn.skn = s.skn := rfl
@[simp] theorem State.drawn_snap (s : State)  :
    s.drawn.snap = s.snap := rfl
@[simp] theorem State.drawn_cores (s : State)  :
    s.drawn.cores = s.cores := rfl
@[simp] theorem State.drawn_ple (s : State)  :
    s.drawn.ple = s.ple := rfl
@[simp] theorem State.drawn_kw (s : State)  :
    s.drawn.kw = s.kw := rfl
@[simp] theorem State.drawn_fab (s : State)  :
    s.drawn.fab = s.fab := rfl
@[simp] theorem State.drawn_etu (s : State)  :
    s.drawn.etu = s.etu := rfl
@[simp] theorem State.drawn_dsl (s : State)  :
    s.drawn.dsl = s.dsl := rfl
@[simp] theorem State.drawn_loops (s : State)  :
    s.drawn.loops = s.loops := rfl
@[simp] theorem State.drawn_gnb (s : State)  :
    s.drawn.gnb = s.gnb := rfl
@[simp] theorem State.drawn_fge (s : State)  :
    s.drawn.fge = s.fge := rfl
@[simp] theorem State.drawn_cans (s : State)  :
    s.drawn.cans = s.cans := rfl
@[simp] theorem State.drawn_eths (s : State)  :
    s.drawn.eths = s.eths := rfl
@[simp] theorem State.drawn_inp (s : State)  :
    s.drawn.inp = s.inp := rfl
@[simp] theorem State.drawn_aon (s : State)  :
    s.drawn.aon = s.aon := rfl
@[simp] theorem State.drawn_boot (s : State)  :
    s.drawn.boot = s.boot := rfl
@[simp] theorem State.drawn_rpl (s : State)  :
    s.drawn.rpl = s.rpl := rfl
@[simp] theorem State.drawn_hostData (s : State)  :
    s.drawn.hostData = s.hostData := rfl
@[simp] theorem State.drawn_pending (s : State)  :
    s.drawn.pending = s.pending := rfl

@[simp] theorem State.keepRecent_variant (s : State) (x : Sample) (t : Stamp) :
    (s.keepRecent x t).variant = s.variant := rfl
@[simp] theorem State.keepRecent_power (s : State) (x : Sample) (t : Stamp) :
    (s.keepRecent x t).power = s.power := rfl
@[simp] theorem State.keepRecent_time (s : State) (x : Sample) (t : Stamp) :
    (s.keepRecent x t).time = s.time := rfl
@[simp] theorem State.keepRecent_row (s : State) (x : Sample) (t : Stamp) :
    (s.keepRecent x t).row = s.row := rfl
@[simp] theorem State.keepRecent_regs (s : State) (x : Sample) (t : Stamp) :
    (s.keepRecent x t).regs = s.regs := rfl
@[simp] theorem State.keepRecent_stage (s : State) (x : Sample) (t : Stamp) :
    (s.keepRecent x t).stage = s.stage := rfl
@[simp] theorem State.keepRecent_win (s : State) (x : Sample) (t : Stamp) :
    (s.keepRecent x t).win = s.win := rfl
@[simp] theorem State.keepRecent_skn (s : State) (x : Sample) (t : Stamp) :
    (s.keepRecent x t).skn = s.skn := rfl
@[simp] theorem State.keepRecent_snap (s : State) (x : Sample) (t : Stamp) :
    (s.keepRecent x t).snap = s.snap := rfl
@[simp] theorem State.keepRecent_cores (s : State) (x : Sample) (t : Stamp) :
    (s.keepRecent x t).cores = s.cores := rfl
@[simp] theorem State.keepRecent_ple (s : State) (x : Sample) (t : Stamp) :
    (s.keepRecent x t).ple = s.ple := rfl
@[simp] theorem State.keepRecent_kw (s : State) (x : Sample) (t : Stamp) :
    (s.keepRecent x t).kw = s.kw := rfl
@[simp] theorem State.keepRecent_fab (s : State) (x : Sample) (t : Stamp) :
    (s.keepRecent x t).fab = s.fab := rfl
@[simp] theorem State.keepRecent_etu (s : State) (x : Sample) (t : Stamp) :
    (s.keepRecent x t).etu = s.etu := rfl
@[simp] theorem State.keepRecent_dsl (s : State) (x : Sample) (t : Stamp) :
    (s.keepRecent x t).dsl = s.dsl := rfl
@[simp] theorem State.keepRecent_loops (s : State) (x : Sample) (t : Stamp) :
    (s.keepRecent x t).loops = s.loops := rfl
@[simp] theorem State.keepRecent_gnb (s : State) (x : Sample) (t : Stamp) :
    (s.keepRecent x t).gnb = s.gnb := rfl
@[simp] theorem State.keepRecent_fge (s : State) (x : Sample) (t : Stamp) :
    (s.keepRecent x t).fge = s.fge := rfl
@[simp] theorem State.keepRecent_cans (s : State) (x : Sample) (t : Stamp) :
    (s.keepRecent x t).cans = s.cans := rfl
@[simp] theorem State.keepRecent_eths (s : State) (x : Sample) (t : Stamp) :
    (s.keepRecent x t).eths = s.eths := rfl
@[simp] theorem State.keepRecent_aon (s : State) (x : Sample) (t : Stamp) :
    (s.keepRecent x t).aon = s.aon := rfl
@[simp] theorem State.keepRecent_boot (s : State) (x : Sample) (t : Stamp) :
    (s.keepRecent x t).boot = s.boot := rfl
@[simp] theorem State.keepRecent_rpl (s : State) (x : Sample) (t : Stamp) :
    (s.keepRecent x t).rpl = s.rpl := rfl
@[simp] theorem State.keepRecent_draws (s : State) (x : Sample) (t : Stamp) :
    (s.keepRecent x t).draws = s.draws := rfl
@[simp] theorem State.keepRecent_hostData (s : State) (x : Sample) (t : Stamp) :
    (s.keepRecent x t).hostData = s.hostData := rfl
@[simp] theorem State.keepRecent_pending (s : State) (x : Sample) (t : Stamp) :
    (s.keepRecent x t).pending = s.pending := rfl

@[simp] theorem State.advanceTo_variant (s : State) (t : Stamp) :
    (s.advanceTo t).variant = s.variant := by
  unfold State.advanceTo; split <;> rfl
@[simp] theorem State.advanceTo_power (s : State) (t : Stamp) :
    (s.advanceTo t).power = s.power := by
  unfold State.advanceTo; split <;> rfl
@[simp] theorem State.advanceTo_row (s : State) (t : Stamp) :
    (s.advanceTo t).row = s.row := by
  unfold State.advanceTo; split <;> rfl
@[simp] theorem State.advanceTo_regs (s : State) (t : Stamp) :
    (s.advanceTo t).regs = s.regs := by
  unfold State.advanceTo; split <;> rfl
@[simp] theorem State.advanceTo_stage (s : State) (t : Stamp) :
    (s.advanceTo t).stage = s.stage := by
  unfold State.advanceTo; split <;> rfl
@[simp] theorem State.advanceTo_win (s : State) (t : Stamp) :
    (s.advanceTo t).win = s.win := by
  unfold State.advanceTo; split <;> rfl
@[simp] theorem State.advanceTo_skn (s : State) (t : Stamp) :
    (s.advanceTo t).skn = s.skn := by
  unfold State.advanceTo; split <;> rfl
@[simp] theorem State.advanceTo_snap (s : State) (t : Stamp) :
    (s.advanceTo t).snap = s.snap := by
  unfold State.advanceTo; split <;> rfl
@[simp] theorem State.advanceTo_cores (s : State) (t : Stamp) :
    (s.advanceTo t).cores = s.cores := by
  unfold State.advanceTo; split <;> rfl
@[simp] theorem State.advanceTo_ple (s : State) (t : Stamp) :
    (s.advanceTo t).ple = s.ple := by
  unfold State.advanceTo; split <;> rfl
@[simp] theorem State.advanceTo_kw (s : State) (t : Stamp) :
    (s.advanceTo t).kw = s.kw := by
  unfold State.advanceTo; split <;> rfl
@[simp] theorem State.advanceTo_fab (s : State) (t : Stamp) :
    (s.advanceTo t).fab = s.fab := by
  unfold State.advanceTo; split <;> rfl
@[simp] theorem State.advanceTo_etu (s : State) (t : Stamp) :
    (s.advanceTo t).etu = s.etu := by
  unfold State.advanceTo; split <;> rfl
@[simp] theorem State.advanceTo_dsl (s : State) (t : Stamp) :
    (s.advanceTo t).dsl = s.dsl := by
  unfold State.advanceTo; split <;> rfl
@[simp] theorem State.advanceTo_loops (s : State) (t : Stamp) :
    (s.advanceTo t).loops = s.loops := by
  unfold State.advanceTo; split <;> rfl
@[simp] theorem State.advanceTo_gnb (s : State) (t : Stamp) :
    (s.advanceTo t).gnb = s.gnb := by
  unfold State.advanceTo; split <;> rfl
@[simp] theorem State.advanceTo_fge (s : State) (t : Stamp) :
    (s.advanceTo t).fge = s.fge := by
  unfold State.advanceTo; split <;> rfl
@[simp] theorem State.advanceTo_cans (s : State) (t : Stamp) :
    (s.advanceTo t).cans = s.cans := by
  unfold State.advanceTo; split <;> rfl
@[simp] theorem State.advanceTo_eths (s : State) (t : Stamp) :
    (s.advanceTo t).eths = s.eths := by
  unfold State.advanceTo; split <;> rfl
@[simp] theorem State.advanceTo_inp (s : State) (t : Stamp) :
    (s.advanceTo t).inp = s.inp := by
  unfold State.advanceTo; split <;> rfl
@[simp] theorem State.advanceTo_aon (s : State) (t : Stamp) :
    (s.advanceTo t).aon = s.aon := by
  unfold State.advanceTo; split <;> rfl
@[simp] theorem State.advanceTo_boot (s : State) (t : Stamp) :
    (s.advanceTo t).boot = s.boot := by
  unfold State.advanceTo; split <;> rfl
@[simp] theorem State.advanceTo_rpl (s : State) (t : Stamp) :
    (s.advanceTo t).rpl = s.rpl := by
  unfold State.advanceTo; split <;> rfl
@[simp] theorem State.advanceTo_draws (s : State) (t : Stamp) :
    (s.advanceTo t).draws = s.draws := by
  unfold State.advanceTo; split <;> rfl
@[simp] theorem State.advanceTo_hostData (s : State) (t : Stamp) :
    (s.advanceTo t).hostData = s.hostData := by
  unfold State.advanceTo; split <;> rfl
@[simp] theorem State.advanceTo_pending (s : State) (t : Stamp) :
    (s.advanceTo t).pending = s.pending := by
  unfold State.advanceTo; split <;> rfl

@[simp] theorem State.setDramByte_variant (s : State) (off : Nat) (b : Byte) :
    (s.setDramByte off b).variant = s.variant := by
  unfold State.setDramByte; split <;> rfl
@[simp] theorem State.setDramByte_power (s : State) (off : Nat) (b : Byte) :
    (s.setDramByte off b).power = s.power := by
  unfold State.setDramByte; split <;> rfl
@[simp] theorem State.setDramByte_time (s : State) (off : Nat) (b : Byte) :
    (s.setDramByte off b).time = s.time := by
  unfold State.setDramByte; split <;> rfl
@[simp] theorem State.setDramByte_row (s : State) (off : Nat) (b : Byte) :
    (s.setDramByte off b).row = s.row := by
  unfold State.setDramByte; split <;> rfl
@[simp] theorem State.setDramByte_regs (s : State) (off : Nat) (b : Byte) :
    (s.setDramByte off b).regs = s.regs := by
  unfold State.setDramByte; split <;> rfl
@[simp] theorem State.setDramByte_stage (s : State) (off : Nat) (b : Byte) :
    (s.setDramByte off b).stage = s.stage := by
  unfold State.setDramByte; split <;> rfl
@[simp] theorem State.setDramByte_win (s : State) (off : Nat) (b : Byte) :
    (s.setDramByte off b).win = s.win := by
  unfold State.setDramByte; split <;> rfl
@[simp] theorem State.setDramByte_skn (s : State) (off : Nat) (b : Byte) :
    (s.setDramByte off b).skn = s.skn := by
  unfold State.setDramByte; split <;> rfl
@[simp] theorem State.setDramByte_snap (s : State) (off : Nat) (b : Byte) :
    (s.setDramByte off b).snap = s.snap := by
  unfold State.setDramByte; split <;> rfl
@[simp] theorem State.setDramByte_cores (s : State) (off : Nat) (b : Byte) :
    (s.setDramByte off b).cores = s.cores := by
  unfold State.setDramByte; split <;> rfl
@[simp] theorem State.setDramByte_ple (s : State) (off : Nat) (b : Byte) :
    (s.setDramByte off b).ple = s.ple := by
  unfold State.setDramByte; split <;> rfl
@[simp] theorem State.setDramByte_kw (s : State) (off : Nat) (b : Byte) :
    (s.setDramByte off b).kw = s.kw := by
  unfold State.setDramByte; split <;> rfl
@[simp] theorem State.setDramByte_etu (s : State) (off : Nat) (b : Byte) :
    (s.setDramByte off b).etu = s.etu := by
  unfold State.setDramByte; split <;> rfl
@[simp] theorem State.setDramByte_dsl (s : State) (off : Nat) (b : Byte) :
    (s.setDramByte off b).dsl = s.dsl := by
  unfold State.setDramByte; split <;> rfl
@[simp] theorem State.setDramByte_loops (s : State) (off : Nat) (b : Byte) :
    (s.setDramByte off b).loops = s.loops := by
  unfold State.setDramByte; split <;> rfl
@[simp] theorem State.setDramByte_gnb (s : State) (off : Nat) (b : Byte) :
    (s.setDramByte off b).gnb = s.gnb := by
  unfold State.setDramByte; split <;> rfl
@[simp] theorem State.setDramByte_fge (s : State) (off : Nat) (b : Byte) :
    (s.setDramByte off b).fge = s.fge := by
  unfold State.setDramByte; split <;> rfl
@[simp] theorem State.setDramByte_cans (s : State) (off : Nat) (b : Byte) :
    (s.setDramByte off b).cans = s.cans := by
  unfold State.setDramByte; split <;> rfl
@[simp] theorem State.setDramByte_eths (s : State) (off : Nat) (b : Byte) :
    (s.setDramByte off b).eths = s.eths := by
  unfold State.setDramByte; split <;> rfl
@[simp] theorem State.setDramByte_inp (s : State) (off : Nat) (b : Byte) :
    (s.setDramByte off b).inp = s.inp := by
  unfold State.setDramByte; split <;> rfl
@[simp] theorem State.setDramByte_aon (s : State) (off : Nat) (b : Byte) :
    (s.setDramByte off b).aon = s.aon := by
  unfold State.setDramByte; split <;> rfl
@[simp] theorem State.setDramByte_boot (s : State) (off : Nat) (b : Byte) :
    (s.setDramByte off b).boot = s.boot := by
  unfold State.setDramByte; split <;> rfl
@[simp] theorem State.setDramByte_rpl (s : State) (off : Nat) (b : Byte) :
    (s.setDramByte off b).rpl = s.rpl := by
  unfold State.setDramByte; split <;> rfl
@[simp] theorem State.setDramByte_draws (s : State) (off : Nat) (b : Byte) :
    (s.setDramByte off b).draws = s.draws := by
  unfold State.setDramByte; split <;> rfl
@[simp] theorem State.setDramByte_hostData (s : State) (off : Nat) (b : Byte) :
    (s.setDramByte off b).hostData = s.hostData := by
  unfold State.setDramByte; split <;> rfl
@[simp] theorem State.setDramByte_pending (s : State) (off : Nat) (b : Byte) :
    (s.setDramByte off b).pending = s.pending := by
  unfold State.setDramByte; split <;> rfl

@[simp] theorem State.setDramBytes_variant (s : State) (off : Nat) (l : List Byte) :
    (s.setDramBytes off l).variant = s.variant := by
  induction l generalizing s off with
  | nil => rfl
  | cons b t ih => simp [State.setDramBytes, ih]
@[simp] theorem State.setDramBytes_power (s : State) (off : Nat) (l : List Byte) :
    (s.setDramBytes off l).power = s.power := by
  induction l generalizing s off with
  | nil => rfl
  | cons b t ih => simp [State.setDramBytes, ih]
@[simp] theorem State.setDramBytes_time (s : State) (off : Nat) (l : List Byte) :
    (s.setDramBytes off l).time = s.time := by
  induction l generalizing s off with
  | nil => rfl
  | cons b t ih => simp [State.setDramBytes, ih]
@[simp] theorem State.setDramBytes_row (s : State) (off : Nat) (l : List Byte) :
    (s.setDramBytes off l).row = s.row := by
  induction l generalizing s off with
  | nil => rfl
  | cons b t ih => simp [State.setDramBytes, ih]
@[simp] theorem State.setDramBytes_regs (s : State) (off : Nat) (l : List Byte) :
    (s.setDramBytes off l).regs = s.regs := by
  induction l generalizing s off with
  | nil => rfl
  | cons b t ih => simp [State.setDramBytes, ih]
@[simp] theorem State.setDramBytes_stage (s : State) (off : Nat) (l : List Byte) :
    (s.setDramBytes off l).stage = s.stage := by
  induction l generalizing s off with
  | nil => rfl
  | cons b t ih => simp [State.setDramBytes, ih]
@[simp] theorem State.setDramBytes_win (s : State) (off : Nat) (l : List Byte) :
    (s.setDramBytes off l).win = s.win := by
  induction l generalizing s off with
  | nil => rfl
  | cons b t ih => simp [State.setDramBytes, ih]
@[simp] theorem State.setDramBytes_skn (s : State) (off : Nat) (l : List Byte) :
    (s.setDramBytes off l).skn = s.skn := by
  induction l generalizing s off with
  | nil => rfl
  | cons b t ih => simp [State.setDramBytes, ih]
@[simp] theorem State.setDramBytes_snap (s : State) (off : Nat) (l : List Byte) :
    (s.setDramBytes off l).snap = s.snap := by
  induction l generalizing s off with
  | nil => rfl
  | cons b t ih => simp [State.setDramBytes, ih]
@[simp] theorem State.setDramBytes_cores (s : State) (off : Nat) (l : List Byte) :
    (s.setDramBytes off l).cores = s.cores := by
  induction l generalizing s off with
  | nil => rfl
  | cons b t ih => simp [State.setDramBytes, ih]
@[simp] theorem State.setDramBytes_ple (s : State) (off : Nat) (l : List Byte) :
    (s.setDramBytes off l).ple = s.ple := by
  induction l generalizing s off with
  | nil => rfl
  | cons b t ih => simp [State.setDramBytes, ih]
@[simp] theorem State.setDramBytes_kw (s : State) (off : Nat) (l : List Byte) :
    (s.setDramBytes off l).kw = s.kw := by
  induction l generalizing s off with
  | nil => rfl
  | cons b t ih => simp [State.setDramBytes, ih]
@[simp] theorem State.setDramBytes_etu (s : State) (off : Nat) (l : List Byte) :
    (s.setDramBytes off l).etu = s.etu := by
  induction l generalizing s off with
  | nil => rfl
  | cons b t ih => simp [State.setDramBytes, ih]
@[simp] theorem State.setDramBytes_dsl (s : State) (off : Nat) (l : List Byte) :
    (s.setDramBytes off l).dsl = s.dsl := by
  induction l generalizing s off with
  | nil => rfl
  | cons b t ih => simp [State.setDramBytes, ih]
@[simp] theorem State.setDramBytes_loops (s : State) (off : Nat) (l : List Byte) :
    (s.setDramBytes off l).loops = s.loops := by
  induction l generalizing s off with
  | nil => rfl
  | cons b t ih => simp [State.setDramBytes, ih]
@[simp] theorem State.setDramBytes_gnb (s : State) (off : Nat) (l : List Byte) :
    (s.setDramBytes off l).gnb = s.gnb := by
  induction l generalizing s off with
  | nil => rfl
  | cons b t ih => simp [State.setDramBytes, ih]
@[simp] theorem State.setDramBytes_fge (s : State) (off : Nat) (l : List Byte) :
    (s.setDramBytes off l).fge = s.fge := by
  induction l generalizing s off with
  | nil => rfl
  | cons b t ih => simp [State.setDramBytes, ih]
@[simp] theorem State.setDramBytes_cans (s : State) (off : Nat) (l : List Byte) :
    (s.setDramBytes off l).cans = s.cans := by
  induction l generalizing s off with
  | nil => rfl
  | cons b t ih => simp [State.setDramBytes, ih]
@[simp] theorem State.setDramBytes_eths (s : State) (off : Nat) (l : List Byte) :
    (s.setDramBytes off l).eths = s.eths := by
  induction l generalizing s off with
  | nil => rfl
  | cons b t ih => simp [State.setDramBytes, ih]
@[simp] theorem State.setDramBytes_inp (s : State) (off : Nat) (l : List Byte) :
    (s.setDramBytes off l).inp = s.inp := by
  induction l generalizing s off with
  | nil => rfl
  | cons b t ih => simp [State.setDramBytes, ih]
@[simp] theorem State.setDramBytes_aon (s : State) (off : Nat) (l : List Byte) :
    (s.setDramBytes off l).aon = s.aon := by
  induction l generalizing s off with
  | nil => rfl
  | cons b t ih => simp [State.setDramBytes, ih]
@[simp] theorem State.setDramBytes_boot (s : State) (off : Nat) (l : List Byte) :
    (s.setDramBytes off l).boot = s.boot := by
  induction l generalizing s off with
  | nil => rfl
  | cons b t ih => simp [State.setDramBytes, ih]
@[simp] theorem State.setDramBytes_rpl (s : State) (off : Nat) (l : List Byte) :
    (s.setDramBytes off l).rpl = s.rpl := by
  induction l generalizing s off with
  | nil => rfl
  | cons b t ih => simp [State.setDramBytes, ih]
@[simp] theorem State.setDramBytes_draws (s : State) (off : Nat) (l : List Byte) :
    (s.setDramBytes off l).draws = s.draws := by
  induction l generalizing s off with
  | nil => rfl
  | cons b t ih => simp [State.setDramBytes, ih]
@[simp] theorem State.setDramBytes_hostData (s : State) (off : Nat) (l : List Byte) :
    (s.setDramBytes off l).hostData = s.hostData := by
  induction l generalizing s off with
  | nil => rfl
  | cons b t ih => simp [State.setDramBytes, ih]
@[simp] theorem State.setDramBytes_pending (s : State) (off : Nat) (l : List Byte) :
    (s.setDramBytes off l).pending = s.pending := by
  induction l generalizing s off with
  | nil => rfl
  | cons b t ih => simp [State.setDramBytes, ih]

@[simp] theorem State.setWin_variant (s : State) (a : Nat) (l : List Byte) :
    (s.setWin a l).variant = s.variant := by
  induction l generalizing s a with
  | nil => rfl
  | cons b t ih => simp [State.setWin, ih]
@[simp] theorem State.setWin_power (s : State) (a : Nat) (l : List Byte) :
    (s.setWin a l).power = s.power := by
  induction l generalizing s a with
  | nil => rfl
  | cons b t ih => simp [State.setWin, ih]
@[simp] theorem State.setWin_time (s : State) (a : Nat) (l : List Byte) :
    (s.setWin a l).time = s.time := by
  induction l generalizing s a with
  | nil => rfl
  | cons b t ih => simp [State.setWin, ih]
@[simp] theorem State.setWin_row (s : State) (a : Nat) (l : List Byte) :
    (s.setWin a l).row = s.row := by
  induction l generalizing s a with
  | nil => rfl
  | cons b t ih => simp [State.setWin, ih]
@[simp] theorem State.setWin_regs (s : State) (a : Nat) (l : List Byte) :
    (s.setWin a l).regs = s.regs := by
  induction l generalizing s a with
  | nil => rfl
  | cons b t ih => simp [State.setWin, ih]
@[simp] theorem State.setWin_stage (s : State) (a : Nat) (l : List Byte) :
    (s.setWin a l).stage = s.stage := by
  induction l generalizing s a with
  | nil => rfl
  | cons b t ih => simp [State.setWin, ih]
@[simp] theorem State.setWin_skn (s : State) (a : Nat) (l : List Byte) :
    (s.setWin a l).skn = s.skn := by
  induction l generalizing s a with
  | nil => rfl
  | cons b t ih => simp [State.setWin, ih]
@[simp] theorem State.setWin_snap (s : State) (a : Nat) (l : List Byte) :
    (s.setWin a l).snap = s.snap := by
  induction l generalizing s a with
  | nil => rfl
  | cons b t ih => simp [State.setWin, ih]
@[simp] theorem State.setWin_cores (s : State) (a : Nat) (l : List Byte) :
    (s.setWin a l).cores = s.cores := by
  induction l generalizing s a with
  | nil => rfl
  | cons b t ih => simp [State.setWin, ih]
@[simp] theorem State.setWin_ple (s : State) (a : Nat) (l : List Byte) :
    (s.setWin a l).ple = s.ple := by
  induction l generalizing s a with
  | nil => rfl
  | cons b t ih => simp [State.setWin, ih]
@[simp] theorem State.setWin_kw (s : State) (a : Nat) (l : List Byte) :
    (s.setWin a l).kw = s.kw := by
  induction l generalizing s a with
  | nil => rfl
  | cons b t ih => simp [State.setWin, ih]
@[simp] theorem State.setWin_fab (s : State) (a : Nat) (l : List Byte) :
    (s.setWin a l).fab = s.fab := by
  induction l generalizing s a with
  | nil => rfl
  | cons b t ih => simp [State.setWin, ih]
@[simp] theorem State.setWin_etu (s : State) (a : Nat) (l : List Byte) :
    (s.setWin a l).etu = s.etu := by
  induction l generalizing s a with
  | nil => rfl
  | cons b t ih => simp [State.setWin, ih]
@[simp] theorem State.setWin_dsl (s : State) (a : Nat) (l : List Byte) :
    (s.setWin a l).dsl = s.dsl := by
  induction l generalizing s a with
  | nil => rfl
  | cons b t ih => simp [State.setWin, ih]
@[simp] theorem State.setWin_loops (s : State) (a : Nat) (l : List Byte) :
    (s.setWin a l).loops = s.loops := by
  induction l generalizing s a with
  | nil => rfl
  | cons b t ih => simp [State.setWin, ih]
@[simp] theorem State.setWin_gnb (s : State) (a : Nat) (l : List Byte) :
    (s.setWin a l).gnb = s.gnb := by
  induction l generalizing s a with
  | nil => rfl
  | cons b t ih => simp [State.setWin, ih]
@[simp] theorem State.setWin_fge (s : State) (a : Nat) (l : List Byte) :
    (s.setWin a l).fge = s.fge := by
  induction l generalizing s a with
  | nil => rfl
  | cons b t ih => simp [State.setWin, ih]
@[simp] theorem State.setWin_cans (s : State) (a : Nat) (l : List Byte) :
    (s.setWin a l).cans = s.cans := by
  induction l generalizing s a with
  | nil => rfl
  | cons b t ih => simp [State.setWin, ih]
@[simp] theorem State.setWin_eths (s : State) (a : Nat) (l : List Byte) :
    (s.setWin a l).eths = s.eths := by
  induction l generalizing s a with
  | nil => rfl
  | cons b t ih => simp [State.setWin, ih]
@[simp] theorem State.setWin_inp (s : State) (a : Nat) (l : List Byte) :
    (s.setWin a l).inp = s.inp := by
  induction l generalizing s a with
  | nil => rfl
  | cons b t ih => simp [State.setWin, ih]
@[simp] theorem State.setWin_aon (s : State) (a : Nat) (l : List Byte) :
    (s.setWin a l).aon = s.aon := by
  induction l generalizing s a with
  | nil => rfl
  | cons b t ih => simp [State.setWin, ih]
@[simp] theorem State.setWin_boot (s : State) (a : Nat) (l : List Byte) :
    (s.setWin a l).boot = s.boot := by
  induction l generalizing s a with
  | nil => rfl
  | cons b t ih => simp [State.setWin, ih]
@[simp] theorem State.setWin_rpl (s : State) (a : Nat) (l : List Byte) :
    (s.setWin a l).rpl = s.rpl := by
  induction l generalizing s a with
  | nil => rfl
  | cons b t ih => simp [State.setWin, ih]
@[simp] theorem State.setWin_draws (s : State) (a : Nat) (l : List Byte) :
    (s.setWin a l).draws = s.draws := by
  induction l generalizing s a with
  | nil => rfl
  | cons b t ih => simp [State.setWin, ih]
@[simp] theorem State.setWin_hostData (s : State) (a : Nat) (l : List Byte) :
    (s.setWin a l).hostData = s.hostData := by
  induction l generalizing s a with
  | nil => rfl
  | cons b t ih => simp [State.setWin, ih]
@[simp] theorem State.setWin_pending (s : State) (a : Nat) (l : List Byte) :
    (s.setWin a l).pending = s.pending := by
  induction l generalizing s a with
  | nil => rfl
  | cons b t ih => simp [State.setWin, ih]

@[simp] theorem State.routeEvent_variant (s : State) (e : Nat) :
    (s.routeEvent e).variant = s.variant := by
  simp only [State.routeEvent]; split <;> split <;> (repeat' split) <;> rfl
@[simp] theorem State.routeEvent_power (s : State) (e : Nat) :
    (s.routeEvent e).power = s.power := by
  simp only [State.routeEvent]; split <;> split <;> (repeat' split) <;> rfl
@[simp] theorem State.routeEvent_time (s : State) (e : Nat) :
    (s.routeEvent e).time = s.time := by
  simp only [State.routeEvent]; split <;> split <;> (repeat' split) <;> rfl
@[simp] theorem State.routeEvent_row (s : State) (e : Nat) :
    (s.routeEvent e).row = s.row := by
  simp only [State.routeEvent]; split <;> split <;> (repeat' split) <;> rfl
@[simp] theorem State.routeEvent_stage (s : State) (e : Nat) :
    (s.routeEvent e).stage = s.stage := by
  simp only [State.routeEvent]; split <;> split <;> (repeat' split) <;> rfl
@[simp] theorem State.routeEvent_win (s : State) (e : Nat) :
    (s.routeEvent e).win = s.win := by
  simp only [State.routeEvent]; split <;> split <;> (repeat' split) <;> rfl
@[simp] theorem State.routeEvent_skn (s : State) (e : Nat) :
    (s.routeEvent e).skn = s.skn := by
  simp only [State.routeEvent]; split <;> split <;> (repeat' split) <;> rfl
@[simp] theorem State.routeEvent_snap (s : State) (e : Nat) :
    (s.routeEvent e).snap = s.snap := by
  simp only [State.routeEvent]; split <;> split <;> (repeat' split) <;> rfl
@[simp] theorem State.routeEvent_cores (s : State) (e : Nat) :
    (s.routeEvent e).cores = s.cores := by
  simp only [State.routeEvent]; split <;> split <;> (repeat' split) <;> rfl
@[simp] theorem State.routeEvent_ple (s : State) (e : Nat) :
    (s.routeEvent e).ple = s.ple := by
  simp only [State.routeEvent]; split <;> split <;> (repeat' split) <;> rfl
@[simp] theorem State.routeEvent_kw (s : State) (e : Nat) :
    (s.routeEvent e).kw = s.kw := by
  simp only [State.routeEvent]; split <;> split <;> (repeat' split) <;> rfl
@[simp] theorem State.routeEvent_fab (s : State) (e : Nat) :
    (s.routeEvent e).fab = s.fab := by
  simp only [State.routeEvent]; split <;> split <;> (repeat' split) <;> rfl
@[simp] theorem State.routeEvent_etu (s : State) (e : Nat) :
    (s.routeEvent e).etu = s.etu := by
  simp only [State.routeEvent]; split <;> split <;> (repeat' split) <;> rfl
@[simp] theorem State.routeEvent_dsl (s : State) (e : Nat) :
    (s.routeEvent e).dsl = s.dsl := by
  simp only [State.routeEvent]; split <;> split <;> (repeat' split) <;> rfl
@[simp] theorem State.routeEvent_loops (s : State) (e : Nat) :
    (s.routeEvent e).loops = s.loops := by
  simp only [State.routeEvent]; split <;> split <;> (repeat' split) <;> rfl
@[simp] theorem State.routeEvent_gnb (s : State) (e : Nat) :
    (s.routeEvent e).gnb = s.gnb := by
  simp only [State.routeEvent]; split <;> split <;> (repeat' split) <;> rfl
@[simp] theorem State.routeEvent_fge (s : State) (e : Nat) :
    (s.routeEvent e).fge = s.fge := by
  simp only [State.routeEvent]; split <;> split <;> (repeat' split) <;> rfl
@[simp] theorem State.routeEvent_cans (s : State) (e : Nat) :
    (s.routeEvent e).cans = s.cans := by
  simp only [State.routeEvent]; split <;> split <;> (repeat' split) <;> rfl
@[simp] theorem State.routeEvent_eths (s : State) (e : Nat) :
    (s.routeEvent e).eths = s.eths := by
  simp only [State.routeEvent]; split <;> split <;> (repeat' split) <;> rfl
@[simp] theorem State.routeEvent_inp (s : State) (e : Nat) :
    (s.routeEvent e).inp = s.inp := by
  simp only [State.routeEvent]; split <;> split <;> (repeat' split) <;> rfl
@[simp] theorem State.routeEvent_aon (s : State) (e : Nat) :
    (s.routeEvent e).aon = s.aon := by
  simp only [State.routeEvent]; split <;> split <;> (repeat' split) <;> rfl
@[simp] theorem State.routeEvent_boot (s : State) (e : Nat) :
    (s.routeEvent e).boot = s.boot := by
  simp only [State.routeEvent]; split <;> split <;> (repeat' split) <;> rfl
@[simp] theorem State.routeEvent_rpl (s : State) (e : Nat) :
    (s.routeEvent e).rpl = s.rpl := by
  simp only [State.routeEvent]; split <;> split <;> (repeat' split) <;> rfl
@[simp] theorem State.routeEvent_draws (s : State) (e : Nat) :
    (s.routeEvent e).draws = s.draws := by
  simp only [State.routeEvent]; split <;> split <;> (repeat' split) <;> rfl
@[simp] theorem State.routeEvent_hostData (s : State) (e : Nat) :
    (s.routeEvent e).hostData = s.hostData := by
  simp only [State.routeEvent]; split <;> split <;> (repeat' split) <;> rfl
@[simp] theorem State.routeEvent_pending (s : State) (e : Nat) :
    (s.routeEvent e).pending = s.pending := by
  simp only [State.routeEvent]; split <;> split <;> (repeat' split) <;> rfl

@[simp] theorem State.raise_variant (s : State) (e arg : Nat) (t : Stamp) :
    (s.raise e arg t).variant = s.variant := by
  simp only [State.raise]; split <;> simp
@[simp] theorem State.raise_power (s : State) (e arg : Nat) (t : Stamp) :
    (s.raise e arg t).power = s.power := by
  simp only [State.raise]; split <;> simp
@[simp] theorem State.raise_time (s : State) (e arg : Nat) (t : Stamp) :
    (s.raise e arg t).time = s.time := by
  simp only [State.raise]; split <;> simp
@[simp] theorem State.raise_row (s : State) (e arg : Nat) (t : Stamp) :
    (s.raise e arg t).row = s.row := by
  simp only [State.raise]; split <;> simp
@[simp] theorem State.raise_stage (s : State) (e arg : Nat) (t : Stamp) :
    (s.raise e arg t).stage = s.stage := by
  simp only [State.raise]; split <;> simp
@[simp] theorem State.raise_win (s : State) (e arg : Nat) (t : Stamp) :
    (s.raise e arg t).win = s.win := by
  simp only [State.raise]; split <;> simp
@[simp] theorem State.raise_skn (s : State) (e arg : Nat) (t : Stamp) :
    (s.raise e arg t).skn = s.skn := by
  simp only [State.raise]; split <;> simp
@[simp] theorem State.raise_snap (s : State) (e arg : Nat) (t : Stamp) :
    (s.raise e arg t).snap = s.snap := by
  simp only [State.raise]; split <;> simp
@[simp] theorem State.raise_cores (s : State) (e arg : Nat) (t : Stamp) :
    (s.raise e arg t).cores = s.cores := by
  simp only [State.raise]; split <;> simp
@[simp] theorem State.raise_ple (s : State) (e arg : Nat) (t : Stamp) :
    (s.raise e arg t).ple = s.ple := by
  simp only [State.raise]; split <;> simp
@[simp] theorem State.raise_kw (s : State) (e arg : Nat) (t : Stamp) :
    (s.raise e arg t).kw = s.kw := by
  simp only [State.raise]; split <;> simp
@[simp] theorem State.raise_fab (s : State) (e arg : Nat) (t : Stamp) :
    (s.raise e arg t).fab = s.fab := by
  simp only [State.raise]; split <;> simp
@[simp] theorem State.raise_etu (s : State) (e arg : Nat) (t : Stamp) :
    (s.raise e arg t).etu = s.etu := by
  simp only [State.raise]; split <;> simp
@[simp] theorem State.raise_dsl (s : State) (e arg : Nat) (t : Stamp) :
    (s.raise e arg t).dsl = s.dsl := by
  simp only [State.raise]; split <;> simp
@[simp] theorem State.raise_loops (s : State) (e arg : Nat) (t : Stamp) :
    (s.raise e arg t).loops = s.loops := by
  simp only [State.raise]; split <;> simp
@[simp] theorem State.raise_gnb (s : State) (e arg : Nat) (t : Stamp) :
    (s.raise e arg t).gnb = s.gnb := by
  simp only [State.raise]; split <;> simp
@[simp] theorem State.raise_fge (s : State) (e arg : Nat) (t : Stamp) :
    (s.raise e arg t).fge = s.fge := by
  simp only [State.raise]; split <;> simp
@[simp] theorem State.raise_cans (s : State) (e arg : Nat) (t : Stamp) :
    (s.raise e arg t).cans = s.cans := by
  simp only [State.raise]; split <;> simp
@[simp] theorem State.raise_eths (s : State) (e arg : Nat) (t : Stamp) :
    (s.raise e arg t).eths = s.eths := by
  simp only [State.raise]; split <;> simp
@[simp] theorem State.raise_inp (s : State) (e arg : Nat) (t : Stamp) :
    (s.raise e arg t).inp = s.inp := by
  simp only [State.raise]; split <;> simp
@[simp] theorem State.raise_aon (s : State) (e arg : Nat) (t : Stamp) :
    (s.raise e arg t).aon = s.aon := by
  simp only [State.raise]; split <;> simp
@[simp] theorem State.raise_rpl (s : State) (e arg : Nat) (t : Stamp) :
    (s.raise e arg t).rpl = s.rpl := by
  simp only [State.raise]; split <;> simp
@[simp] theorem State.raise_draws (s : State) (e arg : Nat) (t : Stamp) :
    (s.raise e arg t).draws = s.draws := by
  simp only [State.raise]; split <;> simp
@[simp] theorem State.raise_hostData (s : State) (e arg : Nat) (t : Stamp) :
    (s.raise e arg t).hostData = s.hostData := by
  simp only [State.raise]; split <;> simp
@[simp] theorem State.raise_pending (s : State) (e arg : Nat) (t : Stamp) :
    (s.raise e arg t).pending = s.pending := by
  simp only [State.raise]; split <;> simp

@[simp] theorem State.raiseNow_variant (s : State) (e arg : Nat) :
    (s.raiseNow e arg).variant = s.variant := by
  simp [State.raiseNow]
@[simp] theorem State.raiseNow_power (s : State) (e arg : Nat) :
    (s.raiseNow e arg).power = s.power := by
  simp [State.raiseNow]
@[simp] theorem State.raiseNow_time (s : State) (e arg : Nat) :
    (s.raiseNow e arg).time = s.time := by
  simp [State.raiseNow]
@[simp] theorem State.raiseNow_row (s : State) (e arg : Nat) :
    (s.raiseNow e arg).row = s.row := by
  simp [State.raiseNow]
@[simp] theorem State.raiseNow_stage (s : State) (e arg : Nat) :
    (s.raiseNow e arg).stage = s.stage := by
  simp [State.raiseNow]
@[simp] theorem State.raiseNow_win (s : State) (e arg : Nat) :
    (s.raiseNow e arg).win = s.win := by
  simp [State.raiseNow]
@[simp] theorem State.raiseNow_skn (s : State) (e arg : Nat) :
    (s.raiseNow e arg).skn = s.skn := by
  simp [State.raiseNow]
@[simp] theorem State.raiseNow_snap (s : State) (e arg : Nat) :
    (s.raiseNow e arg).snap = s.snap := by
  simp [State.raiseNow]
@[simp] theorem State.raiseNow_cores (s : State) (e arg : Nat) :
    (s.raiseNow e arg).cores = s.cores := by
  simp [State.raiseNow]
@[simp] theorem State.raiseNow_ple (s : State) (e arg : Nat) :
    (s.raiseNow e arg).ple = s.ple := by
  simp [State.raiseNow]
@[simp] theorem State.raiseNow_kw (s : State) (e arg : Nat) :
    (s.raiseNow e arg).kw = s.kw := by
  simp [State.raiseNow]
@[simp] theorem State.raiseNow_fab (s : State) (e arg : Nat) :
    (s.raiseNow e arg).fab = s.fab := by
  simp [State.raiseNow]
@[simp] theorem State.raiseNow_etu (s : State) (e arg : Nat) :
    (s.raiseNow e arg).etu = s.etu := by
  simp [State.raiseNow]
@[simp] theorem State.raiseNow_dsl (s : State) (e arg : Nat) :
    (s.raiseNow e arg).dsl = s.dsl := by
  simp [State.raiseNow]
@[simp] theorem State.raiseNow_loops (s : State) (e arg : Nat) :
    (s.raiseNow e arg).loops = s.loops := by
  simp [State.raiseNow]
@[simp] theorem State.raiseNow_gnb (s : State) (e arg : Nat) :
    (s.raiseNow e arg).gnb = s.gnb := by
  simp [State.raiseNow]
@[simp] theorem State.raiseNow_fge (s : State) (e arg : Nat) :
    (s.raiseNow e arg).fge = s.fge := by
  simp [State.raiseNow]
@[simp] theorem State.raiseNow_cans (s : State) (e arg : Nat) :
    (s.raiseNow e arg).cans = s.cans := by
  simp [State.raiseNow]
@[simp] theorem State.raiseNow_eths (s : State) (e arg : Nat) :
    (s.raiseNow e arg).eths = s.eths := by
  simp [State.raiseNow]
@[simp] theorem State.raiseNow_inp (s : State) (e arg : Nat) :
    (s.raiseNow e arg).inp = s.inp := by
  simp [State.raiseNow]
@[simp] theorem State.raiseNow_aon (s : State) (e arg : Nat) :
    (s.raiseNow e arg).aon = s.aon := by
  simp [State.raiseNow]
@[simp] theorem State.raiseNow_rpl (s : State) (e arg : Nat) :
    (s.raiseNow e arg).rpl = s.rpl := by
  simp [State.raiseNow]
@[simp] theorem State.raiseNow_draws (s : State) (e arg : Nat) :
    (s.raiseNow e arg).draws = s.draws := by
  simp [State.raiseNow]
@[simp] theorem State.raiseNow_hostData (s : State) (e arg : Nat) :
    (s.raiseNow e arg).hostData = s.hostData := by
  simp [State.raiseNow]
@[simp] theorem State.raiseNow_pending (s : State) (e arg : Nat) :
    (s.raiseNow e arg).pending = s.pending := by
  simp [State.raiseNow]

@[simp] theorem State.ringFull_variant (s : State) (r : Nat) (full : Bool) :
    (s.ringFull r full).variant = s.variant := rfl
@[simp] theorem State.ringFull_power (s : State) (r : Nat) (full : Bool) :
    (s.ringFull r full).power = s.power := rfl
@[simp] theorem State.ringFull_time (s : State) (r : Nat) (full : Bool) :
    (s.ringFull r full).time = s.time := rfl
@[simp] theorem State.ringFull_row (s : State) (r : Nat) (full : Bool) :
    (s.ringFull r full).row = s.row := rfl
@[simp] theorem State.ringFull_regs (s : State) (r : Nat) (full : Bool) :
    (s.ringFull r full).regs = s.regs := rfl
@[simp] theorem State.ringFull_stage (s : State) (r : Nat) (full : Bool) :
    (s.ringFull r full).stage = s.stage := rfl
@[simp] theorem State.ringFull_win (s : State) (r : Nat) (full : Bool) :
    (s.ringFull r full).win = s.win := rfl
@[simp] theorem State.ringFull_skn (s : State) (r : Nat) (full : Bool) :
    (s.ringFull r full).skn = s.skn := rfl
@[simp] theorem State.ringFull_snap (s : State) (r : Nat) (full : Bool) :
    (s.ringFull r full).snap = s.snap := rfl
@[simp] theorem State.ringFull_cores (s : State) (r : Nat) (full : Bool) :
    (s.ringFull r full).cores = s.cores := rfl
@[simp] theorem State.ringFull_ple (s : State) (r : Nat) (full : Bool) :
    (s.ringFull r full).ple = s.ple := rfl
@[simp] theorem State.ringFull_kw (s : State) (r : Nat) (full : Bool) :
    (s.ringFull r full).kw = s.kw := rfl
@[simp] theorem State.ringFull_etu (s : State) (r : Nat) (full : Bool) :
    (s.ringFull r full).etu = s.etu := rfl
@[simp] theorem State.ringFull_dsl (s : State) (r : Nat) (full : Bool) :
    (s.ringFull r full).dsl = s.dsl := rfl
@[simp] theorem State.ringFull_loops (s : State) (r : Nat) (full : Bool) :
    (s.ringFull r full).loops = s.loops := rfl
@[simp] theorem State.ringFull_gnb (s : State) (r : Nat) (full : Bool) :
    (s.ringFull r full).gnb = s.gnb := rfl
@[simp] theorem State.ringFull_fge (s : State) (r : Nat) (full : Bool) :
    (s.ringFull r full).fge = s.fge := rfl
@[simp] theorem State.ringFull_cans (s : State) (r : Nat) (full : Bool) :
    (s.ringFull r full).cans = s.cans := rfl
@[simp] theorem State.ringFull_eths (s : State) (r : Nat) (full : Bool) :
    (s.ringFull r full).eths = s.eths := rfl
@[simp] theorem State.ringFull_inp (s : State) (r : Nat) (full : Bool) :
    (s.ringFull r full).inp = s.inp := rfl
@[simp] theorem State.ringFull_aon (s : State) (r : Nat) (full : Bool) :
    (s.ringFull r full).aon = s.aon := rfl
@[simp] theorem State.ringFull_boot (s : State) (r : Nat) (full : Bool) :
    (s.ringFull r full).boot = s.boot := rfl
@[simp] theorem State.ringFull_rpl (s : State) (r : Nat) (full : Bool) :
    (s.ringFull r full).rpl = s.rpl := rfl
@[simp] theorem State.ringFull_draws (s : State) (r : Nat) (full : Bool) :
    (s.ringFull r full).draws = s.draws := rfl
@[simp] theorem State.ringFull_hostData (s : State) (r : Nat) (full : Bool) :
    (s.ringFull r full).hostData = s.hostData := rfl
@[simp] theorem State.ringFull_pending (s : State) (r : Nat) (full : Bool) :
    (s.ringFull r full).pending = s.pending := rfl

@[simp] theorem State.ringRoom_variant (s : State) (r need : Nat) :
    (s.ringRoom r need).variant = s.variant := by
  simp only [State.ringRoom]; split <;> simp
@[simp] theorem State.ringRoom_power (s : State) (r need : Nat) :
    (s.ringRoom r need).power = s.power := by
  simp only [State.ringRoom]; split <;> simp
@[simp] theorem State.ringRoom_time (s : State) (r need : Nat) :
    (s.ringRoom r need).time = s.time := by
  simp only [State.ringRoom]; split <;> simp
@[simp] theorem State.ringRoom_row (s : State) (r need : Nat) :
    (s.ringRoom r need).row = s.row := by
  simp only [State.ringRoom]; split <;> simp
@[simp] theorem State.ringRoom_stage (s : State) (r need : Nat) :
    (s.ringRoom r need).stage = s.stage := by
  simp only [State.ringRoom]; split <;> simp
@[simp] theorem State.ringRoom_win (s : State) (r need : Nat) :
    (s.ringRoom r need).win = s.win := by
  simp only [State.ringRoom]; split <;> simp
@[simp] theorem State.ringRoom_skn (s : State) (r need : Nat) :
    (s.ringRoom r need).skn = s.skn := by
  simp only [State.ringRoom]; split <;> simp
@[simp] theorem State.ringRoom_snap (s : State) (r need : Nat) :
    (s.ringRoom r need).snap = s.snap := by
  simp only [State.ringRoom]; split <;> simp
@[simp] theorem State.ringRoom_cores (s : State) (r need : Nat) :
    (s.ringRoom r need).cores = s.cores := by
  simp only [State.ringRoom]; split <;> simp
@[simp] theorem State.ringRoom_ple (s : State) (r need : Nat) :
    (s.ringRoom r need).ple = s.ple := by
  simp only [State.ringRoom]; split <;> simp
@[simp] theorem State.ringRoom_kw (s : State) (r need : Nat) :
    (s.ringRoom r need).kw = s.kw := by
  simp only [State.ringRoom]; split <;> simp
@[simp] theorem State.ringRoom_etu (s : State) (r need : Nat) :
    (s.ringRoom r need).etu = s.etu := by
  simp only [State.ringRoom]; split <;> simp
@[simp] theorem State.ringRoom_dsl (s : State) (r need : Nat) :
    (s.ringRoom r need).dsl = s.dsl := by
  simp only [State.ringRoom]; split <;> simp
@[simp] theorem State.ringRoom_loops (s : State) (r need : Nat) :
    (s.ringRoom r need).loops = s.loops := by
  simp only [State.ringRoom]; split <;> simp
@[simp] theorem State.ringRoom_gnb (s : State) (r need : Nat) :
    (s.ringRoom r need).gnb = s.gnb := by
  simp only [State.ringRoom]; split <;> simp
@[simp] theorem State.ringRoom_fge (s : State) (r need : Nat) :
    (s.ringRoom r need).fge = s.fge := by
  simp only [State.ringRoom]; split <;> simp
@[simp] theorem State.ringRoom_cans (s : State) (r need : Nat) :
    (s.ringRoom r need).cans = s.cans := by
  simp only [State.ringRoom]; split <;> simp
@[simp] theorem State.ringRoom_eths (s : State) (r need : Nat) :
    (s.ringRoom r need).eths = s.eths := by
  simp only [State.ringRoom]; split <;> simp
@[simp] theorem State.ringRoom_inp (s : State) (r need : Nat) :
    (s.ringRoom r need).inp = s.inp := by
  simp only [State.ringRoom]; split <;> simp
@[simp] theorem State.ringRoom_aon (s : State) (r need : Nat) :
    (s.ringRoom r need).aon = s.aon := by
  simp only [State.ringRoom]; split <;> simp
@[simp] theorem State.ringRoom_rpl (s : State) (r need : Nat) :
    (s.ringRoom r need).rpl = s.rpl := by
  simp only [State.ringRoom]; split <;> simp
@[simp] theorem State.ringRoom_draws (s : State) (r need : Nat) :
    (s.ringRoom r need).draws = s.draws := by
  simp only [State.ringRoom]; split <;> simp
@[simp] theorem State.ringRoom_hostData (s : State) (r need : Nat) :
    (s.ringRoom r need).hostData = s.hostData := by
  simp only [State.ringRoom]; split <;> simp
@[simp] theorem State.ringRoom_pending (s : State) (r need : Nat) :
    (s.ringRoom r need).pending = s.pending := by
  simp only [State.ringRoom]; split <;> simp

@[simp] theorem State.ringBlock_variant (s : State) (r : Nat) (b : List Byte) :
    (s.ringBlock r b).variant = s.variant := by
  simp only [State.ringBlock, State.ringFull_variant, State.setLive_variant]; split <;> simp
@[simp] theorem State.ringBlock_power (s : State) (r : Nat) (b : List Byte) :
    (s.ringBlock r b).power = s.power := by
  simp only [State.ringBlock, State.ringFull_power, State.setLive_power]; split <;> simp
@[simp] theorem State.ringBlock_time (s : State) (r : Nat) (b : List Byte) :
    (s.ringBlock r b).time = s.time := by
  simp only [State.ringBlock, State.ringFull_time, State.setLive_time]; split <;> simp
@[simp] theorem State.ringBlock_row (s : State) (r : Nat) (b : List Byte) :
    (s.ringBlock r b).row = s.row := by
  simp only [State.ringBlock, State.ringFull_row, State.setLive_row]; split <;> simp
@[simp] theorem State.ringBlock_stage (s : State) (r : Nat) (b : List Byte) :
    (s.ringBlock r b).stage = s.stage := by
  simp only [State.ringBlock, State.ringFull_stage, State.setLive_stage]; split <;> simp
@[simp] theorem State.ringBlock_win (s : State) (r : Nat) (b : List Byte) :
    (s.ringBlock r b).win = s.win := by
  simp only [State.ringBlock, State.ringFull_win, State.setLive_win]; split <;> simp
@[simp] theorem State.ringBlock_skn (s : State) (r : Nat) (b : List Byte) :
    (s.ringBlock r b).skn = s.skn := by
  simp only [State.ringBlock, State.ringFull_skn, State.setLive_skn]; split <;> simp
@[simp] theorem State.ringBlock_snap (s : State) (r : Nat) (b : List Byte) :
    (s.ringBlock r b).snap = s.snap := by
  simp only [State.ringBlock, State.ringFull_snap, State.setLive_snap]; split <;> simp
@[simp] theorem State.ringBlock_cores (s : State) (r : Nat) (b : List Byte) :
    (s.ringBlock r b).cores = s.cores := by
  simp only [State.ringBlock, State.ringFull_cores, State.setLive_cores]; split <;> simp
@[simp] theorem State.ringBlock_ple (s : State) (r : Nat) (b : List Byte) :
    (s.ringBlock r b).ple = s.ple := by
  simp only [State.ringBlock, State.ringFull_ple, State.setLive_ple]; split <;> simp
@[simp] theorem State.ringBlock_kw (s : State) (r : Nat) (b : List Byte) :
    (s.ringBlock r b).kw = s.kw := by
  simp only [State.ringBlock, State.ringFull_kw, State.setLive_kw]; split <;> simp
@[simp] theorem State.ringBlock_etu (s : State) (r : Nat) (b : List Byte) :
    (s.ringBlock r b).etu = s.etu := by
  simp only [State.ringBlock, State.ringFull_etu, State.setLive_etu]; split <;> simp
@[simp] theorem State.ringBlock_dsl (s : State) (r : Nat) (b : List Byte) :
    (s.ringBlock r b).dsl = s.dsl := by
  simp only [State.ringBlock, State.ringFull_dsl, State.setLive_dsl]; split <;> simp
@[simp] theorem State.ringBlock_loops (s : State) (r : Nat) (b : List Byte) :
    (s.ringBlock r b).loops = s.loops := by
  simp only [State.ringBlock, State.ringFull_loops, State.setLive_loops]; split <;> simp
@[simp] theorem State.ringBlock_gnb (s : State) (r : Nat) (b : List Byte) :
    (s.ringBlock r b).gnb = s.gnb := by
  simp only [State.ringBlock, State.ringFull_gnb, State.setLive_gnb]; split <;> simp
@[simp] theorem State.ringBlock_fge (s : State) (r : Nat) (b : List Byte) :
    (s.ringBlock r b).fge = s.fge := by
  simp only [State.ringBlock, State.ringFull_fge, State.setLive_fge]; split <;> simp
@[simp] theorem State.ringBlock_cans (s : State) (r : Nat) (b : List Byte) :
    (s.ringBlock r b).cans = s.cans := by
  simp only [State.ringBlock, State.ringFull_cans, State.setLive_cans]; split <;> simp
@[simp] theorem State.ringBlock_eths (s : State) (r : Nat) (b : List Byte) :
    (s.ringBlock r b).eths = s.eths := by
  simp only [State.ringBlock, State.ringFull_eths, State.setLive_eths]; split <;> simp
@[simp] theorem State.ringBlock_inp (s : State) (r : Nat) (b : List Byte) :
    (s.ringBlock r b).inp = s.inp := by
  simp only [State.ringBlock, State.ringFull_inp, State.setLive_inp]; split <;> simp
@[simp] theorem State.ringBlock_aon (s : State) (r : Nat) (b : List Byte) :
    (s.ringBlock r b).aon = s.aon := by
  simp only [State.ringBlock, State.ringFull_aon, State.setLive_aon]; split <;> simp
@[simp] theorem State.ringBlock_rpl (s : State) (r : Nat) (b : List Byte) :
    (s.ringBlock r b).rpl = s.rpl := by
  simp only [State.ringBlock, State.ringFull_rpl, State.setLive_rpl]; split <;> simp
@[simp] theorem State.ringBlock_draws (s : State) (r : Nat) (b : List Byte) :
    (s.ringBlock r b).draws = s.draws := by
  simp only [State.ringBlock, State.ringFull_draws, State.setLive_draws]; split <;> simp
@[simp] theorem State.ringBlock_hostData (s : State) (r : Nat) (b : List Byte) :
    (s.ringBlock r b).hostData = s.hostData := by
  simp only [State.ringBlock, State.ringFull_hostData, State.setLive_hostData]; split <;> simp
@[simp] theorem State.ringBlock_pending (s : State) (r : Nat) (b : List Byte) :
    (s.ringBlock r b).pending = s.pending := by
  simp only [State.ringBlock, State.ringFull_pending, State.setLive_pending]; split <;> simp

/-- A fold keeps what each of its steps keeps. -/
theorem foldl_keeps {α β γ : Type} (g : α → γ) (step : α → β → α) (h : ∀ a b, g (step a b) = g a) :
    ∀ (l : List β) (a : α), g (l.foldl step a) = g a
  | [], _ => rfl
  | b :: t, a => (foldl_keeps g step h t (step a b)).trans (h a b)

@[simp] theorem State.ringWrite_variant (s : State) (r : Nat) (l : List Byte) :
    (s.ringWrite r l).variant = s.variant := by
  simp only [State.ringWrite]; split
  · exact (foldl_keeps (fun s : State => s.variant) _ (fun s b => State.ringBlock_variant s r b) _ _).trans
      (State.ringRoom_variant s r _)
  · rfl
@[simp] theorem State.ringWrite_power (s : State) (r : Nat) (l : List Byte) :
    (s.ringWrite r l).power = s.power := by
  simp only [State.ringWrite]; split
  · exact (foldl_keeps (fun s : State => s.power) _ (fun s b => State.ringBlock_power s r b) _ _).trans
      (State.ringRoom_power s r _)
  · rfl
@[simp] theorem State.ringWrite_time (s : State) (r : Nat) (l : List Byte) :
    (s.ringWrite r l).time = s.time := by
  simp only [State.ringWrite]; split
  · exact (foldl_keeps (fun s : State => s.time) _ (fun s b => State.ringBlock_time s r b) _ _).trans
      (State.ringRoom_time s r _)
  · rfl
@[simp] theorem State.ringWrite_row (s : State) (r : Nat) (l : List Byte) :
    (s.ringWrite r l).row = s.row := by
  simp only [State.ringWrite]; split
  · exact (foldl_keeps (fun s : State => s.row) _ (fun s b => State.ringBlock_row s r b) _ _).trans
      (State.ringRoom_row s r _)
  · rfl
@[simp] theorem State.ringWrite_stage (s : State) (r : Nat) (l : List Byte) :
    (s.ringWrite r l).stage = s.stage := by
  simp only [State.ringWrite]; split
  · exact (foldl_keeps (fun s : State => s.stage) _ (fun s b => State.ringBlock_stage s r b) _ _).trans
      (State.ringRoom_stage s r _)
  · rfl
@[simp] theorem State.ringWrite_win (s : State) (r : Nat) (l : List Byte) :
    (s.ringWrite r l).win = s.win := by
  simp only [State.ringWrite]; split
  · exact (foldl_keeps (fun s : State => s.win) _ (fun s b => State.ringBlock_win s r b) _ _).trans
      (State.ringRoom_win s r _)
  · rfl
@[simp] theorem State.ringWrite_skn (s : State) (r : Nat) (l : List Byte) :
    (s.ringWrite r l).skn = s.skn := by
  simp only [State.ringWrite]; split
  · exact (foldl_keeps (fun s : State => s.skn) _ (fun s b => State.ringBlock_skn s r b) _ _).trans
      (State.ringRoom_skn s r _)
  · rfl
@[simp] theorem State.ringWrite_snap (s : State) (r : Nat) (l : List Byte) :
    (s.ringWrite r l).snap = s.snap := by
  simp only [State.ringWrite]; split
  · exact (foldl_keeps (fun s : State => s.snap) _ (fun s b => State.ringBlock_snap s r b) _ _).trans
      (State.ringRoom_snap s r _)
  · rfl
@[simp] theorem State.ringWrite_cores (s : State) (r : Nat) (l : List Byte) :
    (s.ringWrite r l).cores = s.cores := by
  simp only [State.ringWrite]; split
  · exact (foldl_keeps (fun s : State => s.cores) _ (fun s b => State.ringBlock_cores s r b) _ _).trans
      (State.ringRoom_cores s r _)
  · rfl
@[simp] theorem State.ringWrite_ple (s : State) (r : Nat) (l : List Byte) :
    (s.ringWrite r l).ple = s.ple := by
  simp only [State.ringWrite]; split
  · exact (foldl_keeps (fun s : State => s.ple) _ (fun s b => State.ringBlock_ple s r b) _ _).trans
      (State.ringRoom_ple s r _)
  · rfl
@[simp] theorem State.ringWrite_kw (s : State) (r : Nat) (l : List Byte) :
    (s.ringWrite r l).kw = s.kw := by
  simp only [State.ringWrite]; split
  · exact (foldl_keeps (fun s : State => s.kw) _ (fun s b => State.ringBlock_kw s r b) _ _).trans
      (State.ringRoom_kw s r _)
  · rfl
@[simp] theorem State.ringWrite_etu (s : State) (r : Nat) (l : List Byte) :
    (s.ringWrite r l).etu = s.etu := by
  simp only [State.ringWrite]; split
  · exact (foldl_keeps (fun s : State => s.etu) _ (fun s b => State.ringBlock_etu s r b) _ _).trans
      (State.ringRoom_etu s r _)
  · rfl
@[simp] theorem State.ringWrite_dsl (s : State) (r : Nat) (l : List Byte) :
    (s.ringWrite r l).dsl = s.dsl := by
  simp only [State.ringWrite]; split
  · exact (foldl_keeps (fun s : State => s.dsl) _ (fun s b => State.ringBlock_dsl s r b) _ _).trans
      (State.ringRoom_dsl s r _)
  · rfl
@[simp] theorem State.ringWrite_loops (s : State) (r : Nat) (l : List Byte) :
    (s.ringWrite r l).loops = s.loops := by
  simp only [State.ringWrite]; split
  · exact (foldl_keeps (fun s : State => s.loops) _ (fun s b => State.ringBlock_loops s r b) _ _).trans
      (State.ringRoom_loops s r _)
  · rfl
@[simp] theorem State.ringWrite_gnb (s : State) (r : Nat) (l : List Byte) :
    (s.ringWrite r l).gnb = s.gnb := by
  simp only [State.ringWrite]; split
  · exact (foldl_keeps (fun s : State => s.gnb) _ (fun s b => State.ringBlock_gnb s r b) _ _).trans
      (State.ringRoom_gnb s r _)
  · rfl
@[simp] theorem State.ringWrite_fge (s : State) (r : Nat) (l : List Byte) :
    (s.ringWrite r l).fge = s.fge := by
  simp only [State.ringWrite]; split
  · exact (foldl_keeps (fun s : State => s.fge) _ (fun s b => State.ringBlock_fge s r b) _ _).trans
      (State.ringRoom_fge s r _)
  · rfl
@[simp] theorem State.ringWrite_cans (s : State) (r : Nat) (l : List Byte) :
    (s.ringWrite r l).cans = s.cans := by
  simp only [State.ringWrite]; split
  · exact (foldl_keeps (fun s : State => s.cans) _ (fun s b => State.ringBlock_cans s r b) _ _).trans
      (State.ringRoom_cans s r _)
  · rfl
@[simp] theorem State.ringWrite_eths (s : State) (r : Nat) (l : List Byte) :
    (s.ringWrite r l).eths = s.eths := by
  simp only [State.ringWrite]; split
  · exact (foldl_keeps (fun s : State => s.eths) _ (fun s b => State.ringBlock_eths s r b) _ _).trans
      (State.ringRoom_eths s r _)
  · rfl
@[simp] theorem State.ringWrite_inp (s : State) (r : Nat) (l : List Byte) :
    (s.ringWrite r l).inp = s.inp := by
  simp only [State.ringWrite]; split
  · exact (foldl_keeps (fun s : State => s.inp) _ (fun s b => State.ringBlock_inp s r b) _ _).trans
      (State.ringRoom_inp s r _)
  · rfl
@[simp] theorem State.ringWrite_aon (s : State) (r : Nat) (l : List Byte) :
    (s.ringWrite r l).aon = s.aon := by
  simp only [State.ringWrite]; split
  · exact (foldl_keeps (fun s : State => s.aon) _ (fun s b => State.ringBlock_aon s r b) _ _).trans
      (State.ringRoom_aon s r _)
  · rfl
@[simp] theorem State.ringWrite_rpl (s : State) (r : Nat) (l : List Byte) :
    (s.ringWrite r l).rpl = s.rpl := by
  simp only [State.ringWrite]; split
  · exact (foldl_keeps (fun s : State => s.rpl) _ (fun s b => State.ringBlock_rpl s r b) _ _).trans
      (State.ringRoom_rpl s r _)
  · rfl
@[simp] theorem State.ringWrite_draws (s : State) (r : Nat) (l : List Byte) :
    (s.ringWrite r l).draws = s.draws := by
  simp only [State.ringWrite]; split
  · exact (foldl_keeps (fun s : State => s.draws) _ (fun s b => State.ringBlock_draws s r b) _ _).trans
      (State.ringRoom_draws s r _)
  · rfl
@[simp] theorem State.ringWrite_hostData (s : State) (r : Nat) (l : List Byte) :
    (s.ringWrite r l).hostData = s.hostData := by
  simp only [State.ringWrite]; split
  · exact (foldl_keeps (fun s : State => s.hostData) _ (fun s b => State.ringBlock_hostData s r b) _ _).trans
      (State.ringRoom_hostData s r _)
  · rfl
@[simp] theorem State.ringWrite_pending (s : State) (r : Nat) (l : List Byte) :
    (s.ringWrite r l).pending = s.pending := by
  simp only [State.ringWrite]; split
  · exact (foldl_keeps (fun s : State => s.pending) _ (fun s b => State.ringBlock_pending s r b) _ _).trans
      (State.ringRoom_pending s r _)
  · rfl

@[simp] theorem State.logEntry_variant (s : State) (kind arg : Nat) (t : Stamp) (row : W32) :
    (s.logEntry kind arg t row).variant = s.variant := by
  simp only [State.logEntry]; split <;> simp
@[simp] theorem State.logEntry_power (s : State) (kind arg : Nat) (t : Stamp) (row : W32) :
    (s.logEntry kind arg t row).power = s.power := by
  simp only [State.logEntry]; split <;> simp
@[simp] theorem State.logEntry_time (s : State) (kind arg : Nat) (t : Stamp) (row : W32) :
    (s.logEntry kind arg t row).time = s.time := by
  simp only [State.logEntry]; split <;> simp
@[simp] theorem State.logEntry_row (s : State) (kind arg : Nat) (t : Stamp) (row : W32) :
    (s.logEntry kind arg t row).row = s.row := by
  simp only [State.logEntry]; split <;> simp
@[simp] theorem State.logEntry_stage (s : State) (kind arg : Nat) (t : Stamp) (row : W32) :
    (s.logEntry kind arg t row).stage = s.stage := by
  simp only [State.logEntry]; split <;> simp
@[simp] theorem State.logEntry_win (s : State) (kind arg : Nat) (t : Stamp) (row : W32) :
    (s.logEntry kind arg t row).win = s.win := by
  simp only [State.logEntry]; split <;> simp
@[simp] theorem State.logEntry_skn (s : State) (kind arg : Nat) (t : Stamp) (row : W32) :
    (s.logEntry kind arg t row).skn = s.skn := by
  simp only [State.logEntry]; split <;> simp
@[simp] theorem State.logEntry_snap (s : State) (kind arg : Nat) (t : Stamp) (row : W32) :
    (s.logEntry kind arg t row).snap = s.snap := by
  simp only [State.logEntry]; split <;> simp
@[simp] theorem State.logEntry_cores (s : State) (kind arg : Nat) (t : Stamp) (row : W32) :
    (s.logEntry kind arg t row).cores = s.cores := by
  simp only [State.logEntry]; split <;> simp
@[simp] theorem State.logEntry_ple (s : State) (kind arg : Nat) (t : Stamp) (row : W32) :
    (s.logEntry kind arg t row).ple = s.ple := by
  simp only [State.logEntry]; split <;> simp
@[simp] theorem State.logEntry_kw (s : State) (kind arg : Nat) (t : Stamp) (row : W32) :
    (s.logEntry kind arg t row).kw = s.kw := by
  simp only [State.logEntry]; split <;> simp
@[simp] theorem State.logEntry_etu (s : State) (kind arg : Nat) (t : Stamp) (row : W32) :
    (s.logEntry kind arg t row).etu = s.etu := by
  simp only [State.logEntry]; split <;> simp
@[simp] theorem State.logEntry_dsl (s : State) (kind arg : Nat) (t : Stamp) (row : W32) :
    (s.logEntry kind arg t row).dsl = s.dsl := by
  simp only [State.logEntry]; split <;> simp
@[simp] theorem State.logEntry_loops (s : State) (kind arg : Nat) (t : Stamp) (row : W32) :
    (s.logEntry kind arg t row).loops = s.loops := by
  simp only [State.logEntry]; split <;> simp
@[simp] theorem State.logEntry_gnb (s : State) (kind arg : Nat) (t : Stamp) (row : W32) :
    (s.logEntry kind arg t row).gnb = s.gnb := by
  simp only [State.logEntry]; split <;> simp
@[simp] theorem State.logEntry_fge (s : State) (kind arg : Nat) (t : Stamp) (row : W32) :
    (s.logEntry kind arg t row).fge = s.fge := by
  simp only [State.logEntry]; split <;> simp
@[simp] theorem State.logEntry_cans (s : State) (kind arg : Nat) (t : Stamp) (row : W32) :
    (s.logEntry kind arg t row).cans = s.cans := by
  simp only [State.logEntry]; split <;> simp
@[simp] theorem State.logEntry_eths (s : State) (kind arg : Nat) (t : Stamp) (row : W32) :
    (s.logEntry kind arg t row).eths = s.eths := by
  simp only [State.logEntry]; split <;> simp
@[simp] theorem State.logEntry_inp (s : State) (kind arg : Nat) (t : Stamp) (row : W32) :
    (s.logEntry kind arg t row).inp = s.inp := by
  simp only [State.logEntry]; split <;> simp
@[simp] theorem State.logEntry_aon (s : State) (kind arg : Nat) (t : Stamp) (row : W32) :
    (s.logEntry kind arg t row).aon = s.aon := by
  simp only [State.logEntry]; split <;> simp
@[simp] theorem State.logEntry_rpl (s : State) (kind arg : Nat) (t : Stamp) (row : W32) :
    (s.logEntry kind arg t row).rpl = s.rpl := by
  simp only [State.logEntry]; split <;> simp
@[simp] theorem State.logEntry_draws (s : State) (kind arg : Nat) (t : Stamp) (row : W32) :
    (s.logEntry kind arg t row).draws = s.draws := by
  simp only [State.logEntry]; split <;> simp
@[simp] theorem State.logEntry_hostData (s : State) (kind arg : Nat) (t : Stamp) (row : W32) :
    (s.logEntry kind arg t row).hostData = s.hostData := by
  simp only [State.logEntry]; split <;> simp
@[simp] theorem State.logEntry_pending (s : State) (kind arg : Nat) (t : Stamp) (row : W32) :
    (s.logEntry kind arg t row).pending = s.pending := by
  simp only [State.logEntry]; split <;> simp

@[simp] theorem State.logLive_variant (s : State) (p : Port) (a v : Nat) (t : Stamp) :
    (s.logLive p a v t).variant = s.variant := by
  simp [State.logLive]
@[simp] theorem State.logLive_power (s : State) (p : Port) (a v : Nat) (t : Stamp) :
    (s.logLive p a v t).power = s.power := by
  simp [State.logLive]
@[simp] theorem State.logLive_time (s : State) (p : Port) (a v : Nat) (t : Stamp) :
    (s.logLive p a v t).time = s.time := by
  simp [State.logLive]
@[simp] theorem State.logLive_row (s : State) (p : Port) (a v : Nat) (t : Stamp) :
    (s.logLive p a v t).row = s.row := by
  simp [State.logLive]
@[simp] theorem State.logLive_stage (s : State) (p : Port) (a v : Nat) (t : Stamp) :
    (s.logLive p a v t).stage = s.stage := by
  simp [State.logLive]
@[simp] theorem State.logLive_win (s : State) (p : Port) (a v : Nat) (t : Stamp) :
    (s.logLive p a v t).win = s.win := by
  simp [State.logLive]
@[simp] theorem State.logLive_skn (s : State) (p : Port) (a v : Nat) (t : Stamp) :
    (s.logLive p a v t).skn = s.skn := by
  simp [State.logLive]
@[simp] theorem State.logLive_snap (s : State) (p : Port) (a v : Nat) (t : Stamp) :
    (s.logLive p a v t).snap = s.snap := by
  simp [State.logLive]
@[simp] theorem State.logLive_cores (s : State) (p : Port) (a v : Nat) (t : Stamp) :
    (s.logLive p a v t).cores = s.cores := by
  simp [State.logLive]
@[simp] theorem State.logLive_ple (s : State) (p : Port) (a v : Nat) (t : Stamp) :
    (s.logLive p a v t).ple = s.ple := by
  simp [State.logLive]
@[simp] theorem State.logLive_kw (s : State) (p : Port) (a v : Nat) (t : Stamp) :
    (s.logLive p a v t).kw = s.kw := by
  simp [State.logLive]
@[simp] theorem State.logLive_etu (s : State) (p : Port) (a v : Nat) (t : Stamp) :
    (s.logLive p a v t).etu = s.etu := by
  simp [State.logLive]
@[simp] theorem State.logLive_dsl (s : State) (p : Port) (a v : Nat) (t : Stamp) :
    (s.logLive p a v t).dsl = s.dsl := by
  simp [State.logLive]
@[simp] theorem State.logLive_loops (s : State) (p : Port) (a v : Nat) (t : Stamp) :
    (s.logLive p a v t).loops = s.loops := by
  simp [State.logLive]
@[simp] theorem State.logLive_gnb (s : State) (p : Port) (a v : Nat) (t : Stamp) :
    (s.logLive p a v t).gnb = s.gnb := by
  simp [State.logLive]
@[simp] theorem State.logLive_fge (s : State) (p : Port) (a v : Nat) (t : Stamp) :
    (s.logLive p a v t).fge = s.fge := by
  simp [State.logLive]
@[simp] theorem State.logLive_cans (s : State) (p : Port) (a v : Nat) (t : Stamp) :
    (s.logLive p a v t).cans = s.cans := by
  simp [State.logLive]
@[simp] theorem State.logLive_eths (s : State) (p : Port) (a v : Nat) (t : Stamp) :
    (s.logLive p a v t).eths = s.eths := by
  simp [State.logLive]
@[simp] theorem State.logLive_inp (s : State) (p : Port) (a v : Nat) (t : Stamp) :
    (s.logLive p a v t).inp = s.inp := by
  simp [State.logLive]
@[simp] theorem State.logLive_aon (s : State) (p : Port) (a v : Nat) (t : Stamp) :
    (s.logLive p a v t).aon = s.aon := by
  simp [State.logLive]
@[simp] theorem State.logLive_rpl (s : State) (p : Port) (a v : Nat) (t : Stamp) :
    (s.logLive p a v t).rpl = s.rpl := by
  simp [State.logLive]
@[simp] theorem State.logLive_draws (s : State) (p : Port) (a v : Nat) (t : Stamp) :
    (s.logLive p a v t).draws = s.draws := by
  simp [State.logLive]
@[simp] theorem State.logLive_hostData (s : State) (p : Port) (a v : Nat) (t : Stamp) :
    (s.logLive p a v t).hostData = s.hostData := by
  simp [State.logLive]
@[simp] theorem State.logLive_pending (s : State) (p : Port) (a v : Nat) (t : Stamp) :
    (s.logLive p a v t).pending = s.pending := by
  simp [State.logLive]

@[simp] theorem State.logLateEngine_variant (s : State) (ev : Nat) :
    (s.logLateEngine ev).variant = s.variant := by
  simp [State.logLateEngine]
@[simp] theorem State.logLateEngine_power (s : State) (ev : Nat) :
    (s.logLateEngine ev).power = s.power := by
  simp [State.logLateEngine]
@[simp] theorem State.logLateEngine_time (s : State) (ev : Nat) :
    (s.logLateEngine ev).time = s.time := by
  simp [State.logLateEngine]
@[simp] theorem State.logLateEngine_row (s : State) (ev : Nat) :
    (s.logLateEngine ev).row = s.row := by
  simp [State.logLateEngine]
@[simp] theorem State.logLateEngine_stage (s : State) (ev : Nat) :
    (s.logLateEngine ev).stage = s.stage := by
  simp [State.logLateEngine]
@[simp] theorem State.logLateEngine_win (s : State) (ev : Nat) :
    (s.logLateEngine ev).win = s.win := by
  simp [State.logLateEngine]
@[simp] theorem State.logLateEngine_skn (s : State) (ev : Nat) :
    (s.logLateEngine ev).skn = s.skn := by
  simp [State.logLateEngine]
@[simp] theorem State.logLateEngine_snap (s : State) (ev : Nat) :
    (s.logLateEngine ev).snap = s.snap := by
  simp [State.logLateEngine]
@[simp] theorem State.logLateEngine_cores (s : State) (ev : Nat) :
    (s.logLateEngine ev).cores = s.cores := by
  simp [State.logLateEngine]
@[simp] theorem State.logLateEngine_ple (s : State) (ev : Nat) :
    (s.logLateEngine ev).ple = s.ple := by
  simp [State.logLateEngine]
@[simp] theorem State.logLateEngine_kw (s : State) (ev : Nat) :
    (s.logLateEngine ev).kw = s.kw := by
  simp [State.logLateEngine]
@[simp] theorem State.logLateEngine_etu (s : State) (ev : Nat) :
    (s.logLateEngine ev).etu = s.etu := by
  simp [State.logLateEngine]
@[simp] theorem State.logLateEngine_dsl (s : State) (ev : Nat) :
    (s.logLateEngine ev).dsl = s.dsl := by
  simp [State.logLateEngine]
@[simp] theorem State.logLateEngine_loops (s : State) (ev : Nat) :
    (s.logLateEngine ev).loops = s.loops := by
  simp [State.logLateEngine]
@[simp] theorem State.logLateEngine_gnb (s : State) (ev : Nat) :
    (s.logLateEngine ev).gnb = s.gnb := by
  simp [State.logLateEngine]
@[simp] theorem State.logLateEngine_fge (s : State) (ev : Nat) :
    (s.logLateEngine ev).fge = s.fge := by
  simp [State.logLateEngine]
@[simp] theorem State.logLateEngine_cans (s : State) (ev : Nat) :
    (s.logLateEngine ev).cans = s.cans := by
  simp [State.logLateEngine]
@[simp] theorem State.logLateEngine_eths (s : State) (ev : Nat) :
    (s.logLateEngine ev).eths = s.eths := by
  simp [State.logLateEngine]
@[simp] theorem State.logLateEngine_inp (s : State) (ev : Nat) :
    (s.logLateEngine ev).inp = s.inp := by
  simp [State.logLateEngine]
@[simp] theorem State.logLateEngine_aon (s : State) (ev : Nat) :
    (s.logLateEngine ev).aon = s.aon := by
  simp [State.logLateEngine]
@[simp] theorem State.logLateEngine_rpl (s : State) (ev : Nat) :
    (s.logLateEngine ev).rpl = s.rpl := by
  simp [State.logLateEngine]
@[simp] theorem State.logLateEngine_draws (s : State) (ev : Nat) :
    (s.logLateEngine ev).draws = s.draws := by
  simp [State.logLateEngine]
@[simp] theorem State.logLateEngine_hostData (s : State) (ev : Nat) :
    (s.logLateEngine ev).hostData = s.hostData := by
  simp [State.logLateEngine]
@[simp] theorem State.logLateEngine_pending (s : State) (ev : Nat) :
    (s.logLateEngine ev).pending = s.pending := by
  simp [State.logLateEngine]

@[simp] theorem State.capture_variant (s : State) (kind lo mid hi : Nat) (l : List Byte) :
    (s.capture kind lo mid hi l).variant = s.variant := by
  simp only [State.capture]; split <;> simp
@[simp] theorem State.capture_power (s : State) (kind lo mid hi : Nat) (l : List Byte) :
    (s.capture kind lo mid hi l).power = s.power := by
  simp only [State.capture]; split <;> simp
@[simp] theorem State.capture_time (s : State) (kind lo mid hi : Nat) (l : List Byte) :
    (s.capture kind lo mid hi l).time = s.time := by
  simp only [State.capture]; split <;> simp
@[simp] theorem State.capture_row (s : State) (kind lo mid hi : Nat) (l : List Byte) :
    (s.capture kind lo mid hi l).row = s.row := by
  simp only [State.capture]; split <;> simp
@[simp] theorem State.capture_stage (s : State) (kind lo mid hi : Nat) (l : List Byte) :
    (s.capture kind lo mid hi l).stage = s.stage := by
  simp only [State.capture]; split <;> simp
@[simp] theorem State.capture_win (s : State) (kind lo mid hi : Nat) (l : List Byte) :
    (s.capture kind lo mid hi l).win = s.win := by
  simp only [State.capture]; split <;> simp
@[simp] theorem State.capture_skn (s : State) (kind lo mid hi : Nat) (l : List Byte) :
    (s.capture kind lo mid hi l).skn = s.skn := by
  simp only [State.capture]; split <;> simp
@[simp] theorem State.capture_snap (s : State) (kind lo mid hi : Nat) (l : List Byte) :
    (s.capture kind lo mid hi l).snap = s.snap := by
  simp only [State.capture]; split <;> simp
@[simp] theorem State.capture_cores (s : State) (kind lo mid hi : Nat) (l : List Byte) :
    (s.capture kind lo mid hi l).cores = s.cores := by
  simp only [State.capture]; split <;> simp
@[simp] theorem State.capture_ple (s : State) (kind lo mid hi : Nat) (l : List Byte) :
    (s.capture kind lo mid hi l).ple = s.ple := by
  simp only [State.capture]; split <;> simp
@[simp] theorem State.capture_kw (s : State) (kind lo mid hi : Nat) (l : List Byte) :
    (s.capture kind lo mid hi l).kw = s.kw := by
  simp only [State.capture]; split <;> simp
@[simp] theorem State.capture_etu (s : State) (kind lo mid hi : Nat) (l : List Byte) :
    (s.capture kind lo mid hi l).etu = s.etu := by
  simp only [State.capture]; split <;> simp
@[simp] theorem State.capture_dsl (s : State) (kind lo mid hi : Nat) (l : List Byte) :
    (s.capture kind lo mid hi l).dsl = s.dsl := by
  simp only [State.capture]; split <;> simp
@[simp] theorem State.capture_loops (s : State) (kind lo mid hi : Nat) (l : List Byte) :
    (s.capture kind lo mid hi l).loops = s.loops := by
  simp only [State.capture]; split <;> simp
@[simp] theorem State.capture_gnb (s : State) (kind lo mid hi : Nat) (l : List Byte) :
    (s.capture kind lo mid hi l).gnb = s.gnb := by
  simp only [State.capture]; split <;> simp
@[simp] theorem State.capture_fge (s : State) (kind lo mid hi : Nat) (l : List Byte) :
    (s.capture kind lo mid hi l).fge = s.fge := by
  simp only [State.capture]; split <;> simp
@[simp] theorem State.capture_cans (s : State) (kind lo mid hi : Nat) (l : List Byte) :
    (s.capture kind lo mid hi l).cans = s.cans := by
  simp only [State.capture]; split <;> simp
@[simp] theorem State.capture_eths (s : State) (kind lo mid hi : Nat) (l : List Byte) :
    (s.capture kind lo mid hi l).eths = s.eths := by
  simp only [State.capture]; split <;> simp
@[simp] theorem State.capture_inp (s : State) (kind lo mid hi : Nat) (l : List Byte) :
    (s.capture kind lo mid hi l).inp = s.inp := by
  simp only [State.capture]; split <;> simp
@[simp] theorem State.capture_aon (s : State) (kind lo mid hi : Nat) (l : List Byte) :
    (s.capture kind lo mid hi l).aon = s.aon := by
  simp only [State.capture]; split <;> simp
@[simp] theorem State.capture_rpl (s : State) (kind lo mid hi : Nat) (l : List Byte) :
    (s.capture kind lo mid hi l).rpl = s.rpl := by
  simp only [State.capture]; split <;> simp
@[simp] theorem State.capture_draws (s : State) (kind lo mid hi : Nat) (l : List Byte) :
    (s.capture kind lo mid hi l).draws = s.draws := by
  simp only [State.capture]; split <;> simp
@[simp] theorem State.capture_hostData (s : State) (kind lo mid hi : Nat) (l : List Byte) :
    (s.capture kind lo mid hi l).hostData = s.hostData := by
  simp only [State.capture]; split <;> simp
@[simp] theorem State.capture_pending (s : State) (kind lo mid hi : Nat) (l : List Byte) :
    (s.capture kind lo mid hi l).pending = s.pending := by
  simp only [State.capture]; split <;> simp

@[simp] theorem State.refuseAge_variant (s : State) (id : InputId) (src adm : Stamp) :
    (s.refuseAge id src adm).variant = s.variant := by
  simp [State.refuseAge]
@[simp] theorem State.refuseAge_power (s : State) (id : InputId) (src adm : Stamp) :
    (s.refuseAge id src adm).power = s.power := by
  simp [State.refuseAge]
@[simp] theorem State.refuseAge_time (s : State) (id : InputId) (src adm : Stamp) :
    (s.refuseAge id src adm).time = s.time := by
  simp [State.refuseAge]
@[simp] theorem State.refuseAge_row (s : State) (id : InputId) (src adm : Stamp) :
    (s.refuseAge id src adm).row = s.row := by
  simp [State.refuseAge]
@[simp] theorem State.refuseAge_stage (s : State) (id : InputId) (src adm : Stamp) :
    (s.refuseAge id src adm).stage = s.stage := by
  simp [State.refuseAge]
@[simp] theorem State.refuseAge_win (s : State) (id : InputId) (src adm : Stamp) :
    (s.refuseAge id src adm).win = s.win := by
  simp [State.refuseAge]
@[simp] theorem State.refuseAge_skn (s : State) (id : InputId) (src adm : Stamp) :
    (s.refuseAge id src adm).skn = s.skn := by
  simp [State.refuseAge]
@[simp] theorem State.refuseAge_snap (s : State) (id : InputId) (src adm : Stamp) :
    (s.refuseAge id src adm).snap = s.snap := by
  simp [State.refuseAge]
@[simp] theorem State.refuseAge_cores (s : State) (id : InputId) (src adm : Stamp) :
    (s.refuseAge id src adm).cores = s.cores := by
  simp [State.refuseAge]
@[simp] theorem State.refuseAge_ple (s : State) (id : InputId) (src adm : Stamp) :
    (s.refuseAge id src adm).ple = s.ple := by
  simp [State.refuseAge]
@[simp] theorem State.refuseAge_kw (s : State) (id : InputId) (src adm : Stamp) :
    (s.refuseAge id src adm).kw = s.kw := by
  simp [State.refuseAge]
@[simp] theorem State.refuseAge_etu (s : State) (id : InputId) (src adm : Stamp) :
    (s.refuseAge id src adm).etu = s.etu := by
  simp [State.refuseAge]
@[simp] theorem State.refuseAge_dsl (s : State) (id : InputId) (src adm : Stamp) :
    (s.refuseAge id src adm).dsl = s.dsl := by
  simp [State.refuseAge]
@[simp] theorem State.refuseAge_loops (s : State) (id : InputId) (src adm : Stamp) :
    (s.refuseAge id src adm).loops = s.loops := by
  simp [State.refuseAge]
@[simp] theorem State.refuseAge_gnb (s : State) (id : InputId) (src adm : Stamp) :
    (s.refuseAge id src adm).gnb = s.gnb := by
  simp [State.refuseAge]
@[simp] theorem State.refuseAge_fge (s : State) (id : InputId) (src adm : Stamp) :
    (s.refuseAge id src adm).fge = s.fge := by
  simp [State.refuseAge]
@[simp] theorem State.refuseAge_cans (s : State) (id : InputId) (src adm : Stamp) :
    (s.refuseAge id src adm).cans = s.cans := by
  simp [State.refuseAge]
@[simp] theorem State.refuseAge_eths (s : State) (id : InputId) (src adm : Stamp) :
    (s.refuseAge id src adm).eths = s.eths := by
  simp [State.refuseAge]
@[simp] theorem State.refuseAge_inp (s : State) (id : InputId) (src adm : Stamp) :
    (s.refuseAge id src adm).inp = s.inp := by
  simp [State.refuseAge]
@[simp] theorem State.refuseAge_aon (s : State) (id : InputId) (src adm : Stamp) :
    (s.refuseAge id src adm).aon = s.aon := by
  simp [State.refuseAge]
@[simp] theorem State.refuseAge_rpl (s : State) (id : InputId) (src adm : Stamp) :
    (s.refuseAge id src adm).rpl = s.rpl := by
  simp [State.refuseAge]
@[simp] theorem State.refuseAge_draws (s : State) (id : InputId) (src adm : Stamp) :
    (s.refuseAge id src adm).draws = s.draws := by
  simp [State.refuseAge]
@[simp] theorem State.refuseAge_hostData (s : State) (id : InputId) (src adm : Stamp) :
    (s.refuseAge id src adm).hostData = s.hostData := by
  simp [State.refuseAge]
@[simp] theorem State.refuseAge_pending (s : State) (id : InputId) (src adm : Stamp) :
    (s.refuseAge id src adm).pending = s.pending := by
  simp [State.refuseAge]

@[simp] theorem State.takeIn_variant (s : State) (id : InputId) (src adm : Stamp) (l : List Byte) :
    (s.takeIn id src adm l).variant = s.variant := by
  simp only [State.takeIn]; split <;> simp
@[simp] theorem State.takeIn_power (s : State) (id : InputId) (src adm : Stamp) (l : List Byte) :
    (s.takeIn id src adm l).power = s.power := by
  simp only [State.takeIn]; split <;> simp
@[simp] theorem State.takeIn_time (s : State) (id : InputId) (src adm : Stamp) (l : List Byte) :
    (s.takeIn id src adm l).time = s.time := by
  simp only [State.takeIn]; split <;> simp
@[simp] theorem State.takeIn_row (s : State) (id : InputId) (src adm : Stamp) (l : List Byte) :
    (s.takeIn id src adm l).row = s.row := by
  simp only [State.takeIn]; split <;> simp
@[simp] theorem State.takeIn_stage (s : State) (id : InputId) (src adm : Stamp) (l : List Byte) :
    (s.takeIn id src adm l).stage = s.stage := by
  simp only [State.takeIn]; split <;> simp
@[simp] theorem State.takeIn_win (s : State) (id : InputId) (src adm : Stamp) (l : List Byte) :
    (s.takeIn id src adm l).win = s.win := by
  simp only [State.takeIn]; split <;> simp
@[simp] theorem State.takeIn_skn (s : State) (id : InputId) (src adm : Stamp) (l : List Byte) :
    (s.takeIn id src adm l).skn = s.skn := by
  simp only [State.takeIn]; split <;> simp
@[simp] theorem State.takeIn_snap (s : State) (id : InputId) (src adm : Stamp) (l : List Byte) :
    (s.takeIn id src adm l).snap = s.snap := by
  simp only [State.takeIn]; split <;> simp
@[simp] theorem State.takeIn_cores (s : State) (id : InputId) (src adm : Stamp) (l : List Byte) :
    (s.takeIn id src adm l).cores = s.cores := by
  simp only [State.takeIn]; split <;> simp
@[simp] theorem State.takeIn_ple (s : State) (id : InputId) (src adm : Stamp) (l : List Byte) :
    (s.takeIn id src adm l).ple = s.ple := by
  simp only [State.takeIn]; split <;> simp
@[simp] theorem State.takeIn_kw (s : State) (id : InputId) (src adm : Stamp) (l : List Byte) :
    (s.takeIn id src adm l).kw = s.kw := by
  simp only [State.takeIn]; split <;> simp
@[simp] theorem State.takeIn_etu (s : State) (id : InputId) (src adm : Stamp) (l : List Byte) :
    (s.takeIn id src adm l).etu = s.etu := by
  simp only [State.takeIn]; split <;> simp
@[simp] theorem State.takeIn_dsl (s : State) (id : InputId) (src adm : Stamp) (l : List Byte) :
    (s.takeIn id src adm l).dsl = s.dsl := by
  simp only [State.takeIn]; split <;> simp
@[simp] theorem State.takeIn_loops (s : State) (id : InputId) (src adm : Stamp) (l : List Byte) :
    (s.takeIn id src adm l).loops = s.loops := by
  simp only [State.takeIn]; split <;> simp
@[simp] theorem State.takeIn_gnb (s : State) (id : InputId) (src adm : Stamp) (l : List Byte) :
    (s.takeIn id src adm l).gnb = s.gnb := by
  simp only [State.takeIn]; split <;> simp
@[simp] theorem State.takeIn_fge (s : State) (id : InputId) (src adm : Stamp) (l : List Byte) :
    (s.takeIn id src adm l).fge = s.fge := by
  simp only [State.takeIn]; split <;> simp
@[simp] theorem State.takeIn_cans (s : State) (id : InputId) (src adm : Stamp) (l : List Byte) :
    (s.takeIn id src adm l).cans = s.cans := by
  simp only [State.takeIn]; split <;> simp
@[simp] theorem State.takeIn_eths (s : State) (id : InputId) (src adm : Stamp) (l : List Byte) :
    (s.takeIn id src adm l).eths = s.eths := by
  simp only [State.takeIn]; split <;> simp
@[simp] theorem State.takeIn_aon (s : State) (id : InputId) (src adm : Stamp) (l : List Byte) :
    (s.takeIn id src adm l).aon = s.aon := by
  simp only [State.takeIn]; split <;> simp
@[simp] theorem State.takeIn_rpl (s : State) (id : InputId) (src adm : Stamp) (l : List Byte) :
    (s.takeIn id src adm l).rpl = s.rpl := by
  simp only [State.takeIn]; split <;> simp
@[simp] theorem State.takeIn_draws (s : State) (id : InputId) (src adm : Stamp) (l : List Byte) :
    (s.takeIn id src adm l).draws = s.draws := by
  simp only [State.takeIn]; split <;> simp
@[simp] theorem State.takeIn_hostData (s : State) (id : InputId) (src adm : Stamp) (l : List Byte) :
    (s.takeIn id src adm l).hostData = s.hostData := by
  simp only [State.takeIn]; split <;> simp
@[simp] theorem State.takeIn_pending (s : State) (id : InputId) (src adm : Stamp) (l : List Byte) :
    (s.takeIn id src adm l).pending = s.pending := by
  simp only [State.takeIn]; split <;> simp

/-! ### Reading after writing -/

@[simp] theorem State.core_setCore_same (s : State) (n : Nat) (c : Core) : (s.setCore n c).core n = c := by
  simp [State.core, State.setCore]

theorem State.core_setCore_ne (s : State) {n m : Nat} (h : m ≠ n) (c : Core) :
    (s.setCore n c).core m = s.core m := Tab.get_put_ne _ _ h _

@[simp] theorem State.nodeRt_setNodeRt_same (s : State) (n : Nat) (r : NodeRt) :
    (s.setNodeRt n r).nodeRt n = r := by
  simp [State.nodeRt, State.setNodeRt]

theorem State.nodeRt_setNodeRt_ne (s : State) {n m : Nat} (h : m ≠ n) (r : NodeRt) :
    (s.setNodeRt n r).nodeRt m = s.nodeRt m := Tab.get_put_ne _ _ h _

@[simp] theorem State.entry_setEntry_same (s : State) (i : Nat) (e : QEntry) :
    (s.setEntry i e).entry i = e := by
  simp [State.entry, State.setEntry]

theorem State.entry_setEntry_ne (s : State) {i k : Nat} (h : k ≠ i) (e : QEntry) :
    (s.setEntry i e).entry k = s.entry k := Tab.get_put_ne _ _ h _

/-- A field element reads as what was written, kept to its width. -/
theorem Fld.get_put_same (f : Fld) (t : Tab W32) (i j v : Nat) :
    f.get (f.put t i j v) i j = BitVec.ofNat 32 (v % 2 ^ f.width) := by
  simp [Fld.get, Fld.put]

/-- A write of one field element leaves the elements at other bit addresses alone. -/
theorem Fld.get_put_ne (f g : Fld) (t : Tab W32) (i j i' j' v : Nat) (h : g.key i' j' ≠ f.key i j) :
    g.get (f.put t i j v) i' j' = g.get t i' j' := Tab.get_put_ne' _ _ _ h _

/-- A live field of at most 32 bits reads as what was written, kept to its width. -/
theorem State.live_setLive_same (s : State) (f : Fld) (v i j : Nat) (h : f.width ≤ 32) :
    (s.setLive f v i j).live f i j = v % 2 ^ f.width := by
  simp only [State.live, State.setLive, Fld.get_put_same, BitVec.toNat_ofNat]
  exact Nat.mod_eq_of_lt (lt_of_lt_of_le (Nat.mod_lt _ (by positivity)) (Nat.pow_le_pow_right (by decide) h))

/-- A write of one live field leaves the fields at other bit addresses alone. -/
theorem State.live_setLive_ne (s : State) (f g : Fld) (v i j i' j' : Nat)
    (h : g.key i' j' ≠ f.key i j) : (s.setLive f v i j).live g i' j' = s.live g i' j' := by
  simp [State.live, State.setLive, Fld.get_put_ne f g s.regs i j i' j' v h]

/-- Live fields depend on the register table alone. -/
theorem State.live_congr {s t : State} (h : t.regs = s.regs) (f : Fld) (i j : Nat) :
    t.live f i j = s.live f i j := by
  simp [State.live, h]

/-- Skein-held fields depend on the ACTIVE slot alone. -/
theorem State.conf_congr {s t : State} (h : t.skn = s.skn) (f : Fld) (i j : Nat) :
    t.conf f i j = s.conf f i j := by
  simp [State.conf, h]

/-! ### DRAM -/

/-- A byte written in the installed DRAM is the byte read. -/
theorem State.dramByte_setDramByte_same (s : State) (off : Nat) (b : Byte)
    (h : off < s.variant.dramBytes) : (s.setDramByte off b).dramByte off = b := by
  simp [State.dramByte, State.setDramByte, h]

/-- A write of one byte leaves every other byte alone. -/
theorem State.dramByte_setDramByte_ne (s : State) {off k : Nat} (h : k ≠ off) (b : Byte) :
    (s.setDramByte off b).dramByte k = s.dramByte k := by
  unfold State.setDramByte
  split
  · simp only [State.dramByte]; split
    · exact Tab.get_put_ne _ _ h _
    · rfl
  · rfl

/-- A write of a run of bytes leaves every byte outside the run alone. -/
theorem State.dramByte_setDramBytes_ne (l : List Byte) : ∀ (s : State) (off k : Nat),
    (k < off ∨ off + l.length ≤ k) → (s.setDramBytes off l).dramByte k = s.dramByte k := by
  induction l with
  | nil => intro s off k _; rfl
  | cons b t ih =>
    intro s off k h
    simp only [List.length_cons] at h
    rw [State.setDramBytes, ih _ _ _ (by omega), State.dramByte_setDramByte_ne _ (by omega)]

/-- Every write of DRAM keeps its canonical form. -/
theorem State.dram_wf_setDramByte (s : State) (off : Nat) (b : Byte) (h : Tab.wf 0 s.fab.dram) :
    Tab.wf 0 (s.setDramByte off b).fab.dram := by
  unfold State.setDramByte
  split
  · exact Tab.wf_put 0 off b h
  · exact h

theorem State.dram_wf_setDramBytes (l : List Byte) : ∀ (s : State) (off : Nat),
    Tab.wf 0 s.fab.dram → Tab.wf 0 (s.setDramBytes off l).fab.dram := by
  induction l with
  | nil => intro s off h; exact h
  | cons b t ih => intro s off h; exact ih _ _ (State.dram_wf_setDramByte s off b h)

/-- The reset state's DRAM is canonical. -/
theorem State.dram_wf_reset : Tab.wf 0 State.reset.fab.dram = true := rfl

end Sys2Proof.Machine
end

