-- ==== Sys2Proof/Laws/Dexiz.lean ====
section
/-! SUPPORT. What the frame of a Dexiz instruction does once the core is ready to execute it, so that no
proof about an instruction unfolds it. -/

namespace Sys2Proof.Machine

/-- The core as its own effect starts: the cycles are counted and a single step is spent. -/
def Core.charged (k : Core) (cyc : Nat) : Core := { k with used := k.used + cyc, stepping := false }

/-- A legal instruction of a ready core is executed: its effect, or the fault its effect names. -/
theorem State.dex_ready {s : State} {c cyc : Nat} {legal : Bool} (h : DexReady s c cyc) (hl : legal = true)
    (eff : State → Option Nat × State) :
    s.dex c legal cyc eff =
      match eff (s.setCore c ((s.core c).charged cyc)) with
      | (some code, _) => s.coreFault c code
      | (none, t) => t := by
  obtain ⟨h1, h2, h3, h4, h5, h6, h7⟩ := h
  have hf : s.fetches c = true := by
    simp only [State.fetches, State.rowsRun, State.halted, Bool.and_eq_true, decide_eq_true_eq,
      Bool.or_eq_true, Bool.not_eq_true']
    refine ⟨⟨⟨h1, h2⟩, h3⟩, ?_⟩
    cases hh : s.flag Reg.DXC_STAT_HALTED c 0
    · exact Or.inl rfl
    · exact Or.inr (h5 hh)
  have hb : (s.bench c && !(s.core c).stepping && (s.flag Reg.DXC_CTL_HALT c || s.atBreak c)) = false := by
    cases hbe : s.flag Reg.DXC_CTL_BENCH c 0
    · simp [State.bench, hbe]
    · rcases h6 hbe with h | ⟨h, h'⟩
      · simp [h]
      · simp [h, h']
  have hu : (!s.bench c && decide (s.conf Reg.DXC_BUDGET_BUDGET c < (s.core c).used + cyc)) = false := by
    cases hbe : s.flag Reg.DXC_CTL_BENCH c 0
    · simp [State.bench, hbe, Nat.not_lt.mpr (h7 hbe)]
    · simp [State.bench, hbe]
  simp only [State.dex, hf, if_true, hb, Bool.false_eq_true, if_false, Nat.not_le.mpr h4, hl,
    Bool.not_true, hu, Core.charged] <;> rfl

@[simp] theorem Core.charged_s (k : Core) (cyc : Nat) (r : BitVec 5) : (k.charged cyc).s r = k.s r := rfl

/-- Replacing a core of a state: that core alone differs. -/
theorem onlyCore_setCore (s : State) (c : Nat) (k : Core) : OnlyCore s (s.setCore c k) c k :=
  ⟨State.core_setCore_same s c k, fun _ h => State.core_setCore_ne s h k, rfl⟩

/-- Replacing a core twice: the later core stands. -/
theorem onlyCore_setCore_setCore (s : State) (c : Nat) (j k : Core) :
    OnlyCore s ((s.setCore c j).setCore c k) c k :=
  ⟨State.core_setCore_same _ c k,
    fun _ h => (State.core_setCore_ne _ h k).trans (State.core_setCore_ne s h j), rfl⟩

/-- An instruction that changes only its core completes on a ready core. -/
theorem State.dexPlain_ready {s : State} {c cyc : Nat} {legal : Bool} (h : DexReady s c cyc)
    (hl : legal = true) (eff : Core → Core) :
    ∃ t, s.dexPlain c legal cyc eff = .next t ∧
      OnlyCore s t c { eff ((s.core c).charged cyc) with pc := (eff ((s.core c).charged cyc)).pc + 4 } := by
  refine ⟨_, rfl, ?_⟩
  rw [State.dex_ready h hl]
  simp only [State.core_setCore_same]
  exact onlyCore_setCore_setCore s c _ _

/-- A control transfer with a good target completes on a ready core. -/
theorem State.dexJump_ready {s : State} {c cyc : Nat} {legal : Bool} (h : DexReady s c cyc)
    (hl : legal = true) {eff : Core → Option Core} {k : Core} (he : eff ((s.core c).charged cyc) = some k) :
    ∃ t, s.dexJump c legal cyc eff = .next t ∧ OnlyCore s t c k := by
  refine ⟨_, rfl, ?_⟩
  rw [State.dex_ready h hl]
  simp only [State.core_setCore_same, he]
  exact onlyCore_setCore_setCore s c _ _

/-- An output finds room: it stands behind the earlier ones. -/
theorem State.pushOut_room {s : State} {c : Nat} {o : Out} {p : Nat} (h1 : (s.core c).entries < 2048)
    (h0 : (s.core c).payload < 8192) (h2 : (s.core c).payload + p ≤ 8192) :
    s.pushOut c o p = s.setCore c { s.core c with
      outs := (s.core c).outs ++ [o], entries := (s.core c).entries + 1
      payload := (s.core c).payload + p } := by
  simp only [State.pushOut, Nat.not_lt.mpr (Nat.le_of_lt h1), Nat.ne_of_lt h1, Nat.not_le.mpr h0,
    Nat.not_lt.mpr h2, or_self, if_false]

/-- A device instruction whose operands are refused. -/
theorem State.dexOut_refused {s : State} {c cyc : Nat} {legal : Bool} (h : DexReady s c cyc)
    (hl : legal = true) {build : State → Core → Option (Out × Nat)} (upd : Core → Core)
    (hb : build (s.setCore c ((s.core c).charged cyc)) ((s.core c).charged cyc) = none) :
    ∃ t, s.dexOut c legal cyc build upd = .next t ∧
      OnlyCore s t c { (s.core c).passed cyc with sticky := (s.core c).sticky ||| 4 } := by
  refine ⟨_, rfl, ?_⟩
  rw [State.dex_ready h hl]
  simp only [State.core_setCore_same, hb]
  exact onlyCore_setCore_setCore s c _ _

/-- A device instruction whose operands are accepted and whose output finds room. -/
theorem State.dexOut_posts {s : State} {c cyc : Nat} {legal : Bool} (h : DexReady s c cyc)
    (hl : legal = true) {build : State → Core → Option (Out × Nat)} {o : Out} {p : Nat}
    (hb : build (s.setCore c ((s.core c).charged cyc)) ((s.core c).charged cyc) = some (o, p))
    (h1 : (s.core c).entries < 2048) (h0 : (s.core c).payload < 8192)
    (h2 : (s.core c).payload + p ≤ 8192) :
    ∃ t, s.dexOut c legal cyc build = .next t ∧
      OnlyCore s t c { (s.core c).passed cyc with
        outs := (s.core c).outs ++ [o], entries := (s.core c).entries + 1
        payload := (s.core c).payload + p } := by
  refine ⟨_, rfl, ?_⟩
  rw [State.dex_ready h hl]
  simp only [State.core_setCore_same, hb]
  rw [State.pushOut_room (by simpa [Core.charged] using h1) (by simpa [Core.charged] using h0) (by simpa [Core.charged] using h2)]
  simp only [State.core_setCore_same, id]
  exact ⟨State.core_setCore_same _ c _, fun _ hd => by
    simp only [State.core_setCore_ne _ hd], rfl⟩

end Sys2Proof.Machine
end

