-- ==== Sys2Proof/Laws/Host.lean ====
section
/-! SUPPORT. What serving a host write, logging, moving device time and raising an event can do. -/

namespace Sys2Proof.Machine

/-! ### Serving and logging -/

/-- The words of the spec about serving, and the model's test, agree. -/
theorem State.serves_iff (s : State) (a : Nat) : s.serves a = true ↔ ServesHost s a := by
  unfold State.serves ServesHost State.busUp
  cases s.power.phase <;> cases s.rpl.on <;> simp

/-- A served write acts on the state in which it is logged. -/
theorem State.hostLive_served {s : State} {a : Nat} (h : ServesHost s a) (p : Port) (v : Nat) (f : State → State) :
    s.hostLive p a v f = f (logged s p a v) := by
  simp [State.hostLive, (State.serves_iff s a).2 h, logged]

/-- A write that is not served changes nothing. -/
theorem State.hostLive_ignored {s : State} {a : Nat} (h : ¬ ServesHost s a) (p : Port) (v : Nat) (f : State → State) :
    s.hostLive p a v f = s := by
  have : s.serves a = false := by simpa using fun hs => h ((State.serves_iff s a).1 hs)
  simp [State.hostLive, this]

/-- With the admission-record ring not in use nothing is logged. -/
theorem State.logEntry_unused {s : State} (h : s.conf Reg.DXC_RING_CFG_EN 0 = 0) (kind arg : Nat) (stamp : Stamp)
    (row : W32) : s.logEntry kind arg stamp row = s := by
  simp [State.logEntry, State.ringWrite, h]

/-- In a replay nothing is logged. -/
theorem State.logEntry_replay {s : State} (h : s.rpl.on = true) (kind arg : Nat) (stamp : Stamp) (row : W32) :
    s.logEntry kind arg stamp row = s := by
  simp [State.logEntry, h]

/-- With the admission-record ring not in use a host write leaves no trace in it. -/
theorem logged_unused {s : State} (h : s.conf Reg.DXC_RING_CFG_EN 0 = 0) (p : Port) (a v : Nat) : logged s p a v = s := by
  simp [logged, State.logLive, State.logEntry_unused h]

/-! ### Device time -/

/-- Moving device time changes device time alone. -/
theorem State.advanceTo_frame (s : State) (t : Stamp) :
    s.advanceTo t = { s with time := { s.time with dt := (s.advanceTo t).time.dt } } := by
  unfold State.advanceTo; split <;> rfl

/-- An instant that device time reaches is where it then stands. -/
theorem State.now_advanceTo {s : State} {t : Stamp} (h : s.reaches t = true) : (s.advanceTo t).now = t := by
  simp only [State.reaches, Bool.and_eq_true] at h
  simp only [sAtOrBefore, Bool.or_eq_true, decide_eq_true_eq] at h
  have hnow : ∀ u : State, u.rpl.on = s.rpl.on → u.regs = s.regs → u.time.d0 = s.time.d0 →
      u.now = u.time.dt - s.time.dt + s.now := by
    intro u h1 h2 h3
    simp only [State.now, State.live64, State.live, h1, h2, h3]
    split <;> ring
  by_cases hb : sBefore s.now t = true
  · have hs : s.advanceTo t = { s with time := { s.time with dt := s.time.dt + (t - s.now) } } := by
      simp [State.advanceTo, h.1, hb]
    have e : ∀ x y : Stamp, x + (t - y) - x + y = t := fun x y => by ring
    have hd : (s.advanceTo t).time.dt = s.time.dt + (t - s.now) := by rw [hs]
    rw [hnow (s.advanceTo t) (by rw [hs]) (by rw [hs]) (by rw [hs]), hd]
    exact e _ _
  · rw [show s.advanceTo t = s by simp [State.advanceTo, hb]]
    exact h.2.resolve_right hb

/-! ### Events -/

/-- Routing an event changes live registers alone. -/
theorem State.routeEvent_frame (s : State) (e : Nat) : s.routeEvent e = { s with regs := (s.routeEvent e).regs } := by
  suffices h : ∃ r, s.routeEvent e = { s with regs := r } by
    obtain ⟨r, h⟩ := h
    rw [h]
  have one : ∀ (r : Tab W32) (p : Nat), ∃ r',
      (let x : State := { s with regs := r }
        let w := x.live Reg.EVT_PEND_PEND p (e / 32)
        if bitOf w (e % 32) then x else x.setLive Reg.EVT_PEND_PEND (w + 2 ^ (e % 32)) p (e / 32)) =
          { s with regs := r' } := by
    intro r p
    simp only
    split
    · exact ⟨r, rfl⟩
    · exact ⟨_, rfl⟩
  unfold State.routeEvent
  by_cases ha : s.flag Reg.EVT_ROUTE_HPA e = true
  · obtain ⟨r, hr⟩ := one s.regs 0
    simp only [ha, if_true]
    simp only at hr
    rw [hr]
    split
    · exact one r 1
    · exact ⟨r, rfl⟩
  · rw [Bool.not_eq_true] at ha
    simp only [ha, Bool.false_eq_true, if_false]
    split
    · exact one s.regs 1
    · exact ⟨s.regs, rfl⟩

/-- A raise changes live registers and the list of raises alone. -/
theorem State.raise_frame (s : State) (e arg : Nat) (st : Stamp) :
    s.raise e arg st = { s with regs := (s.raise e arg st).regs, boot := (s.raise e arg st).boot } := by
  by_cases h : (eventPresent s.variant e && s.eventOpen e) = true
  · simp only [State.raise, h, if_true]
    rw [State.routeEvent_frame]; rfl
  · simp [State.raise, h]

/-! ### Bytes that hosts and transfers lay into DRAM -/

/-- A write of one byte of DRAM changes DRAM alone. -/
theorem State.setDramByte_frame (s : State) (off : Nat) (b : Byte) :
    ∃ d, s.setDramByte off b = { s with fab := { s.fab with dram := d } } := by
  unfold State.setDramByte
  split
  · exact ⟨_, rfl⟩
  · exact ⟨s.fab.dram, rfl⟩

/-- Laying bytes into DRAM changes DRAM and the count of draws alone. -/
theorem State.layBytes_frame (bad : Nat → Bool) (l : List Byte) : ∀ (s : State) (off : Nat),
    ∃ d n, s.layBytes bad off l = { s with fab := { s.fab with dram := d }, draws := n } := by
  induction l with
  | nil => intro s off; exact ⟨s.fab.dram, s.draws, rfl⟩
  | cons b t ih =>
    intro s off
    rw [State.layBytes]
    split
    · obtain ⟨d, h⟩ := State.setDramByte_frame s.drawn off ((Config.freeWord s.draws).truncate 8)
      rw [h]
      obtain ⟨d', n, h'⟩ := ih { s.drawn with fab := { s.drawn.fab with dram := d } } (off + 1)
      exact ⟨d', n, h'⟩
    · obtain ⟨d, h⟩ := State.setDramByte_frame s off b
      rw [h]
      obtain ⟨d', n, h'⟩ := ih { s with fab := { s.fab with dram := d } } (off + 1)
      exact ⟨d', n, h'⟩

/-- Every byte outside the run stays as it is. -/
theorem State.dramByte_layBytes_ne (bad : Nat → Bool) (l : List Byte) : ∀ (s : State) (off k : Nat),
    (k < off ∨ off + l.length ≤ k) → (s.layBytes bad off l).dramByte k = s.dramByte k := by
  induction l with
  | nil => intro s off k _; rfl
  | cons b t ih =>
    intro s off k h
    simp only [List.length_cons] at h
    rw [State.layBytes, ih _ _ _ (by omega)]
    split <;> rw [State.dramByte_setDramByte_ne _ (by omega)]
    rfl

/-- A byte whose content is defined is the byte that was written. -/
theorem State.dramByte_layBytes_at (bad : Nat → Bool) (l : List Byte) : ∀ (s : State) (off k : Nat) (b : Byte),
    l[k]? = some b → bad (off + k) = false → off + k < s.variant.dramBytes →
      (s.layBytes bad off l).dramByte (off + k) = b := by
  induction l with
  | nil => intro s off k b h; simp at h
  | cons a t ih =>
    intro s off k b h hb hk
    cases k with
    | zero =>
      simp only [List.getElem?_cons_zero, Option.some.injEq, Nat.add_zero] at h hb hk ⊢
      subst h
      rw [State.layBytes, State.dramByte_layBytes_ne _ _ _ _ _ (by omega)]
      simp only [hb, Bool.false_eq_true, if_false]
      exact State.dramByte_setDramByte_same s off a hk
    | succ k =>
      simp only [List.getElem?_cons_succ] at h
      have e : off + (k + 1) = off + 1 + k := by omega
      rw [e] at hb hk ⊢
      rw [State.layBytes]
      apply ih _ _ _ _ h hb
      split <;> unfold State.setDramByte <;> split <;> exact hk

/-- Where no byte's content is undefined, nothing is drawn. -/
theorem State.layBytes_draws (bad : Nat → Bool) (l : List Byte) : ∀ (s : State) (off : Nat),
    (∀ k, k < l.length → bad (off + k) = false) → (s.layBytes bad off l).draws = s.draws := by
  induction l with
  | nil => intro s off _; rfl
  | cons b t ih =>
    intro s off h
    have h0 : bad off = false := h 0 (by simp)
    rw [State.layBytes, ih _ _ (fun k hk => by
      have := h (k + 1) (by simpa using hk)
      rwa [show off + 1 + k = off + (k + 1) by omega])]
    simp only [h0, Bool.false_eq_true, if_false]
    unfold State.setDramByte
    split <;> rfl

end Sys2Proof.Machine
end

