-- ==== Sys2Proof/Laws/PerInstr.lean ====
section
/-! SUPPORT. Facts made per command: the core a Dexiz word runs on. -/

namespace Sys2Proof.Laws.DexCoreOfEncode

/-- A command has a Dexiz word exactly when it names the core that runs it. -/
def Statement (i : Instr) : Prop := (dexEncode i).isSome = (dexCore i).isSome

theorem powerUp : Statement (.powerUp) := rfl
theorem resetRelease : Statement (.resetRelease) := rfl
theorem resetAssert : Statement (.resetAssert) := rfl
theorem refclkCheckDone (ok : Bool) : Statement (.refclkCheckDone ok) := rfl
theorem pllLock : Statement (.pllLock) := rfl
theorem gaugeCheckDone : Statement (.gaugeCheckDone) := rfl
theorem dramTrainingDone (ok : Bool) : Statement (.dramTrainingDone ok) := rfl
theorem chaipImageRead (copy0 copy1 : FlashCopy) : Statement (.chaipImageRead copy0 copy1) := rfl
theorem imagePlaceDone : Statement (.imagePlaceDone) := rfl
theorem recast (p : Port) : Statement (.recast p) := rfl
theorem clockLoss : Statement (.clockLoss) := rfl
theorem rowBoundary : Statement (.rowBoundary) := rfl
theorem lingerElapsed : Statement (.lingerElapsed) := rfl
theorem park (p : Port) : Statement (.park p) := rfl
theorem presenceAssert : Statement (.presenceAssert) := rfl
theorem presenceRelease (hold : Nat) : Statement (.presenceRelease hold) := rfl
theorem presenceStuck : Statement (.presenceStuck) := rfl
theorem grantExpiry : Statement (.grantExpiry) := rfl
theorem canWake (k : Nat) : Statement (.canWake k) := rfl
theorem pi0Wake : Statement (.pi0Wake) := rfl
theorem hostCsWake (p : Port) : Statement (.hostCsWake p) := rfl
theorem rtcAlarm : Statement (.rtcAlarm) := rfl
theorem rtcSecond : Statement (.rtcSecond) := rfl
theorem rtcSet (p : Port) (v : W32) : Statement (.rtcSet p v) := rfl
theorem enginesUngated : Statement (.enginesUngated) := rfl
theorem aonMirrorArrival : Statement (.aonMirrorArrival) := rfl
theorem aonSupplyFail : Statement (.aonSupplyFail) := rfl
theorem sealCheck (pass : Bool) : Statement (.sealCheck pass) := rfl
theorem sealClear (p : Port) : Statement (.sealClear p) := rfl
theorem trimTakesEffect : Statement (.trimTakesEffect) := rfl
theorem discRelationWrite (p : Port) (v : W32) : Statement (.discRelationWrite p v) := rfl
theorem dtLatchRead (p : Port) : Statement (.dtLatchRead p) := rfl
theorem dlTapRewrite (line : Nat) (taps : List Byte) : Statement (.dlTapRewrite line taps) := rfl
theorem dlCalDone (worst : Byte) : Statement (.dlCalDone worst) := rfl
theorem bankReady (b : Nat) : Statement (.bankReady b) := rfl
theorem sampleAdmission (id : InputId) (src : Stamp) : Statement (.sampleAdmission id src) := rfl
theorem budgetOverrun (c : Nat) : Statement (.budgetOverrun c) := rfl
theorem nop (c : Nat) (f : RFmt) : Statement (.nop c f) := rfl
theorem add (c : Nat) (f : RFmt) : Statement (.add c f) := rfl
theorem sub (c : Nat) (f : RFmt) : Statement (.sub c f) := rfl
theorem adds (c : Nat) (f : RFmt) : Statement (.adds c f) := rfl
theorem subs (c : Nat) (f : RFmt) : Statement (.subs c f) := rfl
theorem and (c : Nat) (f : RFmt) : Statement (.and c f) := rfl
theorem or (c : Nat) (f : RFmt) : Statement (.or c f) := rfl
theorem xor (c : Nat) (f : RFmt) : Statement (.xor c f) := rfl
theorem andn (c : Nat) (f : RFmt) : Statement (.andn c f) := rfl
theorem sll (c : Nat) (f : RFmt) : Statement (.sll c f) := rfl
theorem srl (c : Nat) (f : RFmt) : Statement (.srl c f) := rfl
theorem sra (c : Nat) (f : RFmt) : Statement (.sra c f) := rfl
theorem srar (c : Nat) (f : RFmt) : Statement (.srar c f) := rfl
theorem slli (c : Nat) (f : RFmt) : Statement (.slli c f) := rfl
theorem srli (c : Nat) (f : RFmt) : Statement (.srli c f) := rfl
theorem srai (c : Nat) (f : RFmt) : Statement (.srai c f) := rfl
theorem srari (c : Nat) (f : RFmt) : Statement (.srari c f) := rfl
theorem mul (c : Nat) (f : RFmt) : Statement (.mul c f) := rfl
theorem mulh (c : Nat) (f : RFmt) : Statement (.mulh c f) := rfl
theorem mulq (c : Nat) (f : RFmt) : Statement (.mulq c f) := rfl
theorem div (c : Nat) (f : RFmt) : Statement (.div c f) := rfl
theorem divu (c : Nat) (f : RFmt) : Statement (.divu c f) := rfl
theorem rem (c : Nat) (f : RFmt) : Statement (.rem c f) := rfl
theorem divq (c : Nat) (f : RFmt) : Statement (.divq c f) := rfl
theorem min (c : Nat) (f : RFmt) : Statement (.min c f) := rfl
theorem max (c : Nat) (f : RFmt) : Statement (.max c f) := rfl
theorem minu (c : Nat) (f : RFmt) : Statement (.minu c f) := rfl
theorem maxu (c : Nat) (f : RFmt) : Statement (.maxu c f) := rfl
theorem abs (c : Nat) (f : RFmt) : Statement (.abs c f) := rfl
theorem negs (c : Nat) (f : RFmt) : Statement (.negs c f) := rfl
theorem clz (c : Nat) (f : RFmt) : Statement (.clz c f) := rfl
theorem slt (c : Nat) (f : RFmt) : Statement (.slt c f) := rfl
theorem sltu (c : Nat) (f : RFmt) : Statement (.sltu c f) := rfl
theorem cmp (c : Nat) (f : RFmt) : Statement (.cmp c f) := rfl
theorem flgr (c : Nat) (f : RFmt) : Statement (.flgr c f) := rfl
theorem flgw (c : Nat) (f : RFmt) : Statement (.flgw c f) := rfl
theorem stkr (c : Nat) (f : RFmt) : Statement (.stkr c f) := rfl
theorem stkc (c : Nat) (f : RFmt) : Statement (.stkc c f) := rfl
theorem addi (c : Nat) (f : IFmt) : Statement (.addi c f) := rfl
theorem cmpi (c : Nat) (f : IFmt) : Statement (.cmpi c f) := rfl
theorem andi (c : Nat) (f : IFmt) : Statement (.andi c f) := rfl
theorem ori (c : Nat) (f : IFmt) : Statement (.ori c f) := rfl
theorem xori (c : Nat) (f : IFmt) : Statement (.xori c f) := rfl
theorem lui (c : Nat) (f : IFmt) : Statement (.lui c f) := rfl
theorem aclr (c : Nat) (f : AFmt) : Statement (.aclr c f) := rfl
theorem amov (c : Nat) (f : AFmt) : Statement (.amov c f) := rfl
theorem ald (c : Nat) (f : AFmt) : Statement (.ald c f) := rfl
theorem mac (c : Nat) (f : AFmt) : Statement (.mac c f) := rfl
theorem msu (c : Nat) (f : AFmt) : Statement (.msu c f) := rfl
theorem aadd (c : Nat) (f : AFmt) : Statement (.aadd c f) := rfl
theorem aext (c : Nat) (f : AFmt) : Statement (.aext c f) := rfl
theorem alo (c : Nat) (f : AFmt) : Statement (.alo c f) := rfl
theorem ahi (c : Nat) (f : AFmt) : Statement (.ahi c f) := rfl
theorem lw (c : Nat) (f : IFmt) : Statement (.lw c f) := rfl
theorem lh (c : Nat) (f : IFmt) : Statement (.lh c f) := rfl
theorem lhu (c : Nat) (f : IFmt) : Statement (.lhu c f) := rfl
theorem lb (c : Nat) (f : IFmt) : Statement (.lb c f) := rfl
theorem lbu (c : Nat) (f : IFmt) : Statement (.lbu c f) := rfl
theorem sw (c : Nat) (f : IFmt) : Statement (.sw c f) := rfl
theorem sh (c : Nat) (f : IFmt) : Statement (.sh c f) := rfl
theorem sb (c : Nat) (f : IFmt) : Statement (.sb c f) := rfl
theorem bc (c : Nat) (f : BFmt) : Statement (.bc c f) := rfl
theorem j (c : Nat) (f : JFmt) : Statement (.j c f) := rfl
theorem jal (c : Nat) (f : JFmt) : Statement (.jal c f) := rfl
theorem jalr (c : Nat) (f : IFmt) : Statement (.jalr c f) := rfl
theorem rwait (c : Nat) (f : DFmt) : Statement (.rwait c f) := rfl
theorem evr (c : Nat) (f : DFmt) : Statement (.evr c f) := rfl
theorem ereq (c : Nat) (f : DFmt) : Statement (.ereq c f) := rfl
theorem nqry (c : Nat) (f : DFmt) : Statement (.nqry c f) := rfl
theorem fprb (c : Nat) (f : DFmt) : Statement (.fprb c f) := rfl
theorem xferOutbound (c : Nat) (f : DFmt) : Statement (.xferOutbound c f) := rfl
theorem xferInbound (c : Nat) (f : DFmt) : Statement (.xferInbound c f) := rfl
theorem xferComplete (c i : Nat) : Statement (.xferComplete c i) := rfl
theorem semt (c : Nat) (f : DFmt) : Statement (.semt c f) := rfl
theorem semr (c : Nat) (f : DFmt) : Statement (.semr c f) := rfl
theorem msg (c : Nat) (f : DFmt) : Statement (.msg c f) := rfl
theorem smpn (c : Nat) (f : DFmt) : Statement (.smpn c f) := rfl
theorem smp (c : Nat) (f : DFmt) : Statement (.smp c f) := rfl
theorem mbiPost (p : Port) (c : Nat) : Statement (.mbiPost p c) := rfl
theorem mboRelease (p : Port) (c : Nat) : Statement (.mboRelease p c) := rfl
theorem benchSet (p : Port) (c : Nat) (v : Bool) : Statement (.benchSet p c v) := rfl
theorem halt (p : Port) (c : Nat) (v : Bool) : Statement (.halt p c v) := rfl
theorem step (p : Port) (c : Nat) : Statement (.step p c) := rfl
theorem dbgDataWrite (p : Port) (c : Nat) (v : W32) : Statement (.dbgDataWrite p c v) := rfl
theorem replayGo (p : Port) (arm : Bool) (final : Bool) : Statement (.replayGo p arm final) := rfl
theorem replayLoaded (p : Port) (final : Bool) : Statement (.replayLoaded p final) := rfl
theorem frog (c : Nat) (f : DFmt) : Statement (.frog c f) := rfl
theorem tink (c : Nat) (f : DFmt) : Statement (.tink c f) := rfl
theorem setAngle (c : Nat) (f : DFmt) : Statement (.setAngle c f) := rfl
theorem setBaseline (c : Nat) (f : DFmt) : Statement (.setBaseline c f) := rfl
theorem setHitch (c : Nat) (f : DFmt) : Statement (.setHitch c f) := rfl
theorem extset (c : Nat) (f : DFmt) : Statement (.extset c f) := rfl
theorem learnReset (c : Nat) (f : DFmt) : Statement (.learnReset c f) := rfl
theorem fail (c : Nat) (f : DFmt) : Statement (.fail c f) := rfl
theorem recover (c : Nat) (f : DFmt) : Statement (.recover c f) := rfl
theorem remoteAck (c : Nat) (f : DFmt) : Statement (.remoteAck c f) := rfl
theorem poseApply (p : Port) : Statement (.poseApply p) := rfl
theorem dwellExpiry : Statement (.dwellExpiry) := rfl
theorem nodeEvaluationEnd (node : Nat) (landed : Stamp) : Statement (.nodeEvaluationEnd node landed) := rfl
theorem passDeadline : Statement (.passDeadline) := rfl
theorem edgeIssue (e : Nat) : Statement (.edgeIssue e) := rfl
theorem edgeTarget (e : Nat) : Statement (.edgeTarget e) := rfl
theorem fbWaitExpiry (e : Nat) : Statement (.fbWaitExpiry e) := rfl
theorem remoteAckTimeout (e : Nat) : Statement (.remoteAckTimeout e) := rfl
theorem trailingWriteEnd : Statement (.trailingWriteEnd) := rfl
theorem trailDeadline : Statement (.trailDeadline) := rfl
theorem swapReplace (p : Port) : Statement (.swapReplace p) := rfl
theorem swapMerge (p : Port) : Statement (.swapMerge p) := rfl
theorem swapRemove (p : Port) : Statement (.swapRemove p) := rfl
theorem copyGo (p : Port) : Statement (.copyGo p) := rfl
theorem copyDone : Statement (.copyDone) := rfl
theorem tileWritebackDone : Statement (.tileWritebackDone) := rfl
theorem qpeakClear (p : Port) : Statement (.qpeakClear p) := rfl
theorem periodStart (g : Nat) : Statement (.periodStart g) := rfl
theorem compareMatch (ch : Nat) (at_ : Stamp) : Statement (.compareMatch ch at_) := rfl
theorem periodWrite (p : Port) (g : Nat) (v : W32) : Statement (.periodWrite p g v) := rfl
theorem lockWrite (p : Port) (v : W32) : Statement (.lockWrite p v) := rfl
theorem tripActive (t : TripTrain) : Statement (.tripActive t) := rfl
theorem tripRelease (t : TripTrain) : Statement (.tripRelease t) := rfl
theorem tripClear (p : Port) (mask : BitVec 16) : Statement (.tripClear p mask) := rfl
theorem bankGrant (sl : Nat) : Statement (.bankGrant sl) := rfl
theorem deferExpiry (sl : Nat) : Statement (.deferExpiry sl) := rfl
theorem phaseTimeExpiry (sl : Nat) (v : Shunts) : Statement (.phaseTimeExpiry sl v) := rfl
theorem peakReached (sl : Nat) (v : Shunts) : Statement (.peakReached sl v) := rfl
theorem chopThreshold (sl : Nat) (v : Shunts) : Statement (.chopThreshold sl v) := rfl
theorem dipConfirmed (sl : Nat) (samples : List ShuntSample) : Statement (.dipConfirmed sl samples) := rfl
theorem kinkWindowOpen (sl : Nat) : Statement (.kinkWindowOpen sl) := rfl
theorem kinkDetected (sl : Nat) (samples : List CoilSample) : Statement (.kinkDetected sl samples) := rfl
theorem kinkWindowClose (sl : Nat) : Statement (.kinkWindowClose sl) := rfl
theorem currentBelowIoff (sl : Nat) (v : Shunts) : Statement (.currentBelowIoff sl v) := rfl
theorem currentAboveIoff (sl : Nat) (v : Shunts) : Statement (.currentAboveIoff sl v) := rfl
theorem offminExpiry (sl : Nat) : Statement (.offminExpiry sl) := rfl
theorem maxonReached (sl : Nat) : Statement (.maxonReached sl) := rfl
theorem overCurrent (sl : Nat) (own : Int) : Statement (.overCurrent sl own) := rfl
theorem drainShortSupply (d : DrainSense) : Statement (.drainShortSupply d) := rfl
theorem drainShortGround (d : DrainRails) : Statement (.drainShortGround d) := rfl
theorem highSideFault (h : HighSide) : Statement (.highSideFault h) := rfl
theorem gduvDetect : Statement (.gduvDetect) := rfl
theorem gduvClear : Statement (.gduvClear) := rfl
theorem sliceClear (p : Port) (sl : Nat) : Statement (.sliceClear p sl) := rfl
theorem bankClear (p : Port) (b : Nat) : Statement (.bankClear p b) := rfl
theorem loopSample (n : Nat) : Statement (.loopSample n) := rfl
theorem loopOutput (n : Nat) : Statement (.loopOutput n) := rfl
theorem loopModeOff (p : Port) (n : Nat) : Statement (.loopModeOff p n) := rfl
theorem loopModeAuto (p : Port) (n : Nat) : Statement (.loopModeAuto p n) := rfl
theorem loopModeManual (p : Port) (n : Nat) : Statement (.loopModeManual p n) := rfl
theorem loopClear (p : Port) (n : Nat) : Statement (.loopClear p n) := rfl
theorem measurementInstant (meas : List ChanMeas) : Statement (.measurementInstant meas) := rfl
theorem epochAdmission : Statement (.epochAdmission) := rfl
theorem tccfgWrite (p : Port) (k : Nat) (v : W32) : Statement (.tccfgWrite p k v) := rfl
theorem channelLockChange (k : Nat) (c : LockChange) : Statement (.channelLockChange k c) := rfl
theorem navUnitComplete (u : NavUnit) : Statement (.navUnitComplete u) := rfl
theorem solutionApply (p : Port) : Statement (.solutionApply p) := rfl
theorem hold (p : Port) : Statement (.hold p) := rfl
theorem accept (p : Port) : Statement (.accept p) := rfl
theorem solutionLoss : Statement (.solutionLoss) := rfl
theorem holdoverExpiry : Statement (.holdoverExpiry) := rfl
theorem relationStep : Statement (.relationStep) := rfl
theorem timeMark (o : Nat) : Statement (.timeMark o) := rfl
theorem ppsPulse (o : Nat) : Statement (.ppsPulse o) := rfl
theorem ppsPulseEnd (o : Nat) : Statement (.ppsPulseEnd o) := rfl
theorem fusionDatagram : Statement .fusionDatagram := rfl
theorem frameTimeout (i : Nat) : Statement (.frameTimeout i) := rfl
theorem fusionOutputDone : Statement (.fusionOutputDone) := rfl
theorem fusionDeadline : Statement (.fusionDeadline) := rfl
theorem trackDelete (p : Port) : Statement (.trackDelete p) := rfl
theorem trackInject (p : Port) : Statement (.trackInject p) := rfl
theorem canFrameReceive (k : Nat) (sof adm : Stamp) (fr : CanFrame) : Statement (.canFrameReceive k sof adm fr) := rfl
theorem canTxRequest (p : Port) (k : Nat) (mask : W32) : Statement (.canTxRequest p k mask) := rfl
theorem canTxAbort (p : Port) (k : Nat) (mask : W32) : Statement (.canTxAbort p k mask) := rfl
theorem canStartOfFrame (k : Nat) (sof : Stamp) : Statement (.canStartOfFrame k sof) := rfl
theorem canTxEnd (k : Nat) (out : TxOutcome) : Statement (.canTxEnd k out) := rfl
theorem canError (k : Nat) (role : CanRole) (flag : Bool) : Statement (.canError k role flag) := rfl
theorem canRecover (p : Port) (k : Nat) : Statement (.canRecover p k) := rfl
theorem canRecoveryDone (k : Nat) : Statement (.canRecoveryDone k) := rfl
theorem canRxrdWrite (p : Port) (k : Nat) (v : W32) : Statement (.canRxrdWrite p k v) := rfl
theorem canSettingsChange (k : Nat) : Statement (.canSettingsChange k) := rfl
theorem kwarosSync (port : Nat) : Statement (.kwarosSync port) := rfl
theorem kwarosFollowUp (port : Nat) : Statement (.kwarosFollowUp port) := rfl
theorem ethFrameReceive (e : Nat) (ingress adm : Stamp) (fr : EthFrame) : Statement (.ethFrameReceive e ingress adm fr) := rfl
theorem ethTxRequest (p : Port) (e : Nat) (mask : BitVec 16) : Statement (.ethTxRequest p e mask) := rfl
theorem ethTxEnd (e : Nat) (egress : Stamp) : Statement (.ethTxEnd e egress) := rfl
theorem ethLinkChange (e : Nat) (up : Bool) (speed : BitVec 2) : Statement (.ethLinkChange e up speed) := rfl
theorem ethRxrdWrite (p : Port) (e : Nat) (v : W32) : Statement (.ethRxrdWrite p e v) := rfl
theorem ptpSync (e : Nat) (egress : Stamp) : Statement (.ptpSync e egress) := rfl
theorem pdelayResponse (e : Nat) (egress : Stamp) : Statement (.pdelayResponse e egress) := rfl
theorem mdioC22Write (p : Port) (e : Nat) (phy dev : BitVec 5) (data : BitVec 16) : Statement (.mdioC22Write p e phy dev data) := rfl
theorem mdioC22Read (p : Port) (e : Nat) (phy dev : BitVec 5) : Statement (.mdioC22Read p e phy dev) := rfl
theorem mdioC45Address (p : Port) (e : Nat) (phy dev : BitVec 5) (data : BitVec 16) : Statement (.mdioC45Address p e phy dev data) := rfl
theorem mdioC45Read (p : Port) (e : Nat) (phy dev : BitVec 5) : Statement (.mdioC45Read p e phy dev) := rfl
theorem mdioCycleDone (e : Nat) (data : BitVec 16) : Statement (.mdioCycleDone e data) := rfl
theorem pulseEdge (i : Nat) (at_ : Stamp) (level : Bool) : Statement (.pulseEdge i at_ level) := rfl
theorem quadEdge (i : Nat) (at_ : Stamp) (a b : Bool) : Statement (.quadEdge i at_ a b) := rfl
theorem adcConversion (ch : Nat) (raw : BitVec 12) : Statement (.adcConversion ch raw) := rfl
theorem imuDrdy (edge : DrdyEdge) : Statement (.imuDrdy edge) := rfl
theorem imuBurstEnd (at_ : Stamp) (bytes : List Byte) : Statement (.imuBurstEnd at_ bytes) := rfl
theorem imuSyncPulse : Statement (.imuSyncPulse) := rfl
theorem read (p : Port) (pairOk : Bool) (a : HostAddr) (n : Nat) : Statement (.read p pairOk a n) := rfl
theorem write (p : Port) (pairOk : Bool) (a : HostAddr) (ws : List W32) (partialWord : Bool) : Statement (.write p pairOk a ws partialWord) := rfl
theorem rdsr (p : Port) (pairOk : Bool) : Statement (.rdsr p pairOk) := rfl
theorem rdid (p : Port) (pairOk : Bool) : Statement (.rdid p pairOk) := rfl
theorem enter8d (c : PortCommand) : Statement (.enter8d c) := rfl
theorem exit8d (p : Port) (pairOk : Bool) : Statement (.exit8d p pairOk) := rfl
theorem registerWrite (p : Port) (a : W32) (v : W32) : Statement (.registerWrite p a v) := rfl
theorem semTake (p : Port) (n : Nat) : Statement (.semTake p n) := rfl
theorem semRel (p : Port) (n : Nat) : Statement (.semRel p n) := rfl
theorem semForce (p : Port) (n : Nat) : Statement (.semForce p n) := rfl
theorem commit (p : Port) : Statement (.commit p) := rfl
theorem rollback (p : Port) : Statement (.rollback p) := rfl
theorem checkerEnd : Statement (.checkerEnd) := rfl
theorem gaugeProgram (p : Port) : Statement (.gaugeProgram p) := rfl
theorem gaugeProgramDone (ok : Bool) : Statement (.gaugeProgramDone ok) := rfl
theorem sessionOpen (p : Port) : Statement (.sessionOpen p) := rfl
theorem sessionClose (p : Port) : Statement (.sessionClose p) := rfl
theorem sessionTimeout : Statement (.sessionTimeout) := rfl
theorem bootCommand (p : Port) : Statement (.bootCommand p) := rfl
theorem bootCommandDone (data : List Byte) : Statement (.bootCommandDone data) := rfl
theorem heartbeat (p : Port) (v : W32) : Statement (.heartbeat p v) := rfl
theorem safeClear (p : Port) : Statement (.safeClear p) := rfl
theorem eventRaiseHost (p : Port) (mask : W32) : Statement (.eventRaiseHost p mask) := rfl
theorem eventPendClear (p : Port) (q : Port) (w : Nat) (mask : W32) : Statement (.eventPendClear p q w mask) := rfl
theorem pllLockFailed : Statement (.pllLockFailed) := rfl
theorem pwrenDropElapsed : Statement (.pwrenDropElapsed) := rfl
theorem canIntegrationEnd (k : Nat) : Statement (.canIntegrationEnd k) := rfl
theorem imuSyncPulseEnd : Statement (.imuSyncPulseEnd) := rfl
theorem aonclkLoss : Statement (.aonclkLoss) := rfl
theorem aonclkReturn : Statement (.aonclkReturn) := rfl
theorem temperatureUpdate (drive logic : BitVec 16) : Statement (.temperatureUpdate drive logic) := rfl

end Sys2Proof.Laws.DexCoreOfEncode
end

