-- ==== Sys2Proof/Machine/Pins.lean ====
section
/-! DEFINITION. The levels of the device's output pins: what the engines drive, and the levels of R65 before row 0 and
in a replay (R65, R100, R242, R263, R265, R328, R390, R426). -/

namespace Sys2Proof.Machine

/-- The engines drive the pins: row 0 has come, the device has not stopped, and no replay runs (R65, R66, R100).
(DEDUCED 78 of notes/assumptions) -/
def State.pinsDriven (s : State) : Bool :=
  !s.rpl.on && s.row.started &&
    (match s.power.phase with
     | .rows | .doze | .clockLost => true
     | _ => false)

/-- The level of edge channel `n` (R65, R242). -/
def State.channelPin (s : State) (n : Nat) : Bool := s.pinsDriven && s.flag Reg.ETU_CHSTAT_OUT n

/-- The low-side gate DSs_LG of slice `n`; those of a pair follow the lower slice (R65, R263, R265). -/
def State.lowSidePin (s : State) (n : Nat) : Bool := s.pinsDriven && (s.slice (s.slLead n)).lowOn s.now

/-- The recirculation gate DSs_RG of slice `n`; those of a pair follow the lower slice (R65, R263, R265). -/
def State.recircPin (s : State) (n : Nat) : Bool := s.pinsDriven && (s.slice (s.slLead n)).recircOn s.now

/-- The boost high-side gate HBb_BG (R65, R263). -/
def State.boostPin (s : State) (b : Nat) : Bool := s.pinsDriven && s.flag Reg.DSL_BSTAT_BOOST_ON b

/-- The primary high-side gate HBb_PG (R65, R263). -/
def State.primaryPin (s : State) (b : Nat) : Bool := s.pinsDriven && s.flag Reg.DSL_BSTAT_PRI_ON b

/-- The output of loop unit `n` as its consumers outside the engine see it: 0 before row 0 and in a replay (R65,
R100). -/
def State.loopPin (s : State) (n : Nat) : Int := if s.pinsDriven then sext 32 (s.live Reg.CLE_OUT_U n) else 0

/-- The level of PPS output `o`: POL says which level is the active one (R328, R331). -/
def State.ppsPin (s : State) (o : Nat) : Bool :=
  (s.pinsDriven && (Tab.get none s.gnb.up o).isSome) != decide (s.conf Reg.GNB_PPSCFG_POL o = 1)

/-- IMU_SYNC (R390). -/
def State.imuSyncPin (s : State) : Bool := s.pinsDriven && s.inp.sync

/-- IMU_CS_N: low from the start of a burst to one SCK period after its last bit (R389, R391). -/
def State.imuCsPin (s : State) : Bool :=
  !(s.pinsDriven && (s.inp.burst.isSome || (match s.inp.csUntil with | some t => sBefore s.now t | none => false)))

/-- IMU_SCK rests at CPOL; while a burst clocks its bits it has no one level (R389, R391). (DEDUCED 129 of
notes/assumptions) -/
def State.imuSckPin (s : State) : Option Bool :=
  if s.pinsDriven && s.inp.burst.isSome then none else some (s.conf Reg.SIN_ICFG_CPOL == 1)

/-- In a replay every output stands as before row 0 (R65, R100). -/
theorem pins_rest_in_replay (s : State) (h : s.rpl.on = true) (n : Nat) :
    s.channelPin n = false ∧ s.lowSidePin n = false ∧ s.recircPin n = false ∧ s.boostPin n = false ∧
      s.primaryPin n = false ∧ s.loopPin n = 0 ∧
      s.ppsPin n = decide (s.conf Reg.GNB_PPSCFG_POL n = 1) := by
  simp [State.channelPin, State.lowSidePin, State.recircPin, State.boostPin, State.primaryPin, State.loopPin,
    State.ppsPin, State.pinsDriven, h]

end Sys2Proof.Machine
end

