-- ==== Sys2Proof/Tests/Slice0.lean ====
section
/-! SUPPORT. Tests on fixed values: ill-formed terms, words written out from the tables of the spec,
single steps, and the witnesses of the statements' hypotheses. -/

open Sys2Proof Sys2Proof.Machine

namespace Sys2Proof.Tests.Slice0

/-! ### Helpers: small states -/

/-- Reset, but with rows running. -/
def running : State := { State.reset with power := { State.reset.power with phase := .rows } }

/-- Rows run and core 0 is `k`. -/
def withCore (k : Core) : State := { running with cores := [(0, k)] }

/-- A core that runs its row task, with s1 and s2 set. -/
def coreAB (a b : W32) : Core := { Core.fresh with run := .task 8, gpr := [(1, a), (2, b)] }

/-- The core 0 of a next state. -/
def core0 : Host.Outcome State Fault Refusal → Option Core
  | .next t => some (t.core 0)
  | _ => none

/-- A register of core 0 after a command, its FLAGS, STICKY and PC. -/
def regOf (i : Instr) (s : State) (r : BitVec 5) : Option (W32 × BitVec 4 × BitVec 4 × Nat) :=
  (core0 (exec i s)).map (fun k => (k.s r, k.flags, k.sticky, k.pc))

/-! ### Ill-formed terms: one for each check of `Instr.wf`, which the check refuses -/

theorem test_wf_refuses_1 :
    ([.canWake 4,
      .dlTapRewrite 514 (List.replicate 64 0),
      .dlTapRewrite 0 [],
      .bankReady 8,
      .budgetOverrun 8,
      .nop 8 ⟨0, 0, 0, 0⟩,
      .add 8 ⟨0, 0, 0, 0⟩,
      .sub 8 ⟨0, 0, 0, 0⟩,
      .adds 8 ⟨0, 0, 0, 0⟩,
      .subs 8 ⟨0, 0, 0, 0⟩,
      .and 8 ⟨0, 0, 0, 0⟩,
      .or 8 ⟨0, 0, 0, 0⟩,
      .xor 8 ⟨0, 0, 0, 0⟩,
      .andn 8 ⟨0, 0, 0, 0⟩,
      .sll 8 ⟨0, 0, 0, 0⟩,
      .srl 8 ⟨0, 0, 0, 0⟩,
      .sra 8 ⟨0, 0, 0, 0⟩,
      .srar 8 ⟨0, 0, 0, 0⟩,
      .slli 8 ⟨0, 0, 0, 0⟩,
      .srli 8 ⟨0, 0, 0, 0⟩,
      .srai 8 ⟨0, 0, 0, 0⟩,
      .srari 8 ⟨0, 0, 0, 0⟩,
      .mul 8 ⟨0, 0, 0, 0⟩,
      .mulh 8 ⟨0, 0, 0, 0⟩,
      .mulq 8 ⟨0, 0, 0, 0⟩,
      .div 8 ⟨0, 0, 0, 0⟩,
      .divu 8 ⟨0, 0, 0, 0⟩,
      .rem 8 ⟨0, 0, 0, 0⟩,
      .divq 8 ⟨0, 0, 0, 0⟩,
      .min 8 ⟨0, 0, 0, 0⟩,
      .max 8 ⟨0, 0, 0, 0⟩,
      .minu 8 ⟨0, 0, 0, 0⟩,
      .maxu 8 ⟨0, 0, 0, 0⟩,
      .abs 8 ⟨0, 0, 0, 0⟩,
      .negs 8 ⟨0, 0, 0, 0⟩,
      .clz 8 ⟨0, 0, 0, 0⟩,
      .slt 8 ⟨0, 0, 0, 0⟩,
      .sltu 8 ⟨0, 0, 0, 0⟩,
      .cmp 8 ⟨0, 0, 0, 0⟩,
      .flgr 8 ⟨0, 0, 0, 0⟩] : List Instr).all (fun i => !i.wf) = true := by decide

theorem test_wf_refuses_2 :
    ([.flgw 8 ⟨0, 0, 0, 0⟩,
      .stkr 8 ⟨0, 0, 0, 0⟩,
      .stkc 8 ⟨0, 0, 0, 0⟩,
      .addi 8 ⟨0, 0, 0⟩,
      .cmpi 8 ⟨0, 0, 0⟩,
      .andi 8 ⟨0, 0, 0⟩,
      .ori 8 ⟨0, 0, 0⟩,
      .xori 8 ⟨0, 0, 0⟩,
      .lui 8 ⟨0, 0, 0⟩,
      .aclr 8 ⟨0, 0, 0, 0, 0⟩,
      .amov 8 ⟨0, 0, 0, 0, 0⟩,
      .ald 8 ⟨0, 0, 0, 0, 0⟩,
      .mac 8 ⟨0, 0, 0, 0, 0⟩,
      .msu 8 ⟨0, 0, 0, 0, 0⟩,
      .aadd 8 ⟨0, 0, 0, 0, 0⟩,
      .aext 8 ⟨0, 0, 0, 0, 0⟩,
      .alo 8 ⟨0, 0, 0, 0, 0⟩,
      .ahi 8 ⟨0, 0, 0, 0, 0⟩,
      .lw 8 ⟨0, 0, 0⟩,
      .lh 8 ⟨0, 0, 0⟩,
      .lhu 8 ⟨0, 0, 0⟩,
      .lb 8 ⟨0, 0, 0⟩,
      .lbu 8 ⟨0, 0, 0⟩,
      .sw 8 ⟨0, 0, 0⟩,
      .sh 8 ⟨0, 0, 0⟩,
      .sb 8 ⟨0, 0, 0⟩,
      .bc 8 ⟨0, 0, 0, 0⟩,
      .j 8 ⟨0⟩,
      .jal 8 ⟨0⟩,
      .jalr 8 ⟨0, 0, 0⟩,
      .rwait 8 ⟨0, 0, 0, 0⟩,
      .evr 8 ⟨0, 0, 0, 0⟩,
      .ereq 8 ⟨0, 0, 0, 0⟩,
      .nqry 8 ⟨0, 0, 0, 0⟩,
      .fprb 8 ⟨0, 0, 0, 0⟩,
      .xferOutbound 8 ⟨0, 0, 0, 0⟩,
      .xferInbound 8 ⟨0, 0, 0, 0⟩,
      .xferComplete 8 0,
      .xferComplete 0 16,
      .semt 8 ⟨0, 0, 0, 0⟩] : List Instr).all (fun i => !i.wf) = true := by decide

theorem test_wf_refuses_3 :
    ([.semr 8 ⟨0, 0, 0, 0⟩,
      .msg 8 ⟨0, 0, 0, 0⟩,
      .smpn 8 ⟨0, 0, 0, 0⟩,
      .smp 8 ⟨0, 0, 0, 0⟩,
      .mbiPost .hpa 8,
      .mboRelease .hpa 8,
      .benchSet .hpa 8 false,
      .halt .hpa 8 false,
      .step .hpa 8,
      .dbgDataWrite .hpa 8 0,
      .frog 8 ⟨0, 0, 0, 0⟩,
      .tink 8 ⟨0, 0, 0, 0⟩,
      .setAngle 8 ⟨0, 0, 0, 0⟩,
      .setBaseline 8 ⟨0, 0, 0, 0⟩,
      .setHitch 8 ⟨0, 0, 0, 0⟩,
      .extset 8 ⟨0, 0, 0, 0⟩,
      .learnReset 8 ⟨0, 0, 0, 0⟩,
      .fail 8 ⟨0, 0, 0, 0⟩,
      .recover 8 ⟨0, 0, 0, 0⟩,
      .remoteAck 8 ⟨0, 0, 0, 0⟩,
      .nodeEvaluationEnd 131072 0,
      .edgeIssue 32768,
      .edgeTarget 32768,
      .fbWaitExpiry 32768,
      .remoteAckTimeout 32768,
      .periodStart 32,
      .compareMatch 512 0,
      .periodWrite .hpa 32 0,
      .tripActive ⟨16, 0, []⟩,
      .tripRelease ⟨16, 0, []⟩,
      .bankGrant 48,
      .deferExpiry 48,
      .phaseTimeExpiry 48 ⟨0, 0⟩,
      .peakReached 48 ⟨0, 0⟩,
      .chopThreshold 48 ⟨0, 0⟩,
      .dipConfirmed 48 [],
      .kinkWindowOpen 48,
      .kinkDetected 48 [],
      .kinkWindowClose 48,
      .currentBelowIoff 48 ⟨0, 0⟩] : List Instr).all (fun i => !i.wf) = true := by decide

theorem test_wf_refuses_4 :
    ([.currentAboveIoff 48 ⟨0, 0⟩,
      .offminExpiry 48,
      .maxonReached 48,
      .overCurrent 48 0,
      .drainShortSupply ⟨48, 0⟩,
      .drainShortGround ⟨48, 0, 0, 0⟩,
      .highSideFault ⟨8, 0, 0⟩,
      .sliceClear .hpa 48,
      .bankClear .hpa 8,
      .loopSample 64,
      .loopOutput 64,
      .loopModeOff .hpa 64,
      .loopModeAuto .hpa 64,
      .loopModeManual .hpa 64,
      .loopClear .hpa 64,
      .measurementInstant [⟨256, 0, 0, 0, 0, 0, 0, 0⟩],
      .tccfgWrite .hpa 256 0,
      .channelLockChange 256 ⟨.idle, 0⟩,
      .navUnitComplete ⟨0, 256, 0, 0, 0, 0, []⟩,
      .timeMark 2,
      .ppsPulse 2,
      .ppsPulseEnd 2,
      .frameTimeout 16,
      .canFrameReceive 4 0 0 ⟨false, false, false, false, false, 0, []⟩,
      .canFrameReceive 0 0 0 ⟨true, false, false, false, false, 0, List.replicate 65 0⟩,
      .canTxRequest .hpa 4 0,
      .canTxAbort .hpa 4 0,
      .canStartOfFrame 4 0,
      .canTxEnd 4 .sent,
      .canError 4 .receiver false,
      .canRecover .hpa 4,
      .canRecoveryDone 4,
      .canRxrdWrite .hpa 4 0,
      .canSettingsChange 4,
      .kwarosSync 6,
      .kwarosFollowUp 6,
      .ethFrameReceive 2 0 0 ⟨true, []⟩,
      .ethTxRequest .hpa 2 0,
      .ethTxEnd 2 0,
      .ethLinkChange 2 false 0] : List Instr).all (fun i => !i.wf) = true := by decide

theorem test_wf_refuses_5 :
    ([.ethRxrdWrite .hpa 2 0,
      .ptpSync 2 0,
      .pdelayResponse 2 0,
      .mdioC22Write .hpa 2 0 0 0,
      .mdioC22Read .hpa 2 0 0,
      .mdioC45Address .hpa 2 0 0 0,
      .mdioC45Read .hpa 2 0 0,
      .mdioCycleDone 2 0,
      .pulseEdge 24 0 false,
      .quadEdge 24 0 false false,
      .adcConversion 16 0,
      .imuBurstEnd 0 [],
      .semTake .hpa 32,
      .semRel .hpa 32,
      .semForce .hpa 32,
      .eventPendClear .hpa .hpa 4 0,
      .canIntegrationEnd 4] : List Instr).all (fun i => !i.wf) = true := by decide

/-! ### Dexiz words written out bit by bit from R110 to R122, one for each family -/

/-- The instructions and encodings of the example at the end of the instruction chapter. -/
theorem test_decode_example :
    [dexDecode 0 0xFC41000A, dexDecode 0 0x0462FFFF, dexDecode 0 0xFC81180B, dexDecode 0 0x40C40010,
      dexDecode 0 0x18A004C4, dexDecode 0 0x10A5B400, dexDecode 0 0x00E533D7, dexDecode 0 0x60E80000] =
    [some (.smpn 0 ⟨2, 1, 0, 0⟩), some (.addi 0 ⟨3, 2, 0xFFFF⟩), some (.smp 0 ⟨4, 1, 3, 0⟩),
      some (.lw 0 ⟨6, 4, 16⟩), some (.lui 0 ⟨5, 0, 0x04C4⟩), some (.ori 0 ⟨5, 5, 0xB400⟩),
      some (.divq 0 ⟨7, 5, 6, 15⟩), some (.sw 0 ⟨7, 8, 0⟩)] := by decide

/-- OP 000000, RD 00011, RA 00001, RB 00010, SH 00000, FN 000001 is ADD s3, s1, s2 (R110, R114). -/
theorem test_decode_add :
    dexDecode 2 0b000000_00011_00001_00010_00000_000001 = some (.add 2 ⟨3, 1, 2, 0⟩) := by decide

/-- OP 001000, RA 00101, RB 00110, AD 10, AF 0011 is MAC a2, s5, s6 (R110, R116). -/
theorem test_decode_mac :
    dexDecode 0 0b001000_00000_00101_00110_00000_10_0011 = some (.mac 0 ⟨0, 5, 6, 0, 2⟩) := by decide

/-- OP 110000, CC 1010, L 1, OFF −2 is BC UGT with the link (R110, R119). -/
theorem test_decode_bc :
    dexDecode 0 0b110000_1010_1_00000_1111111111111110 = some (.bc 0 ⟨10, 1, 0, 0xFFFE⟩) := by decide

/-- OP 100001 with a 26-bit offset is JAL; OP 100010 is JALR (R113). -/
theorem test_decode_jumps :
    [dexDecode 0 0b100001_00000000000000000000000100, dexDecode 0 0b100010_00000_11111_0000000000000000] =
    [some (.jal 0 ⟨4⟩), some (.jalr 0 ⟨0, 31, 0⟩)] := by decide

/-- OP 111111, IMM7 1100001, DF 0001 is EVR 97; DF 0000 with zero fields is RWAIT (R110, R122). -/
theorem test_decode_device :
    [dexDecode 0 0b111111_00000_00000_00000_11000_01_0001, dexDecode 0 0b111111_00000_00000_00000_00000_00_0000] =
    [some (.evr 0 ⟨0, 0, 0, 97⟩), some (.rwait 0 ⟨0, 0, 0, 0⟩)] := by decide

/-- Codes that no table lists are no instruction (R112, R113). -/
theorem test_decode_unlisted :
    [dexDecode 0 0x00000022, dexDecode 0 0x20000009, dexDecode 0 0xFC00000C, dexDecode 0 0x1C000000] =
    [none, none, none, none] := by decide

/-! ### Single instructions, with results worked out by hand from the tables -/

/-- 0x7FFFFFFF + 1 = 0x80000000: N and V, no carry. -/
theorem test_add_overflow :
    regOf (.add 0 ⟨3, 1, 2, 0⟩) (withCore (coreAB 0x7FFFFFFF 1)) 3 = some (0x80000000, 5, 0, 4) := by decide

/-- 1 − 2: N, and C is 0 for the borrow. -/
theorem test_sub_borrow :
    regOf (.sub 0 ⟨3, 1, 2, 0⟩) (withCore (coreAB 1 2)) 3 = some (0xFFFFFFFF, 4, 0, 4) := by decide

/-- The saturated sum of the example of R109: clamped, SAT. -/
theorem test_adds_sat :
    regOf (.adds 0 ⟨3, 1, 2, 0⟩) (withCore (coreAB 0x80000000 0x80000000)) 3 =
      some (0x80000000, 4, 1, 4) := by decide

/-- −3 × 2^−1 rounds away from zero to −2. -/
theorem test_srar_ties :
    regOf (.srari 0 ⟨3, 1, 0, 1⟩) (withCore (coreAB 0xFFFFFFFD 0)) 3 = some (0xFFFFFFFE, 4, 0, 4) := by decide

/-- Step 7 of the example: 8 × 10^7 × 2^15 ÷ 158,730 = 0x00FC0011. -/
theorem test_divq_example :
    regOf (.divq 0 ⟨7, 1, 2, 15⟩) (withCore (coreAB 0x04C4B400 0x00026C0A)) 7 =
      some (0x00FC0011, 0, 0, 4) := by decide

/-- The period 0xFFFFFFFF of a first edge reads as −1: DIVQ saturates at 0x80000000. -/
theorem test_divq_first_edge :
    regOf (.divq 0 ⟨7, 1, 2, 15⟩) (withCore (coreAB 0x04C4B400 0xFFFFFFFF)) 7 =
      some (0x80000000, 4, 1, 4) := by decide

/-- 0x80000000 ÷ −1: 0x7FFFFFFF with SAT. -/
theorem test_div_overflow :
    regOf (.div 0 ⟨3, 1, 2, 0⟩) (withCore (coreAB 0x80000000 0xFFFFFFFF)) 3 =
      some (0x7FFFFFFF, 0, 1, 4) := by decide

/-- −7 ÷ 2 truncates to −3 with remainder −1. -/
theorem test_rem_sign :
    regOf (.rem 0 ⟨3, 1, 2, 0⟩) (withCore (coreAB 0xFFFFFFF9 2)) 3 = some (0xFFFFFFFF, 4, 0, 4) := by decide

/-- Leading zeros of 1. -/
theorem test_clz_one :
    regOf (.clz 0 ⟨3, 1, 0, 0⟩) (withCore (coreAB 1 0)) 3 = some (31, 0, 0, 4) := by decide

/-- A store and a load of the byte order of R110: the byte at the lowest address is the least significant. -/
theorem test_sw_bytes :
    (core0 (exec (.sw 0 ⟨2, 1, 0⟩) (withCore (coreAB 0x12000 0x04030201)))).map (·.dmem) =
      some [(0x12000, 1), (0x12001, 2), (0x12002, 3), (0x12003, 4)] := by decide

/-- A load outside data memory writes 0 and sets ADDR. -/
theorem test_lb_outside :
    regOf (.lb 0 ⟨1, 1, 0⟩) (withCore (coreAB 0x40000 0)) 1 = some (0, 0, 4, 4) := by decide

/-- JALR s1, s1, 0 goes to the old s1 and links. -/
theorem test_jalr_same :
    regOf (.jalr 0 ⟨1, 1, 0⟩) (withCore (coreAB 0x100 0)) 1 = some (4, 0, 0, 0x100) := by decide

/-- An unused field set is ILLEGAL: the core's row ends and nothing is written. -/
theorem test_illegal :
    (core0 (exec (.nop 0 ⟨1, 0, 0, 0⟩) (withCore (coreAB 1 2)))).map (fun k => (k.run, k.pc)) =
      some (.idle, 0) := by decide

/-! ### Witnesses -/

/-- A core that is ready for an instruction of any cost up to its whole budget. -/
theorem test_ready : DexReady (withCore (coreAB 7 9)) 0 597600 := by
  unfold DexReady; decide

/-- The same in bench mode, single-stepped past its budget. -/
theorem test_ready_step :
    DexReady { withCore { coreAB 7 9 with stepping := true, used := 597600 } with
      regs := [(Reg.DXC_CTL_BENCH.key 0 0, 1), (Reg.DXC_STAT_HALTED.key 0 0, 1)] } 0 34 := by
  unfold DexReady; decide

/-- A ready core whose s1 is `a`, with data memory `m`. -/
def coreMem (a : W32) (m : Tab Byte) : Core := { coreAB a 0 with dmem := m }

/-- Division: by zero, the overflow pair, and an ordinary pair. -/
theorem test_hyp_division :
    DexReady (withCore (coreAB 5 0)) 0 34 ∧ ((withCore (coreAB 5 0)).core 0).s 2 = 0 ∧
    DexReady (withCore (coreAB 0x80000000 0xFFFFFFFF)) 0 34 ∧
    ((withCore (coreAB 0x80000000 0xFFFFFFFF)).core 0).s 1 = 0x80000000 ∧
    ((withCore (coreAB 0x80000000 0xFFFFFFFF)).core 0).s 2 = 0xFFFFFFFF ∧
    DexReady (withCore (coreAB 0x80000000 1)) 0 34 ∧ ((withCore (coreAB 0x80000000 1)).core 0).s 2 ≠ 0 := by
  unfold DexReady; decide

/-- AADD with RB at 3. -/
theorem test_hyp_accumulators : DexReady (withCore (coreAB 1 2)) 0 2 ∧ (3 : BitVec 5).toNat < 4 := by
  unfold DexReady; decide

/-- Loads and stores at the last word, halfword and byte of data memory, just past it, misaligned, and in the
register space: a word the snapshot shows, one it does not hold, and one that serves hosts only. -/
theorem test_hyp_memory :
    DexReady (withCore (coreMem 0x3FFFC [])) 0 2 ∧ InDataMemory 0x3FFFC 4 4 ∧ InDataMemory 0x3FFFE 2 2 ∧
    InDataMemory 0x3FFFF 1 1 ∧ ¬ InDataMemory 0x40000 1 1 ∧ ¬ InDataMemory 0x3FFFF 2 2 ∧
    ¬ InDataMemory 0x3FFFE 4 4 ∧ regSpace 0x3FFFE = none ∧ regSpace 0x10000000 = some 0 ∧
    canRing 0 = none ∧ ethRing 0 = none ∧ busPresent (withCore (coreMem 0 [])).variant 0 = true ∧
    regSpace 0x10001000 = some 0x1000 ∧ hostOnly 0x1000 = false ∧ regSpace 0x10008000 = some 0x8000 ∧
    hostOnly 0x8000 = true ∧ (canTx 0x06030000).isSome = true := by
  unfold DexReady InDataMemory; decide

/-- A core that loads from the ring window of CAN controller 0. -/
def ringing : State := withCore (coreMem 0x16010000 [])

/-- A core that loads from the registers of the baseband, which the variant lacks. -/
def lacking : State := { withCore (coreMem 0x14000000 []) with variant := { State.reset.variant with gnb := false } }

/-- The snapshot shows one entry in the ring of CAN controller 0. -/
def ringSeen : State := { ringing with snap := { State.reset.snap with regs := [(Reg.CAN_RXWR_WR.key 0 0, 1)] } }

/-- The same core in a replay. -/
def ringReplay : State := { ringing with rpl := { State.reset.rpl with on := true } }

/-- LW of a register of a unit that the variant lacks; of ring windows: a CTRL word whose entry is there to read, one
with none, a payload word, in a live run and in a replay, and for each of CAN and Ethernet. -/
theorem test_hyp_windows :
    regSpace 0x14000000 = some 0x04000000 ∧ busPresent lacking.variant 0x04000000 = false ∧
    ringing.rpl.on = false ∧ regSpace 0x16010000 = some 0x06010000 ∧
    busPresent ringing.variant 0x06010000 = true ∧ canRing 0x06010000 = some (0, 0) ∧ canRing 0x06010004 = some (0, 4) ∧
    ringEntry 256 0 (Reg.CAN_RXRD_RD.get (ringSeen.coreSnap 0).regs 0 0).toNat
      (Reg.CAN_RXWR_WR.get (ringSeen.coreSnap 0).regs 0 0).toNat = some 0 ∧
    ringEntry 256 0 0 0 = none ∧ ringEntry 256 255 0xFFFFFFFF 0 = some 0xFFFFFFFF ∧ (4 : Nat) % 96 ≠ 0 ∧
    busPresent ringing.variant 0x06120000 = true ∧ canRing 0x06120000 = none ∧ ethRing 0x0612F800 = some (0, 0xF800) ∧
    ringEntry 32 31 31 32 = some 31 := by decide

/-- The cores of those states are ready. -/
theorem test_hyp_windows_ready :
    DexReady lacking 0 2 ∧ DexReady ringing 0 2 ∧ DexReady ringSeen 0 2 ∧ DexReady ringReplay 0 2 := by
  unfold DexReady; decide

/-- Control transfer: a branch taken and not taken, the highest and lowest targets, and targets past the end. -/
theorem test_hyp_control :
    DexReady (withCore { coreAB 0xFFFC 0 with pc := 8, flags := 8 }) 0 2 ∧
    condHolds { coreAB 0 0 with flags := 8 } 1 = some true ∧
    condHolds { coreAB 0 0 with flags := 8 } 2 = some false ∧
    ((8 : Int) + (-2 : Int) * 4 = 0) ∧ ((0xFFFE : BitVec 16).toInt = -2) ∧
    DexReady (withCore { coreAB 0 0 with pc := 8, flags := 8 }) 0 2 ∧ ((0xFFFD : BitVec 16).toInt = -3) ∧
    (withCore { coreAB 0 0 with pc := 8, flags := 8 }).flag Reg.DXC_CTL_BENCH 0 = false ∧
    ((8 : Int) + (-3 : Int) * 4 < 0) ∧ (0xFFFC : W32).toNat % 4 = 0 := by
  unfold DexReady; decide

/-- RWAIT of the row task, of an event task with none left, and with one left at the top index. -/
theorem test_hyp_rwait :
    DexReady (withCore (coreAB 0 0)) 0 1 ∧
    DexReady (withCore { coreAB 0 0 with run := .task 0 }) 0 1 ∧
    DexReady (withCore { coreAB 0 0 with run := .task 0, todo := [(7, 300)] }) 0 1 := by
  unfold DexReady; decide

/-- A node command whose block names the last node of the variant, and one past it. -/
theorem test_hyp_ncmd :
    let m : Tab Byte := [(0x10000, 0xFF), (0x10001, 0xFF), (0x10002, 1)]
    let m' : Tab Byte := [(0x10002, 2)]
    DexReady (withCore (coreMem 0x10000 m)) 0 4 ∧ InDataMemory 0x10000 16 8 ∧
    (coreMem 0x10000 m).le 0x10000 4 = 131071 ∧ (withCore (coreMem 0 [])).variant.nodes = 131072 ∧
    (coreMem 0x10000 m').le 0x10000 4 = 131072 := by
  unfold DexReady InDataMemory; decide

/-- EREQ at the last edge channel and one past it; EVR at 96 and at 95. -/
theorem test_hyp_evr_ereq :
    let m : Tab Byte := [(0x10008, 0xFF), (0x10009, 1)]
    DexReady (withCore (coreMem 0x10000 m)) 0 4 ∧ (coreMem 0x10000 m).le 0x10008 4 = 511 ∧
    (coreMem 0x10000 [(0x10009, 2)]).le 0x10008 4 = 512 ∧
    (withCore (coreMem 0 [])).variant.channels = 512 ∧ 96 ≤ (96 : BitVec 7).toNat ∧
    (95 : BitVec 7).toNat < 96 := by
  unfold DexReady; decide

/-- NQRY with its 72-byte reply at the end of data memory; FPRB with 32 points; SEMT with its reply there. -/
theorem test_hyp_requests :
    let m : Tab Byte := [(0x10004, 0xB8), (0x10005, 0xFF), (0x10006, 3)]
    let p : Tab Byte := [(0x10002, 2), (0x10004, 0x17), (0x10005, 32)]
    DexReady (withCore (coreMem 0x10000 m)) 0 3 ∧ DexReady (withCore (coreMem 0x10000 p)) 0 6 ∧
    (coreMem 0 m).le 0x10000 4 = 0 ∧ (coreMem 0 m).le 0x10004 4 = 0x3FFB8 ∧ InDataMemory 0x3FFB8 72 8 ∧
    (coreMem 0 p).le 0x10005 1 = 32 ∧ (coreMem 0 p).le 0x10004 1 = 23 ∧ (coreMem 0 p).le 0x10000 4 = 0x20000 ∧
    InDataMemory 0x10000 (8 + 8 * 32) 8 ∧ InDataMemory 0x20000 (8 + 4 * 32) 8 ∧ InDataMemory 0x3FFFC 4 4 := by
  unfold DexReady InDataMemory; decide

/-- MSG to core 7, and refused to itself; XFER of 4,096 bytes at the limits, and one of 32 bytes. -/
theorem test_hyp_msg_xfer :
    let m : Tab Byte := [(0x10001, 0), (0x10009, 0xF0), (0x1000A, 3), (0x1000D, 0x10)]
    DexReady (withCore { coreMem 7 [] with gpr := [(1, 7), (2, 0x3FFC0)] }) 0 6 ∧ InDataMemory 0x3FFC0 64 8 ∧
    7 < (withCore (coreMem 0 [])).variant.cores ∧ DexReady (withCore (coreMem 0x10000 m)) 0 3 ∧
    (coreMem 0 m).le 0x10000 8 = 0 ∧ (coreMem 0 m).le 0x10008 4 = 0x3F000 ∧
    (coreMem 0 m).le 0x1000C 2 = 4096 := by
  unfold DexReady InDataMemory; decide

/-- A snapshot that holds one ADC sample, read by a core. -/
theorem test_hyp_samples :
    let x : Sample := ⟨0x05000F, 64, 64, 1, [7]⟩
    let s : State := { withCore (coreAB 0x05000F 0) with
      snap := { (withCore (coreAB 0 0)).snap with samples := [(0x05000F, [x])] } }
    DexReady s 0 6 ∧ (s.coreSnap 0).of 0x05000F = [x] ∧ InDataMemory 0x3FFE0 32 8 := by
  unfold DexReady InDataMemory; decide

/-- A core whose row has used all its entries, or its payload bytes, or has overflowed. -/
theorem test_hyp_full_buffer :
    DexReady (withCore { coreAB 0 0 with entries := 2048 }) 0 2 ∧
    DexReady (withCore { coreAB 0 0 with payload := 8192 }) 0 2 ∧
    DexReady (withCore { coreAB 0 0 with entries := 2049 }) 0 2 := by
  unfold DexReady; decide

/-- Faults: PC just past the last word, and a core whose budget does not hold its next instruction. -/
theorem test_hyp_faults :
    DexReady ((withCore { coreAB 0 0 with pc := 0x10000 }).setCore 0 { coreAB 0 0 with pc := 0 }) 0 0 ∧
    (withCore (coreAB 0 0)).flag Reg.DXC_CTL_BENCH 0 = false ∧
    DexReady (withCore { coreAB 0 0 with used := 597600 }) 0 0 ∧
    (withCore { coreAB 0 0 with used := 597600 }).conf Reg.DXC_BUDGET_BUDGET 0 <
      597600 + wordCycles { coreAB 0 0 with used := 597600 }.word := by
  unfold DexReady; decide

/-- Encoding and decoding: an instruction with a word and a core; a word that decodes. -/
theorem test_hyp_words :
    dexEncode (.add 7 ⟨31, 1, 2, 0⟩) = some 0x03E11001 ∧ dexCore (.add 7 ⟨31, 1, 2, 0⟩) = some 7 ∧
    dexDecode 7 0x03E11001 = some (.add 7 ⟨31, 1, 2, 0⟩) := by decide

/-- The invariant of the cores holds of a running core that executes a store at the end of data memory. -/
theorem test_hyp_cores_in_order :
    let k : Core := { Core.fresh with run := .task 8, gpr := [(1, 0x3FFFC)], dmem := [(0x3FFFF, 1)] }
    CoresInOrder (withCore k) ∧ dexizCommand (.sb 0 ⟨0, 1, 3⟩) = true ∧
    (core0 (step { withCore k with pending := [.sb 0 ⟨0, 1, 3⟩] })).isSome := by
  refine ⟨⟨fun c => ?_, by decide⟩, by decide, by decide⟩
  by_cases h : c = 0
  · subst h; unfold CoreInOrder; decide
  · have : (withCore { Core.fresh with run := .task 8, gpr := [(1, 0x3FFFC)], dmem := [(0x3FFFF, 1)] }).core c =
        Core.fresh := by simp [State.core, withCore, Tab.get, h]
    rw [this]; unfold CoreInOrder; decide

/-! ### Hosts, skeins and guarded actions -/

/-- A running state with live fields set. -/
def live (fs : List (Fld × Nat × Nat × Nat)) : State :=
  fs.foldl (fun (s : State) x => s.setLive x.1 x.2.2.2 x.2.1 x.2.2.1) running

/-- A running state whose ACTIVE slot holds these fields. -/
def conf (fs : List (Fld × Nat × Nat × Nat)) : State :=
  { running with skn := { running.skn with
      act := { running.skn.act with
        flds := fs.foldl (fun t x => x.1.put t x.2.1 x.2.2.1 x.2.2.2) running.skn.act.flds } } }

/-- Rows run and no replay is on: every register of the variant is served. -/
theorem test_hyp_served (s : State) (a : Nat) (h : s.power.phase = .rows) (hr : s.rpl.on = false)
    (hb : busPresent s.variant a = true) : ServesHost s a :=
  ⟨Or.inl h, hb, fun x => by simp [hr] at x⟩

/-- The addresses of the statements about hosts are registers of the variant; before cast-on none is served. -/
theorem test_hyp_present :
    [0x8000, 0x807C, 0x10000, 0x08000000, 0x118, 0x08000020, 0x001700C0, 0x00170140, 0x00170000,
      0x001701C4].all (busPresent running.variant) = true ∧ replayOpen 0x00100000 = true ∧
    State.reset.busUp = false ∧ running.busUp = true ∧ running.rpl.on = false := by decide

/-- The modes of a port: 1S after reset, 8D once OCT reads 1. -/
theorem test_hyp_modes :
    running.live Reg.HP_CFG_OCT 0 = 0 ∧ (live [(Reg.HP_CFG_OCT, 1, 0, 1)]).live Reg.HP_CFG_OCT 1 ≠ 0 ∧
    addrAligned (.bus 2) = false ∧ addrAligned (.dram 1) = false ∧
    (running.shielded 0 = false ∧ running.underWrite 0 = false ∧ running.inSlots 0 = false) := by decide

/-- STAGING ready and not ready. -/
theorem test_hyp_staging :
    running.live Reg.SKN_STAT_STG_READY = 0 ∧
    (live [(Reg.SKN_STAT_STG_READY, 0, 0, 1)]).live Reg.SKN_STAT_STG_READY ≠ 0 ∧
    (live [(Reg.PLE_QEVT_LATE, 0, 0, 1)]).live Reg.PLE_QEVT_LATE ≤ 1 := by decide

/-- The admission-record ring in use at its smallest and largest size. -/
theorem test_hyp_ring :
    let a := conf [(Reg.DXC_RING_CFG_EN, 0, 0, 1), (Reg.DXC_RING_CFG_LOG2N, 0, 0, 12)]
    let b := conf [(Reg.DXC_RING_CFG_EN, 0, 0, 1), (Reg.DXC_RING_CFG_LOG2N, 0, 0, 26)]
    a.conf Reg.DXC_RING_CFG_EN 0 = 1 ∧ a.conf Reg.DXC_RING_CFG_LOG2N 0 = 12 ∧
    b.conf Reg.DXC_RING_CFG_LOG2N 0 = 26 ∧ a.rpl.on = false ∧ running.conf Reg.DXC_RING_CFG_EN 0 = 0 ∧
    b.conf Reg.DXC_RING_BASE_BASE 0 * 4096 + 16 * 2 ^ 26 ≤ b.variant.dramBytes := by decide

/-- Requests: accepted at the lowest and the highest lead, and every refusal of the procedure. -/
theorem test_hyp_requests_land :
    let ok := live [(Reg.SEM_CTL_OWNER, 0, 0, 1), (Reg.SKN_ROW_ROW, 0, 0, 5), (Reg.SKN_STAT_STG_READY, 0, 0, 1)]
    let top := live [(Reg.SEM_CTL_OWNER, 0, 0, 1), (Reg.SKN_ROW_ROW, 0, 0, 65535),
      (Reg.SKN_STAT_STG_READY, 0, 0, 1), (Reg.SKN_STAT_PRV_VALID, 0, 0, 1)]
    let late := live [(Reg.SEM_CTL_OWNER, 0, 0, 1), (Reg.SKN_ROW_ROW, 0, 0, 4)]
    ok.requestCode (.host .hpa) true = none ∧ top.requestCode (.host .hpa) true = none ∧
    top.requestCode (.host .hpa) false = none ∧ ok.requestCode (.host .hpa) false = some 0x0B ∧
    ok.requestCode (.host .hpb) true = some 1 ∧ late.requestCode (.host .hpa) true = some 3 ∧
    (live [(Reg.SEM_CTL_OWNER, 0, 0, 1), (Reg.SKN_ROW_ROW, 0, 0, 5)]).requestCode (.host .hpa) true =
      some 0x0A ∧
    (live [(Reg.SKN_STAT_PENDING, 0, 0, 1)]).requestCode (.host .hpa) true = some 9 ∧
    { running with power := { running.power with bind := .edges } }.requestCode (.host .hpa) true = some 0x0D ∧
    0 < running.row.k ∧ running.skn.req = none := by decide

/-- A request without an outcome, and one with it. -/
theorem test_hyp_request :
    let q : Request := ⟨false, 5, 5, true, none⟩
    { running with skn := { running.skn with req := some q } }.skn.req = some q ∧ q.outcome = none ∧
    ({ q with outcome := some 0 } : Request).outcome ≠ none := by decide

/-- Every check of a gauge-store write, failed in turn, and all of them passed at the last write allowed. -/
theorem test_hyp_gauge :
    let hdr : State → State := fun s => s.setWin 0x08004000 [0x54, 0x56, 0x47, 0x53, 1, 0]
    let all := hdr (live [(Reg.SEM_CTL_OWNER, 1, 0, 2), (Reg.SYS_AON_PRES_STATE, 0, 0, 3),
      (Reg.GSB_WCNT_N, 0, 0, 999)])
    all.gaugeRefusal .hpb = none ∧ all.gaugeRefusal .hpa = some 2 ∧
    (hdr (live [(Reg.SEM_CTL_OWNER, 1, 0, 2)])).gaugeRefusal .hpb = some 3 ∧
    (all.setLive Reg.SYS_AON_SEAL_SEAL_BROKEN 0).gaugeRefusal .hpb = some 4 ∧
    (all.setLive Reg.GSB_WCNT_N 1000).gaugeRefusal .hpb = some 5 ∧
    (live [(Reg.SEM_CTL_OWNER, 1, 0, 2), (Reg.SYS_AON_PRES_STATE, 0, 0, 3)]).gaugeRefusal .hpb = some 6 ∧
    all.live Reg.SYS_AON_PRES_STATE = 3 ∧ all.live Reg.SYS_AON_SEAL_SEAL_BROKEN ≠ 0 ∧
    all.live Reg.SYS_AON_SEAL_OPEN = 0 ∧ all.live Reg.GSB_STAT_BUSY = 0 ∧ all.skn.req = none ∧
    { all with boot := { all.boot with prog := some [] } }.boot.prog = some [] := by decide

/-- The seal is checked while AONCLK runs. -/
theorem test_hyp_seal : { running with aon := { running.aon with xtal := true } }.aon.xtal = true := by decide

/-- Boot sessions: WT clear, WT set without and with a grant, a session open, and a command under way. -/
theorem test_hyp_boot :
    let wt := conf [(Reg.GSB_BOOTCFG_WT, 0, 0, 1)]
    let cast := wt.setLive Reg.SYS_PWRSTAT_CAST_DONE 1
    running.conf Reg.GSB_BOOTCFG_WT = 0 ∧ cast.conf Reg.GSB_BOOTCFG_WT ≠ 0 ∧
    cast.live Reg.SYS_PWRSTAT_CAST_DONE ≠ 0 ∧ cast.live Reg.SYS_AON_PRES_STATE ≠ 3 ∧
    (cast.setLive Reg.SYS_AON_PRES_STATE 3).live Reg.SYS_AON_PRES_STATE = 3 ∧
    (cast.setLive Reg.GSB_STAT_SESS 1).live Reg.GSB_STAT_SESS ≠ 0 ∧
    (cast.setLive Reg.GSB_BSTAT_BUSY 1).live Reg.GSB_BSTAT_BUSY ≠ 0 := by decide

/-- Three messages queued, and four. -/
theorem test_hyp_mailbox :
    (live [(Reg.DXC_MBI_CTL_QUEUED, 7, 0, 3)]).live Reg.DXC_MBI_CTL_QUEUED 7 < 4 ∧
    4 ≤ (live [(Reg.DXC_MBI_CTL_QUEUED, 7, 0, 4)]).live Reg.DXC_MBI_CTL_QUEUED 7 ∧
    running.conf Reg.DXC_RING_CFG_EN 0 = 0 ∧
    running.conf Reg.DXC_RING_CFG_EN 1 = 0 ∧ 7 < running.variant.cores := by decide

/-- A halted core in bench mode that stands at ADD s3, s1, s2, in TRANSIT. -/
theorem test_hyp_bench :
    let s := { live [(Reg.DXC_CTL_BENCH, 0, 0, 1), (Reg.DXC_STAT_HALTED, 0, 0, 1), (Reg.SYS_PWRSTAT_CUR, 0, 0, 4),
        (Reg.DXC_DBG_SEL_SEL, 0, 0, 39)] with
      cores := [(0, { coreAB 1 2 with imem := [(0, 1), (1, 0x10), (2, 0x61)] })] }
    s.live Reg.SYS_PWRSTAT_CUR = 4 ∧ s.live Reg.DXC_CTL_BENCH 0 ≠ 0 ∧ s.live Reg.DXC_STAT_HALTED 0 ≠ 0 ∧
    dexDecode 0 (s.core 0).word = some (.add 0 ⟨3, 1, 2, 0⟩) ∧ (s.core 0).run ≠ .idle ∧ (s.core 0).pc < 0x10000 ∧
    s.live Reg.DXC_DBG_SEL_SEL 0 = 33 + 2 * 3 := by decide

/-- A heartbeat exactly TIMEOUT old, and one sub-tick older. -/
theorem test_hyp_safe :
    let at_ : Stamp → State := fun t => { running with time := { running.time with dt := t } }
    let old : State → Int := fun s => sdiff (BitVec.ofNat 64 (s.live64 Reg.HP_HBLAST_LO_STAMP Reg.HP_HBLAST_HI_STAMP 0))
      (floorTo 64 s.now)
    old (at_ 12800000000) = running.conf Reg.HP_HBCFG_TIMEOUT * (25600000 : Int) ∧
    running.conf Reg.HP_HBCFG_TIMEOUT * (25600000 : Int) < old (at_ 12800000064) := by decide

/-! ### Presence, waking, power and cast-on -/

/-- Running with AONCLK. -/
def awake : State := { running with aon := { running.aon with xtal := true } }

/-- In DOZE after a wake, the engines still gated. -/
def dozing : State := { awake with power := { awake.power with phase := .doze, waking := true } }

/-- ASLEEP, with a wake latched on the way there. -/
def asleep : State := { awake with power := { awake.power with phase := .unpowered, wakeLatched := true } }

/-- Every state of the presence machine, with PRESENCE not enabled as a wake source. -/
theorem test_hyp_presence :
    ∀ n, n < 4 → let s := (awake.setLive Reg.SYS_AON_WAKEEN_PRESENCE 0).setLive Reg.SYS_AON_PRES_STATE n
      s.aon.xtal = true ∧ s.live Reg.SYS_AON_WAKEEN_PRESENCE = 0 ∧ s.live Reg.SYS_AON_PRES_STATE = n := by decide

/-- A grant opens at the shortest and the longest hold, and at neither neighbour. -/
theorem test_presence_release :
    let s := awake.setLive Reg.SYS_AON_PRES_STATE 1
    [65535, 65536, 327680, 327681].map (fun h => match exec (.presenceRelease h) s with
      | .next t => t.live Reg.SYS_AON_PRES_STATE | _ => 9) = [0, 3, 3, 0] := by decide

/-- The wake sources, selected, enabled and due, and not so, in each state that they act in. -/
theorem test_hyp_wake :
    let base := ([Reg.SYS_AON_WAKEEN_CAN, Reg.SYS_AON_WAKEEN_PI0, Reg.SYS_AON_WAKEEN_RTC].foldl
      (fun (s : State) f => s.setLive f 1) awake).setLive Reg.SYS_AON_WAKEEN_CAN_SEL 8
    let s : State := { base with aon := { base.aon with alarmDue := true } }
    s.aon.alarmDue = true ∧ bitOf (s.live Reg.SYS_AON_WAKEEN_CAN_SEL) 3 = true ∧ s.aon.xtal = true ∧
    base.aon.alarmDue = false ∧ bitOf (s.live Reg.SYS_AON_WAKEEN_CAN_SEL) 0 = false ∧
    s.live Reg.SYS_AON_PRES_STATE = 0 ∧ (s.setLive Reg.SYS_AON_PRES_STATE 3).live Reg.SYS_AON_PRES_STATE = 3 ∧
    s.live Reg.SYS_AON_WAKEEN_PRESENCE ≠ 0 ∧ (s.setLive Reg.SYS_AON_WAKEEN_PI0 0).live Reg.SYS_AON_WAKEEN_PI0 = 0 ∧
    State.reset.power.wakeLatched = false ∧ (dozing.power.phase = .doze ∧ dozing.power.waking = true ∧
      dozing.power.ungated = false ∧ dozing.rpl.on = false ∧ 0 < dozing.row.k) ∧
    (asleep.power.phase = .unpowered ∧ asleep.power.wakeLatched = true ∧ asleep.aon.xtal = true) ∧
    s.live Reg.SYS_AON_WAKEEN_CAN ≠ 0 ∧ s.live Reg.SYS_AON_WAKEEN_PI0 ≠ 0 ∧
    s.live Reg.SYS_AON_WAKEEN_HOSTCS ≠ 0 ∧ s.live Reg.SYS_AON_WAKEEN_RTC ≠ 0 ∧
    s.power.phase = .rows ∧ s.power.bind = .none ∧ s.power.bindReplay = false ∧ s.power.wakeLatched = false ∧
    s.power.ungated = false ∧ s.rpl.on = false ∧ 0 < s.row.k := by decide

/-- A second with the alarm due, a grant open and its last second; a write in transit. -/
theorem test_hyp_mirror :
    let s := (awake.setLive Reg.SYS_AON_PRES_STATE 3).setLive Reg.SYS_AON_PRES_REMAIN 60
    let w : State := { awake with aon := { awake.aon with writes := [(0x104, 0x3F)] } }
    s.live Reg.SYS_AON_PRES_STATE = 3 ∧ s.live Reg.SYS_AON_PRES_REMAIN ≤ 60 ∧ awake.live Reg.SYS_AON_PRES_STATE ≠ 3 ∧
    w.aon.writes = (0x104, 0x3F) :: [] ∧ awake.live Reg.SYS_AON_WAKESRC_SRC < 32 ∧ busPresent awake.variant 0x108 = true ∧
    busPresent awake.variant 0x14 = true := by decide

/-- The phases, pins and a linger that the statement about power names. -/
theorem test_hyp_power :
    let l : State := { awake with
      power := { awake.power with bind := .linger }, time := { awake.time with valid := true } }
    l.power.bind = .linger ∧ l.power.phase = .rows ∧ awake.power.pwren = true ∧ l.reaches l.lingerEnd = true ∧
    l.recordFirst l.lingerEnd = false ∧
    State.reset.power.phase = .held ∧ State.reset.power.pwren = true ∧ awake.power.bind ≠ .linger ∧
    ({ awake with power := { awake.power with pwren := false, phase := .failed } } : State).power.pwren = false := by
  decide

/-- A replay whose record holds a live write of stamp 0 still to come; the lockout of the gate drive outlasts RESET_N.
-/
theorem test_hyp_linger_record :
    let l := conf [(Reg.DXC_RING_CFG_LOG2N, 0, 0, 12)]
    let r : State := { l with rpl := { l.rpl with on := true }, fab := { l.fab with dram := [(15, 8)] } }.setLive
      Reg.DXC_RING_WR_WR 1
    r.recordFirst r.lingerEnd = true ∧
    (match exec .resetAssert { l with dsl := { l.dsl with gduv := true } } with
      | .next t => (t.dsl.gduv, t.power.phase) | _ => (false, .rows)) = (true, .held) := by decide +kernel

/-- No copy passes the image checks when both are empty; with no copy kept none is accepted. -/
theorem test_hyp_castOn :
    chaipGood [] = false ∧ State.reset.power.images = [] ∧
    gaugeGood State.reset.boot.gauge = false ∧ State.reset.rpl.on = false ∧
    (running.setLive Reg.SYS_CLKSTAT_REF_OK 1).live Reg.SYS_CLKSTAT_REF_OK ≠ 0 ∧ State.reset.live Reg.SYS_CLKSTAT_REF_OK = 0 ∧
    State.reset.time.dt.toNat + 6400000 < 2 ^ 64 := by decide

/-- A copy of one section with its CRCs: CAN_TDC.EN of the four controllers, whose reset bit timing needs it (R362). -/
def smallCopy : List Byte :=
  [67, 72, 80, 73, 1, 0, 1, 0, 7, 0, 0, 0, 0, 0, 0, 0, 0, 0, 0, 0, 0, 0,
    0, 0, 0, 0, 0, 0, 0, 0, 0, 0, 0, 0, 0, 0, 0, 0, 0, 0, 0, 0, 0, 0,
    0, 0, 0, 0, 0, 0, 0, 0, 0, 0, 0, 0, 0, 0, 0, 0, 85, 116, 107, 31, 2, 0,
    0, 0, 80, 0, 0, 0, 48, 0, 0, 0, 66, 252, 59, 97, 12, 0, 0, 6, 1, 0, 1, 0,
    0, 0, 0, 128, 12, 16, 0, 6, 1, 0, 1, 0, 0, 0, 0, 128, 12, 32, 0, 6, 1, 0,
    1, 0, 0, 0, 0, 128, 12, 48, 0, 6, 1, 0, 1, 0, 0, 0, 0, 128]

set_option maxRecDepth 100000 in
/-- The copy passes the image checks (CRC as in R413). -/
theorem test_hyp_copy_good : chaipGood smallCopy = true := by decide +kernel

/-- The checker accepts the copy at cast-on. -/
theorem test_hyp_copy_accepted :
    let s : State := { State.reset with
      power := { State.reset.power with phase := .castOn 7, images := [(0, smallCopy)] } }
    (s.acceptCopy s.power.images).2.isSome = true := by decide +kernel

/-! ### Time and the sensor inputs -/

/-- A trim in waiting at the end of its µs, a relation that the hosts maintain, TCLK locked. -/
theorem test_hyp_time :
    let s : State := { conf [(Reg.SYS_DISC_STAT_SRC, 0, 0, 1)] with
      time := { running.time with valid := true, dt := 25599, trimNext := some (5, 25600) } }
    s.time.trimNext = some (5, 25600) ∧ s.time.valid = true ∧ sAtOrBefore s.time.dt 25600 = true ∧
    s.conf Reg.SYS_DISC_STAT_SRC ≠ 0 ∧ (conf [(Reg.SYS_DISC_STAT_SRC, 0, 0, 0)]).conf Reg.SYS_DISC_STAT_SRC = 0 ∧ running.time.trimNext = none ∧
    (live [(Reg.SYS_CLKSTAT_TCLK_LOCK, 0, 0, 1)]).live Reg.SYS_CLKSTAT_TCLK_LOCK ≠ 0 ∧
    (List.replicate 64 (7 : Byte)).length = 64 ∧ busPresent running.variant 0x44 = true := by decide

/-- Pulse input 23 enabled for falling edges, its level high; the quadrature pair of inputs 22 and 23. -/
theorem test_hyp_pulse :
    let a := (conf [(Reg.SIN_PCFG_EN, 23, 0, 1), (Reg.SIN_PCFG_EDGE, 23, 0, 2)]).setLive Reg.SIN_PSTAT_LEVEL 1 23
    let q := conf [(Reg.SIN_PCFG_EN, 22, 0, 1), (Reg.SIN_PCFG_QUAD, 22, 0, 1)]
    a.conf Reg.SIN_PCFG_EN 23 = 1 ∧ bitOf (a.conf Reg.SIN_PCFG_EDGE 23) 1 = true ∧
    a.live Reg.SIN_PSTAT_LEVEL 23 ≠ 0 ∧ bitOf (a.conf Reg.SIN_PCFG_EDGE 23) 0 = false ∧
    sAtOrBefore (a.pulse 23).from_ 64 = true ∧ (a.setPulse 23 { a.pulse 23 with from_ := 128 }).pulse 23 = { Pulse.fresh with from_ := 128 } ∧
    sAtOrBefore 128 64 = false ∧ sAtOrBefore (q.pulse 22).from_ 64 = true ∧
    (a.setLive Reg.SIN_PSTAT_LEVEL 0 23).live Reg.SIN_PSTAT_LEVEL 23 = 0 ∧ a.conf Reg.SIN_PCFG_QUAD (23 / 2 * 2) ≠ 1 ∧
    q.conf Reg.SIN_PCFG_QUAD (22 / 2 * 2) = 1 ∧ q.conf Reg.SIN_PCFG_EN 22 = 1 ∧ 22 % 2 = 0 := by decide

/-- The forward sequence of R386: A rises while B is low, then B rises while A is high. -/
theorem test_quadrature_forward :
    let q := conf [(Reg.SIN_PCFG_EN, 0, 0, 1), (Reg.SIN_PCFG_QUAD, 0, 0, 1)]
    (match exec (.quadEdge 0 0 true false) q with
      | .next t => (match exec (.quadEdge 0 640 true true) t with
        | .next u => (u.live Reg.SIN_PCNT_CNT 0, u.inp.done.length) | _ => (9, 9))
      | _ => (9, 9)) = (2, 2) := by decide

/-- An ADC channel with period 10 µs, a burst under way, a sample in waiting, IMU_SYNC high and low. -/
theorem test_hyp_conversions :
    let a := conf [(Reg.SIN_ACFG_EN, 15, 0, 1), (Reg.SIN_ATIME_APER, 15, 0, 1), (Reg.SIN_ICFG_EN, 0, 0, 1),
      (Reg.SIN_ISYNC_EN, 0, 0, 1)]
    let x : Sample := ⟨0x50000, 64, 128, 0, []⟩
    let s : State := { a with
      time := { a.time with valid := true }, inp := { a.inp with burst := some ⟨64, []⟩, done := [x], sync := true } }
    a.conf Reg.SIN_ACFG_EN 15 = 1 ∧ 0 < a.conf Reg.SIN_ATIME_APER 15 ∧
    a.conf Reg.SIN_ATIME_APH 15 < a.conf Reg.SIN_ATIME_APER 15 ∧ a.now.toNat + 2 ^ 36 < 2 ^ 64 ∧
    a.conf Reg.SIN_ICFG_EN = 1 ∧ a.inp.burst = none ∧ s.inp.burst = some ⟨64, []⟩ ∧ a.conf Reg.SIN_ICFG_DRPOL = 0 ∧
    sAtOrBefore a.inp.imuFrom 64 = true ∧ s.inp.done = x :: [] ∧
    a.conf Reg.SIN_ISYNC_EN = 1 ∧ a.inp.sync = false ∧ s.inp.sync = true ∧ 0 < a.conf Reg.SIN_ISYNC_SPER ∧
    s.time.valid = true ∧ (s.row.cur.toNat + 2 ^ 36 < 2 ^ 64 ∧ s.now.toNat + 2 ^ 36 < 2 ^ 64) ∧ (List.replicate 16 (1 : Byte)).length = 16 := by decide

/-- A burst that ends exactly WIN after its stamp is admitted, and one sub-tick later it is refused. -/
theorem test_burst_window :
    let a := conf [(Reg.SIN_ICFG_EN, 0, 0, 1)]
    let s : State := { a with inp := { a.inp with burst := some ⟨64, []⟩ } }
    let bytes := List.replicate 16 (1 : Byte)
    [512064, 512065].map (fun n => match exec (.imuBurstEnd n bytes) s with
      | .next t => (t.inp.pend.length, t.live Reg.SIN_ISTAT_LATE) | _ => (9, 9)) = [(1, 0), (0, 1)] := by decide

/-! ### Edge channels, carriers and trips -/

/-- Carrier group 1 runs in its period from 640 with a period of 2048. -/
def carrier (q : Chan) : State :=
  { running with
    time := { running.time with valid := true, dt := 640 }
    etu := { running.etu with
      groups := [(1, { Group.fresh with run := true, start := 640, per := 2048 })], chans := [(16, q)] } }

/-- A group that runs, locked and not, with a shadow written before and in the reload's cycle. -/
theorem test_hyp_carrier :
    let s := carrier Chan.fresh
    let x := s.group 1
    x.run = true ∧ x.startAt = none ∧ x.lockAt = none ∧ x.wroteAt = [] ∧ x.writes = [] ∧ s.rpl.on = false ∧
    1 < s.variant.groups ∧ s.etu.clearedAt = [] ∧ s.reaches (x.start + BitVec.ofNat 64 x.per) = true ∧
    bitOf (s.live Reg.ETU_LOCK_LOCK) 1 = false ∧
    bitOf ((s.setLive Reg.ETU_LOCK_LOCK 2).live Reg.ETU_LOCK_LOCK) 1 = true ∧
    (let y := { x with wroteAt := [(0, some ((2688 : Stamp), 7))] };
      y.wroteAt = [(0, some (2688, 7))] ∧ cycle (x.start + BitVec.ofNat 64 x.per) ≤ cycle 2688) ∧
    busPresent s.variant (0x03001008 + 0x10 * 1) = true ∧ busPresent s.variant 0x03000010 = true := by decide

/-- A group that a commit has stopped, with a period start before its end and one at it. -/
theorem test_hyp_stopped :
    let x : Group := { Group.fresh with startAt := some 704, stopAt := some 768 }
    x.run = false ∧ x.startAt = some 704 ∧ x.stopAt = some 768 ∧ sBefore 704 768 = true ∧ sBefore 768 768 = false := by
  decide

/-- The fall of a pair's reference takes the even output down, and the odd output rises DT_F later. -/
theorem test_pair_fall :
    let s := (carrier { Chan.fresh with ca := 64, cb := 128, r := true, lvl := true }).setLive Reg.ETU_CHSTAT_OUT 1 16
    let p := { s with skn := (conf [(Reg.ETU_CHCFG_PAIR, 16, 0, 1), (Reg.ETU_CHDT_DT_F, 16, 0, 4)]).skn }
    (match exec (.compareMatch 16 768) p with
      | .next t => (t.live Reg.ETU_CHSTAT_OUT 16, (t.chan 17).riseAt) | _ => (9, none)) = (0, some 832) := by decide

/-- A window from 64 to 128 in a CUT channel with its gate open, at its first and at its last sub-tick. -/
theorem test_channel_window :
    let s := (carrier { Chan.fresh with ca := 64, cb := 128 }).setLive Reg.ETU_CHSTAT_GATE 1 16
    [703, 704, 767, 768].map (fun n => match exec (.compareMatch 16 n) s with
      | .next t => t.live Reg.ETU_CHSTAT_OUT 16 | _ => 9) = [0, 1, 1, 0] := by decide

/-- The hypotheses about channels: one that is single, one that fell in the cycle, one whose pulse MINP removes, and a
pair at the rise of its reference and at the end of its dead time. -/
theorem test_hyp_channels :
    let s := carrier { Chan.fresh with ca := 64, cb := 128 }
    let b := carrier { Chan.fresh with fell := some 700 }
    let cfg : List (Fld × Nat × Nat × Nat) → State := fun fs => { s with skn := (conf fs).skn }
    let m := cfg [(Reg.ETU_CHMP_MINP, 16, 0, 2)]
    let p := cfg [(Reg.ETU_CHCFG_PAIR, 16, 0, 1), (Reg.ETU_CHDT_DT_R, 16, 0, 4)]
    16 < s.variant.channels ∧ s.reaches 704 = true ∧ s.live Reg.ETU_GSTAT_CUT 1 = 0 ∧
    sAtOrBefore (s.group 1).start 704 = true ∧ sBefore 704 ((s.group 1).start + 2048) = true ∧
    (s.chCfg 16).pair = false ∧ (s.chCfg 16).minp = 0 ∧ (s.chCfg 16).gmode = 1 ∧ (s.chCfg 16).dsrc = 0 ∧
    (s.chan 16).fallAt = none ∧ (s.chan 16).removed = false ∧ (704 - (s.group 1).start).toNat = (s.chan 16).ca ∧
    (m.chCfg 16).minp = 128 ∧ (p.chCfg 16).pair = true ∧ (p.chCfg 16).dtR = 64 ∧ 16 % 2 = 0 ∧
    ((cfg [(Reg.ETU_CHCFG_PAIR, 16, 0, 1), (Reg.ETU_CHDT_DT_F, 16, 0, 4)]).chCfg 16).dtF = 64 ∧
    (let f := carrier { Chan.fresh with ca := 64, cb := 128, r := true, lvl := true };
      (f.chan 16).skip = false ∧ sAtOrBefore (f.chan 16).rise 768 = true ∧ f.live Reg.ETU_CHSTAT_OUT 17 = 0) ∧
    (s.chan 17).riseAt = none ∧ (s.chan 16).r = false ∧ sAtOrBefore (s.chan 17).rise 704 = true ∧
    s.recordFirst 704 = false ∧ (s.chan 17).skip = false ∧ (s.chan 16).fell = none ∧
    (b.chan 16).fell = some 700 ∧ cycle 700 = cycle 703 ∧
    (carrier { Chan.fresh with ca := 64, cb := 128, r := true, riseAt := some 768 }).chan 16 =
      { Chan.fresh with ca := 64, cb := 128, r := true, riseAt := some 768 } := by decide

/-- Trip 15, latching and mapped to group 31, active and latched. -/
theorem test_hyp_trips :
    let s := conf [(Reg.ETU_TRIPCFG_EN, 15, 0, 1), (Reg.ETU_TRIPCFG_MODE, 15, 0, 1),
      (Reg.ETU_TRIPMAP_MAP, 15, 0, 0x80000000)]
    let a := (s.setLive Reg.ETU_TRIPSTAT_ACTIVE 0x8000).setLive Reg.ETU_TRIPSTAT_LATCHED 0x8000
    s.rpl.on = false ∧ bitOf (s.live Reg.ETU_TRIPSTAT_ACTIVE) 15 = false ∧
    bitOf (a.live Reg.ETU_TRIPSTAT_ACTIVE) 15 = true ∧ s.conf Reg.ETU_TRIPCFG_EN 15 = 1 ∧
    s.conf Reg.ETU_TRIPCFG_MODE 15 = 1 ∧ bitOf (s.conf Reg.ETU_TRIPMAP_MAP 15) 31 = true ∧
    31 < s.variant.groups ∧ busPresent s.variant 0x03000028 = true ∧
    (let c : State := { s with
        time := { s.time with dt := 640 }
        skn := (conf [(Reg.ETU_TRIPCFG_FLT, 15, 0, 4), (Reg.ETU_TRIPCFG_PRE, 15, 0, 1)]).skn };
      c.conf Reg.ETU_TRIPCFG_FLT 15 = 4 ∧ c.conf Reg.ETU_TRIPCFG_POL 15 = 0 ∧
      c.tripTakes true ⟨15, 0, [true, true, true, true]⟩ = true ∧
      c.tripTakes true ⟨15, 0, [true, false, true, true]⟩ = false ∧
      c.tripTakes false ⟨15, 0, [false, false, false, false]⟩ = true) := by decide

/-! ### Drive slices -/

/-- Slice 3 in a state, with its runtime; its shunt is 1 mΩ and its trims are 1, so that a current in mA is a voltage
in µV. -/
def sliced (st : Nat) (x : Slice) (fs : List (Fld × Nat × Nat × Nat)) : State :=
  let s := (conf ((Reg.DSL_SCFG_SHUNT, 3, 0, 10) :: fs)).setLive Reg.DSL_SSTAT_STATE st 3
  { s with
    time := { running.time with valid := true, dt := 6400 }
    boot := { s.boot with loaded := [(111, 0x80), (295, 0x80), (385, 0x80), (387, 0x80)] }
    dsl := { running.dsl with slices := [(3, x)] } }

/-- The states, requests, exits and currents that the clauses about slices name, at their limits. -/
theorem test_hyp_slice :
    let w := sliced 3 { Slice.fresh with request := some 0, onFrom := some 0 } []
    let ph := sliced 2 { Slice.fresh with chop := true, onFrom := some 0 }
      [(Reg.DSL_PHA_EXIT, 0, 0, 1), (Reg.DSL_POFF_I_OFF, 0, 0, 50), (Reg.DSL_PCFG_NPH_M1, 0, 0, 1),
        (Reg.DSL_PHA_I_TGT, 0, 0, 2000)]
    let off := sliced 5 { Slice.fresh with offTimer := some 0 } []
    3 < w.variant.slices ∧ w.slLead 3 = 3 ∧ (w.slice 3).request = some 0 ∧ w.compatible 3 = true ∧
    w.blocked 3 0 = false ∧ w.live Reg.DSL_SSTAT_STATE 3 = 3 ∧ (∀ t, w.recordFirst t = false) ∧
    w.conf Reg.DSL_PCFG_NPH_M1 (w.prof 3) ≤ w.live Reg.DSL_SSTAT_PHASE 3 ∧
    (sliced 1 { Slice.fresh with request := some 0 } []).live Reg.DSL_SSTAT_STATE 3 = 1 ∧
    ph.conf Reg.DSL_PHA_EXIT (ph.prof 3) (ph.live Reg.DSL_SSTAT_PHASE 3) = 1 ∧
    ph.conf Reg.DSL_POFF_I_OFF (ph.prof 3) = 50 ∧ ph.measured 3 48 0 = 0 ∧ ph.measured 3 49 0 = 98 ∧
    ph.regulated 3 2000 0 = 2000 ∧ ph.level 3 2000 = 1953 ∧ ph.level 3 2000 ≤ ph.regulated 3 2000 0 ∧
    (ph.slice 3).lapsed.map cycle ≠ some (cycle ph.now) ∧ w.paired 3 = false ∧
    (let l := sliced 2 { Slice.fresh with lapsed := some 6400 } [];
      (l.slice 3).lapsed.map cycle = some (cycle l.now)) ∧
    ph.conf Reg.DSL_PHA_I_TGT (ph.prof 3) (ph.live Reg.DSL_SSTAT_PHASE 3) = 2000 ∧ (ph.slice 3).chop = true ∧
    ¬ ph.conf Reg.DSL_PCFG_NPH_M1 (ph.prof 3) ≤ ph.live Reg.DSL_SSTAT_PHASE 3 ∧
    bitOf (ph.conf Reg.DSL_BCFG_HSUSE (3 / 6)) (3 % 6) = false ∧
    w.conf Reg.DSL_PHA_EXIT (w.prof 3) (w.live Reg.DSL_SSTAT_PHASE 3) = 0 ∧
    off.live Reg.DSL_SSTAT_STATE 3 = 5 ∧ (off.slice 3).offTimer = some 0 ∧
    (sliced 4 Slice.fresh []).live Reg.DSL_SSTAT_STATE 3 = 4 ∧ (ph.slice 3).onFrom = some 0 ∧
    (w.slice 3).chop = false :=
  ⟨by decide, by decide, by decide, by decide, by decide, by decide, fun _ => rfl, by decide⟩

/-- A PEAK phase that ends on T: with a conversion of I_OFF or more the next phase starts, with one below it the load
is open; 48 µV convert to 0 and 49 µV to one step of 97.66 µV (R266, R272). -/
theorem test_peak_miss :
    let ph := sliced 2 Slice.fresh [(Reg.DSL_PHA_EXIT, 0, 0, 1), (Reg.DSL_POFF_I_OFF, 0, 0, 50),
      (Reg.DSL_PCFG_NPH_M1, 0, 0, 1)]
    [48, 49].map (fun i => match exec (.phaseTimeExpiry 3 ⟨i, 0⟩) ph with
      | .next t => (t.live Reg.DSL_SSTAT_STATE 3, t.live Reg.DSL_SFLT_OPEN 3, t.live Reg.DSL_SSTAT_PHASE 3)
      | _ => (9, 9, 9)) = [(6, 1, 0), (2, 0, 1)] := by decide

/-- A pair regulates the sum of its two currents, and 200 mV bound each (R265, R266). -/
theorem test_pair_current :
    let s : State := { conf [(Reg.DSL_BCFG_PAIR, 0, 0, 2), (Reg.DSL_SCFG_SHUNT, 2, 0, 10), (Reg.DSL_SCFG_SHUNT, 3, 0, 20)]
      with boot := { running.boot with loaded := [(107, 0x80), (111, 0x80)] } }
    s.regulated 2 1000 500 = 1250 ∧ s.currentAt 3 300000 = 100000 := by decide

/-- A dip is found and confirmed: a maximum, a fall by DIP_THR, and a rise by half of it (R282). -/
theorem test_hyp_dip :
    let s := sliced 2 { Slice.fresh with dipArmed := true }
      [(Reg.DSL_PDIP_DIP_MIN, 0, 0, 10000), (Reg.DSL_PDIP_DIP_THR, 0, 0, 600)]
    let l : List ShuntSample := [⟨6400, 11000, 0⟩, ⟨19200, 10400, 0⟩, ⟨32000, 10300, 0⟩, ⟨44800, 10600, 0⟩]
    s.dipResult 3 l = some (32000, 44800) ∧ s.reaches 44800 = true ∧ s.recordFirst 44800 = false ∧
    s.dipResult 3 [] = none ∧ (s.slice 3).dipArmed = true ∧ s.live Reg.DSL_SSTAT_STATE 3 = 2 ∧
    s.conf Reg.DSL_PHA_EXIT (s.prof 3) (s.live Reg.DSL_SSTAT_PHASE 3) ≠ 2 ∧
    (let e := sliced 2 Slice.fresh [(Reg.DSL_PHA_EXIT, 0, 0, 2)];
      e.conf Reg.DSL_PHA_EXIT (e.prof 3) (e.live Reg.DSL_SSTAT_PHASE 3) = 2 ∧
      e.conf Reg.DSL_PCFG_NPH_M1 (e.prof 3) ≤ e.live Reg.DSL_SSTAT_PHASE 3) := by decide

/-- A kink is found: the slope arms the detector and collapses (R283, with KAVG 0, KLAG 1, KARM 1). -/
theorem test_hyp_kink :
    let w : KinkWin := ⟨6400, 64000, 0, true, false⟩
    let b := sliced 4 { Slice.fresh with kinks := [w] } [(Reg.DSL_PKSL_KSLOPE, 0, 0, 5)]
    let s : State := { b with dsl := { b.dsl with windows := [(0, [(3, 6400, 64000)])] } }
    let l : List CoilSample := [⟨6400, 0, 1000, 1000⟩, ⟨19200, 0, 1200, 1000⟩, ⟨32000, 0, 1240, 1000⟩]
    s.kinkResult 3 6400 64000 l = some (32000, 32000) ∧ s.kinkResult 3 6400 64000 [] = none ∧
    s.reaches 32000 = true ∧ s.recordFirst 32000 = false ∧ (s.slice 3).kinks.filter (fun w => w.opened && !w.done) = [] ++ w :: [] ∧
    (s.slice 3).kinks.find? (fun w => w.opened) = some w ∧ (s.slice 3).kinks.find? (fun w => !w.opened) = none ∧
    (let o := sliced 4 { Slice.fresh with kinks := [{ w with opened := false }] } [];
      (o.slice 3).kinks.find? (fun w => !w.opened) = some { w with opened := false } ∧
      (o.slice 3).kinks.find? (fun w => w.opened) = none ∧ o.reaches 6400 = true ∧ o.recordFirst 6400 = false) := by decide

/-- Slices 4 and 5 of a pair, an over-current at its limit, drains and rails just beyond their levels, a bank high-side
on, a bank opening with an edge that waits for it, and addresses. -/
theorem test_hyp_slice_faults :
    let b := conf [(Reg.DSL_BCFG_PAIR, 0, 0, 4), (Reg.DSL_SCFG_SHUNT, 5, 0, 500), (Reg.DSL_SOC_OC, 5, 0, 5000),
      (Reg.DSL_BLIM_DRN_HI, 0, 0, 20), (Reg.DSL_BLIM_DRN_LO, 0, 0, 4)]
    let s : State := { b with boot := { b.boot with
      loaded := [(119, 0x80), (299, 0x80), (385, 0x80), (387, 0x80), (413, 0x80)] } }
    let o : State := { running with
      power := { running.power with bankOpenAt := [(7, 6400)] }
      dsl := { running.dsl with waiting := [⟨47, true, 64, 64, 0⟩] } }
    s.slLead 5 = 4 ∧ s.paired 4 = true ∧ s.live Reg.DSL_SSTAT_STATE 4 ≠ 6 ∧ s.live Reg.DSL_SSTAT_STATE 4 ≠ 7 ∧
    comparatorLevel (s.senseEnd 5) (s.conf Reg.DSL_SOC_OC 5) = 3992 ∧
    s.currentAt 5 200000 = 4000 ∧ s.currentAt 5 199000 < 3992 ∧ (s.slice 4).lowOn s.now = false ∧
    s.recordFirst (s.faultAt 0) = false ∧ s.row.started = false ∧
    ({ Slice.fresh with low := true, chopHigh := true } : Slice).lowOn 0 = true ∧
    (500 * s.conf Reg.DSL_BLIM_DRN_HI (5 / 6) * 2 ^ 15 : Int) < 10001 * s.gauge (288 + 2 * 5) 2 ∧
    (1999 * s.gauge (288 + 2 * 5) 2 : Int) < 500 * s.conf Reg.DSL_BLIM_DRN_LO (5 / 6) * 2 ^ 15 ∧
    (500 * s.conf Reg.DSL_BLIM_DRN_LO (5 / 6) * 2 ^ 15 : Int) < 2001 * s.gauge (384 + 4 * (5 / 6)) 2 ∧
    (7999 * s.gauge (384 + 4 * 7) 2 + 4000 * 2 ^ 15 : Int) < 12000 * 2 ^ 15 ∧
    (live [(Reg.DSL_BSTAT_PRI_ON, 7, 0, 1)]).live Reg.DSL_BSTAT_PRI_ON 7 ≠ 0 ∧ s.dsl.gduv = false ∧
    Tab.get [] s.dsl.trips 7 = [] ∧ Tab.get 0 o.power.bankOpenAt 7 ≠ 0 ∧ o.recordFirst 6400 = false ∧
    o.dsl.waiting.filter (fun w => w.slice / 6 == 7) = [⟨47, true, 64, 64, 0⟩] ∧
    (∀ w ∈ o.dsl.waiting, w.slice / 6 ≠ 6) ∧
    7 < o.variant.banks ∧ busPresent o.variant (0x03101014 + 0x40 * 47) = true ∧
    busPresent o.variant (0x03100110 + 0x20 * 7) = true := by decide

/-! ### Control loops -/

/-- Loop unit 2 in mode `q`, sampled every 10 µs, proportional gain 1 over its whole table, limits wide. -/
def loopAt (q : Nat) (x : Loop) : State :=
  let a := conf [(Reg.CLE_LCFG_EN, 2, 0, 1), (Reg.CLE_LTIME_SPER, 2, 0, 1),
    (Reg.CLE_MSCL_MGAIN, 2, 0, 0x4000), (Reg.CLE_MSCL_MSH, 2, 0, 2),
    (Reg.CLE_SSCL_SGAIN, 2, 0, 0x4000), (Reg.CLE_SSCL_SSH, 2, 0, 2), (Reg.CLE_OMAX_LIM, 2, 0, 100), (Reg.CLE_OMIN_LIM, 2, 0, 0xFFFFFF9C),
    (Reg.CLE_FAILOUT_OUT, 2, 0, 7), (Reg.CLE_SH_ESTEP, 2, 0, 4), (Reg.CLE_SH_SH_P, 2, 0, 0)]
  let w := (List.range 32).foldl (fun (t : Tab W32) i => Tab.put 0 t ((0x03208400 + 4 * i) / 4) 0x10000)
    a.skn.act.words
  { a with
    skn := { a.skn with act := { a.skn.act with words := w } }
    loops := [(2, { x with mode := q })] }

/-- A unit alone in each mode, with the grid at its least period; with a following-error limit; and the lower of two
members of a group that has sampled. -/
theorem test_hyp_loops :
    let a := loopAt 1 Loop.fresh
    let g := conf [(Reg.CLE_LCFG_EN, 2, 0, 1), (Reg.CLE_LCFG_EN, 3, 0, 1), (Reg.CLE_LCFG_GEN, 2, 0, 1),
      (Reg.CLE_LCFG_GEN, 3, 0, 1)]
    let g : State := { g with loops := [(2, { Loop.fresh with mode := 2, at_ := some 256000, open_ := true }),
      (3, { Loop.fresh with mode := 2 })] }
    (∀ t, a.recordFirst t = false) ∧ a.row.cur.toNat < 2 ^ 62 ∧ a.now.toNat < 2 ^ 62 ∧
    (∀ j, j < 64 → (a.loop j).open_ = false) ∧ (∀ j, j < 64 → j ≠ 2 → (g.loop j).open_ = false) ∧
    (g.loopImg 2).fld Reg.CLE_FELIM_LIM 2 = 0 ∧
    a.skn.act.fld Reg.CLE_LCFG_EN 2 = 1 ∧ (a.loop 2).cfgOld = none ∧ (a.loop 2).writes = [] ∧
    a.skn.act.fld Reg.CLE_MSRC_TYPE 2 = 0 ∧ a.skn.act.fld Reg.CLE_SSRC_TYPE 2 = 0 ∧
    a.skn.act.fld Reg.CLE_LCFG_GEN 2 = 0 ∧ (a.loop 2).mode = 1 ∧ a.conf Reg.CLE_FELIM_LIM 2 = 0 ∧
    ((loopAt 2 Loop.fresh).loop 2).mode = 2 ∧ ((loopAt 0 Loop.fresh).loop 2).mode = 0 ∧
    g.loopGroup 3 256000 = [2, 3] ∧ (g.loop 3).mode = 2 ∧ (g.loop 2).open_ = true ∧ (g.loop 2).at_ = some 256000 ∧ (g.loop 3).at_ = none :=
  ⟨fun _ => rfl, by decide⟩

/-- Of two members in AUTO the one with the higher output loses, and its integrator tracks the lower one's output: at
5 with a proportional term of 9 it stands at −4 (R305). -/
theorem test_loop_select :
    let s : State := { conf [(Reg.CLE_IMIN_LIM, 3, 0, 0xFFFFFF9C), (Reg.CLE_IMAX_LIM, 3, 0, 100)] with
      loops := [(2, { Loop.fresh with mode := 1, p := 5, u := 5 }), (3, { Loop.fresh with mode := 1, p := 9, u := 9 })] }
    let t := s.loopSelect [2, 3]
    ((t.loop 2).loser, (t.loop 3).loser, (t.loop 3).u, (t.loop 3).integ) = (false, true, 5, -4) := by decide

/-- The hypotheses about a write that waits, and about the output instant. -/
theorem test_hyp_loop_writes :
    let a := loopAt 1 { Loop.fresh with writes := [(0x50, 2, 64)] }
    let b := loopAt 1 { Loop.fresh with at_ := some 256000, due := true }
    (a.loop 2).writes = [(0x50, BitVec.ofNat 32 2, 64)] ∧ (b.loop 2).at_ = some 256000 ∧
    (b.loop 2).due = true ∧ (b.loop 2).fe < 2 ^ 16 ∧
    { b with time := { b.time with valid := true, dt := 256000 } }.reaches (256000 + 102400) = true ∧
    busPresent a.variant (0x03201050 + 0x80 * 63) = true ∧ busPresent a.variant 0x03201074 = true := by decide

/-- By hand: an error of 7 with a gain of 1 gives 7; with 120 the output stands at its limit of 100. -/
theorem test_loop_proportional :
    [(7 : Nat), 120].map (fun v => match exec (.loopSample 2) ((loopAt 1 Loop.fresh).setLive Reg.CLE_SP_SP v 2) with
      | .next t => ((t.loop 2).u, (t.loop 2).err, bitOf (t.loop 2).flags 1) | _ => (0, 0, false)) =
      [(7, 7, false), (100, 120, true)] := by decide +kernel

/-- A mode write to MANUAL in the cycle of a sample acts at the following one; unit 2 has a MANUAL mode. -/
theorem test_loop_mode :
    [(255936 : Stamp), 256000].map (fun l =>
      match exec (.loopSample 2) { loopAt 1 { Loop.fresh with writes := [(0x50, 2, l)] } with
        time := { running.time with valid := true, dt := 25601 } } with
      | .next t => ((t.loop 2).mode, (t.loop 2).writes.length) | _ => (9, 9)) = [(2, 0), (1, 1)] := by decide +kernel

/-! ### GNSS baseband -/

/-- A running baseband with further settings and live fields. -/
def gnbAt (cs ls : List (Fld × Nat × Nat × Nat)) : State :=
  ls.foldl (fun (s : State) x => s.setLive x.1 x.2.2.2 x.2.1 x.2.2.1) (conf ((Reg.GNB_CFG_EN, 0, 0, 1) ::
    (Reg.SYS_DISC_STAT_SRC, 0, 0, 0) :: cs))

/-- The hypotheses about channels, epochs and pulses: a write that waits, a tracking channel in NAV mode and one in
MEAS mode, an epoch with a flag, an output in each state of the discipline, and a fixed pulse. -/
theorem test_hyp_gnb_channels :
    let s := gnbAt [(Reg.GNB_PCFG_EN, 0, 0, 1), (Reg.GNB_PCFG_L0EN, 0, 0, 1), (Reg.GNB_LO0_LO, 0, 0, 1575420000),
      (Reg.GNB_PPSCFG_EN, 1, 0, 1), (Reg.GNB_PPSCFG_FREEPPS, 1, 0, 1), (Reg.GNB_PPSCFG_HOSUP, 1, 0, 1)]
      [(Reg.GNB_TCSTAT_STATE, 5, 0, 3), (Reg.GNB_DSTAT_EXPIRED, 0, 0, 1), (Reg.GNB_DSTAT_PHASE, 0, 0, 2),
        (Reg.SYS_DISC_GPS_HI_GPS, 0, 0, 0x1000)]
    let x : Track := { Track.fresh with cfg := 0x90010500 }
    let t : State := { s with
      gnb := { s.gnb with chans := [(5, x), (63, { Track.fresh with writes := [(0, 0x80010100, 64)] })]
                          epoch := some (0, List.replicate 21 0 ++ [1]), pulse := [(1, [12800000000])]
                          up := [(1, some 12800000000)] }
      time := { s.time with valid := true, dt := 128 } }
    s.variant.gnb = true ∧ s.conf Reg.GNB_CFG_EN = 1 ∧ s.rpl.on = false ∧ 255 < s.variant.tracks ∧
    busPresent s.variant (0x04001000 + 0x10 * 255) = true ∧ s.live Reg.GNB_TCSTAT_STATE 5 = 3 ∧
    (tcCfg (t.track 5).cfg).mode = 1 ∧ (tcCfg { Track.fresh with cfg := 0x80010500 }.cfg).mode = 0 ∧
    (t.track 63).writes = [(0, 0x80010100, 64)] ∧ cycle 64 < cycle 2560000000 ∧
    (0x80010100 : W32).toNat / 2 ^ 16 % 256 = 1 ∧ s.conf Reg.GNB_LO0_LO 0 = 1575420000 ∧
    t.gnb.epoch = some (0, List.replicate 21 0 ++ [1]) ∧ leAt (List.replicate 21 0 ++ [1]) 21 1 ≠ 0 ∧
    t.reaches (0 + 5120000) = true ∧ s.conf Reg.GNB_PPSCFG_EN 1 = 1 ∧ Tab.get [] s.gnb.pulse 1 = [] ∧ 0 ≤ sdiff (64 : Stamp) 64 ∧ sdiff (128 : Stamp) 64 < 0 ∧
    Tab.get none s.gnb.lastPulse 1 = none ∧ s.live Reg.GNB_DSTAT_PHASE = 2 ∧ 0 ≤ sdiff s.anchor s.now ∧
    2 ^ 40 ≤ s.gpsAnchor ∧ s.gpsAnchor < 2 ^ 62 ∧ (s.setLive Reg.GNB_DSTAT_PHASE 0).live Reg.GNB_DSTAT_PHASE ≤ 1 ∧
    s.conf Reg.GNB_PPSCFG_FREEPPS 0 ≠ 1 ∧ s.conf Reg.GNB_PPSCFG_HOSUP 1 = 1 ∧
    Tab.get [] t.gnb.pulse 1 = 12800000000 :: [] ∧ t.reaches 12800000000 = true := by decide

/-- An LNAV word of zeros passes its parity, and one with a wrong parity bit does not; a unit of another kind is none
of the signal's (R312, R319). -/
theorem test_hyp_nav_unit :
    let u : NavUnit := { tc := 5, sig := 0, stamp := 64, nbits := 30, result := 0, kind := 1, data := [0, 0, 0, 0] }
    (checkedUnit u 1 0).map (fun w => (w.result, w.sig)) = some (1, 1) ∧ checkedUnit u 0x0A 0 = none ∧
    (checkedUnit { u with data := [0, 0, 0, 4] } 1 0).map (fun w => w.result) = some 2 := by decide

/-- An instant after the microsecond of a boundary: the write of GPS C/A on channel 0 is applied at the first; the
record of a channel that tracks has one block. -/
theorem test_gnb_epoch :
    let s := gnbAt [(Reg.GNB_PCFG_EN, 0, 0, 1), (Reg.GNB_PCFG_L0EN, 0, 0, 1), (Reg.GNB_LO0_LO, 0, 0, 1575420000)]
      [(Reg.GNB_TCSTAT_STATE, 5, 0, 3)]
    let t : State := { s with
      gnb := { s.gnb with chans := [(0, { Track.fresh with writes := [(0, 0x80010100, 64)] }),
        (5, { Track.fresh with cfg := 0x80010500 })] }
      time := { s.time with valid := true, dt := 25728 } }
    (match exec (.measurementInstant [⟨5, 1, 2, 3, 4, 4500, 6, 3⟩]) t with
      | .next t => [t.live Reg.GNB_TCSTAT_STATE 0, t.now.toNat] ++ (match t.gnb.epoch with
        | some e => [leAt e.2 12 2, leAt e.2 16 4, leAt e.2 64 1, leAt e.2 65 1, leAt e.2 66 1]
        | none => [])
      | _ => []) = [1, 2560000000, 1, 96, 5, 1, 5] := by decide +kernel

/-- The Sp42 example: returning from holdover with a step, by the numbers of the spec. -/
theorem test_gnb_step :
    let s := gnbAt [] [(Reg.GNB_DSTAT_PHASE, 0, 0, 4), (Reg.GNB_DSTAT_COUNT, 0, 0, 7), (Reg.GNB_DSTAT_CAUSE, 0, 0, 1),
      (Reg.GNB_FREQ_FREQ, 0, 0, 2 ^ 24 - 120000), (Reg.SYS_DISC_ANCHOR_LO_ANCHOR, 0, 0, 0x8EB00000),
      (Reg.SYS_DISC_ANCHOR_HI_ANCHOR, 0, 0, 0x00001BF0), (Reg.SYS_DISC_GPS_LO_GPS, 0, 0, 0x1D8C0000),
      (Reg.SYS_DISC_GPS_HI_GPS, 0, 0, 0x136DCC95)]
    let s : State := { s with gnb := { s.gnb with lastEps := -68177101 } }
    let q : Solution := ⟨BitVec.ofNat 64 (12902 * 2560000000), BitVec.ofNat 64 1400000090199998959, 0xB333, 2150, 30⟩
    let t := s.solutionAct q 0x00001E0AC98D8000
    (t.live Reg.GNB_DSTAT_PHASE, sext 24 (t.live Reg.GNB_FREQ_FREQ), sext 24 (t.live Reg.SYS_TCLK_TRIM_TRIM),
      t.gnb.step.map (fun x => (x.at_, x.gps, x.event))) =
      (2, -122150, -122150, some (0x00001E0EF5AB6808, 0x136DCCAA4D91CE00, true)) := by decide +kernel

/-- The hypotheses about the discipline: every state, each side of LOCK_TOL, JUMP and STEP, the last solution just
used up, the holdover limit, and solutions at the edges of the window of 2 s. -/
theorem test_hyp_gnb_discipline :
    let s := gnbAt [] [(Reg.GNB_DSTAT_PHASE, 0, 0, 2), (Reg.GNB_DSTAT_CAUSE, 0, 0, 2)]
    let b : Stamp := 102400000000
    let v : State := { s with time := { s.time with valid := true } }
    s.rpl.on = false ∧ s.conf Reg.SYS_DISC_STAT_SRC = 0 ∧ busPresent s.variant 0x040000DC = true ∧ s.live Reg.GNB_DSTAT_PHASE = 2 ∧
    v.reaches (s.gnb.lastSol + BitVec.ofNat 64 (s.conf Reg.GNB_DISC2_LOSS * 25600000)) = true ∧
    v.reaches (s.gnb.holdAt + BitVec.ofNat 64 (s.conf Reg.GNB_DISC_HOLD_LIM * 25600000000)) = true ∧
    s.live Reg.GNB_DSTAT_EXPIRED = 0 ∧ s.live Reg.GNB_DSTAT_ACCEPTED = 0 ∧ s.gnb.step = none ∧
    ({ s.gnb with step := some ⟨64, 5, 0, true⟩ } : Gnb).step = some ⟨64, 5, 0, true⟩ ∧
    (102400000000 : Stamp).toNat % (s.conf Reg.GNB_CFG_MPER * 25600000) = 0 ∧ ¬ 0 < sdiff b 102400000000 ∧
    ¬ 0 < sdiff 51200000000 (b - 51200000000) ∧ 0 < sdiff 48640000000 (b - 51200000000) ∧
    0 < sdiff b 104960000000 ∧ 0 < s.conf Reg.GNB_DISC_TAU ∧ s.conf Reg.GNB_DTOL_LOCK_TOL = 100 ∧
    s.conf Reg.GNB_DJUMP_JUMP = 500 ∧ s.conf Reg.GNB_DTOL_STEP = 1000 ∧ s.conf Reg.GNB_DISC2_JUMP_N = 5 ∧
    s.conf Reg.GNB_DISC_LOCK_N = 8 ∧ 0 ≤ sdiff s.anchor b ∧ sdiff s.anchor b < 2 ^ 62 := by decide

/-! ### Fusion -/

/-- Source 3 on MAC 1, UDP port 5000, in a given state with a given count of good observations. -/
def fuse (state good : Nat) (q : Source) (d : List Datagram) : State :=
  let s := conf [(Reg.FGE_SCFG_EN, 3, 0, 1), (Reg.FGE_SCFG_PORT, 3, 0, 1), (Reg.FGE_SCFG_UDP, 3, 0, 5000),
    (Reg.FGE_STIME_FPER, 3, 0, 3333), (Reg.FGE_CFG_EN, 0, 0, 1), (Reg.FGE_CFG_ODIV, 0, 0, 40)]
  let s := (s.setLive Reg.FGE_SSTAT_STATE state 3).setLive Reg.FGE_SSTAT_GOOD good 3
  { s with fge := { s.fge with ingress := d, sources := [(3, q)] } }

/-- A header of R337: VER 1, source 3, frame 7, packet 0 of `pc`, captured at 1000, a raster of 2 × 1 cells of one
channel of 16 mm, at offset 0. -/
def header (pc prev len : Nat) : List Byte :=
  [1, 1, 3, 0, 7, 0, 0, 0, 0, 0, BitVec.ofNat 8 pc, 0, 0xE8, 3, 0, 0, 0, 0, 0, 0, BitVec.ofNat 8 prev, 0, 0, 0, 0, 0, 0, 0,
    2, 0, 1, 0, 1, 4, 0, 0, 0, 0, 0, 0, BitVec.ofNat 8 len, 0, 0, 0, 0, 0, 0, 0]

/-- The hypotheses about datagrams: one that completes a frame of a locked source, one of two packets, one whose
bytes leave the raster, and one that carries an observation, with each state of the model. -/
theorem test_hyp_fusion_datagrams :
    let dg := fun (b : List Byte) => (⟨1, 5000, 64, b⟩ : Datagram)
    let d := dg (header 1 0 2 ++ [5, 6])
    let s := fuse 1 8 { Source.fresh with ingress := [(6, 64)] } [d]
    let h := fun (at_ n : Nat) => leAt d.bytes at_ n
    s.fge.ingress = [d] ∧ s.sourceOf d.mac d.udp = some 3 ∧ s.sourceOf 0 5000 = none ∧ 48 ≤ d.bytes.length ∧ h 0 1 = 1 ∧
    h 8 2 = 0 ∧ h 20 8 = 0 ∧ (s.source 3).partials = [] ∧ h 10 2 = 1 ∧ h 28 2 = 2 ∧ h 36 4 + h 40 2 ≤ 2 ∧
    (s.source 3).ingress = [(BitVec.ofNat 32 (h 4 4) - 1, 64)] ∧ leAt (header 1 9 2) 20 8 = (9 : Stamp).toNat ∧
    leAt (header 2 0 2) 10 2 = 2 ∧ ¬ leAt (header 1 0 3) 36 4 + leAt (header 1 0 3) 40 2 ≤ 2 ∧
    BitVec.ofNat 32 (h 4 4) ∉ (s.source 3).ended ∧
    BitVec.ofNat 32 (h 4 4) ∈ (((s.source 3).endFrame 7).ended) ∧ s.live Reg.FGE_SSTAT_STATE 3 = 1 ∧ (fuse 2 7 Source.fresh []).live Reg.FGE_SSTAT_GOOD 3 = 7 ∧
    d.bytes.length = 48 + 2 := by decide

/-- The hypotheses about outputs, tracks and disputes. -/
theorem test_hyp_fusion_outputs :
    let f : Frame := ⟨3, 7, 2, 1000, 2, 1, 1, 4, [], [0], [], 64, 0⟩
    let s := ((fuse 1 8 { Source.fresh with partials := [f] } []).setLive Reg.PLE_POSE_CTL_VALID 1).setLive
      Reg.SYS_PWRSTAT_CUR 0
    let o : FOut := ⟨1, 0, 1, false, 0, 0, 0, 0, none, false, false, [], 0, false, false, false, [], []⟩
    let t : State := { s with fge := { s.fge with out := some o } }
    (s.source 3).partials = [f] ∧ t.fge.out = some o ∧ o.due = t.row.num + 1 ∧ o.ended = false ∧
    { t with row := { t.row with num := 1 } }.row.num = o.due ∧ busPresent s.variant 0x0500014C = true ∧
    s.fge.cmds.length < 4 ∧ s.fge.out = none ∧ s.power.bind = .none ∧ s.live Reg.SYS_PWRSTAT_CUR ≤ 2 ∧
    s.conf Reg.FGE_CFG_EN = 1 ∧ 0 < s.conf Reg.FGE_CFG_ODIV ∧
    s.row.num.toNat % s.conf Reg.FGE_CFG_ODIV = s.conf Reg.FGE_OCFG_OPH ∧
    bitOf ((s.setLive Reg.DSP_ASSERT_Q 2).live Reg.DSP_ASSERT_Q) 1 = true ∧ s.conf Reg.DSP_CFG_LIMIT 1 ≠ 0 := by decide

/-- In a replay with nothing left in its record no output is late and nothing comes first; with a LATE_ENGINE entry of
source 57 and the next row one is. -/
theorem test_hyp_fusion_replay :
    let s := fuse 1 8 Source.fresh []
    let r : State := { s with rpl := { s.rpl with on := true } }
    let l := conf [(Reg.DXC_RING_CFG_LOG2N, 0, 0, 12)]
    let late := { l with rpl := { l.rpl with on := true }, fab := { l.fab with dram := [(8, 1), (12, 57), (15, 6)] } }.setLive
      Reg.DXC_RING_WR_WR 1
    0 < late.lateCount 57 (late.row.num + 1) ∧ late.recordFirst (late.row.next - 25600) = false ∧
    late.conf Reg.DXC_RING_CFG_EN 0 = 0 ∧
    r.recordFirst (r.row.next - 25600) = false ∧ ¬ 0 < r.lateCount 57 (r.row.num + 1) ∧
    s.recordFirst (s.row.next - 25600) = false ∧ s.rpl.on = false := by decide

/-- The eighth consistent observation locks the source; a frame of a source that is not locked is not admitted, one
of a locked source awaits its admission. -/
theorem test_fusion_lock :
    (match exec .fusionDatagram (fuse 2 7 { Source.fresh with ingress := [(6, 250)] } [⟨1, 5000, 640, header 2 100 2⟩]) with
      | .next t => [t.live Reg.FGE_SSTAT_STATE 3, t.live Reg.FGE_SSTAT_GOOD 3, (t.source 3).partials.length]
      | _ => []) = [1, 8, 1] ∧
    [0, 1].map (fun st => match exec .fusionDatagram (fuse st 8 Source.fresh [⟨1, 5000, 64, header 1 0 2 ++ [5, 6]⟩]) with
      | .next t => t.inp.done.length | _ => 9) = [0, 1] := by decide +kernel

/-- A CONV1 value by hand: 300 × 3 × 2⁻² = 225, clamped to 127; −7 with ReLU is 0; 5 × 1 × 2⁻¹ rounds away to 3. -/
theorem test_head_value :
    let y := fun (r : Bool) (m sh : Nat) => (⟨1, r, 0, 1, 64, 1, sh, m, 0⟩ : HeadLayer)
    ((y false 3 2).value 300, (y true 1 0).value (-7), (y false 1 1).value 5, (y false 1 0).value (2 ^ 31)) =
      ((127, false), (0, false), (3, false), (127, true)) := by decide

/-! ### CAN -/

/-- Controller 3 enabled for CAN FD, with buffer words and its runtime state. -/
def canAt (q : Can) (ws : List (Nat × List Byte)) : State :=
  let s := conf [(Reg.CAN_CCFG_EN, 3, 0, 1), (Reg.CAN_CCFG_FDEN, 3, 0, 1)]
  { ws.foldl (fun (s : State) w => s.setWin w.1 w.2) (s.setLive Reg.CAN_ESTAT_STATE 0 3) with cans := [(3, q)] }

/-- CTRL of a base-format data frame with 8 bytes, and identifier 0x123. -/
def buf (b : Nat) (b2 len : Byte) : Nat × List Byte :=
  (0x06033000 + 96 * b, [0, 0, b2, len, 0x23, 1, 0, 0])

/-- The hypotheses about requests, attempts and aborts: a running controller, an idle, a pending and a busy buffer,
valid and invalid content, two pending buffers, an attempt, and an abort on each side of the first sample point. -/
theorem test_hyp_can_requests :
    let s := canAt Can.fresh [buf 31 0 8]
    let t := canAt { Can.fresh with pend := [31], active := some (31, 0) } [buf 31 0 8, buf 5 0 8]
    let w := s.winWord (0x06030000 + 0x1000 * 3 + 96 * 31)
    let brp := 320 * (t.canConf 3 Reg.CAN_NBT_BRP_M1 + 1)
    let one := 1 + (t.canConf 3 Reg.CAN_NBT_TSEG1_M1 + 1)
    let sample : Stamp := 0 + BitVec.ofNat 64 (brp * (one + (t.canConf 3 Reg.CAN_NBT_TSEG2_M1 + 1)) + brp * one)
    s.conf Reg.CAN_CCFG_EN 3 = 1 ∧ (s.can 3).hold = none ∧ (s.can 3).integrating = false ∧
    s.live Reg.CAN_ESTAT_STATE 3 = 0 ∧ s.canConf 3 Reg.CAN_CCFG_MODE ≠ 1 ∧ s.live Reg.CAN_ESTAT_TEC 3 = 0 ∧ s.kwQueue 3 = [] ∧
    busPresent s.variant 0x06003028 = true ∧ busPresent s.variant 0x0600302C = true ∧
    w / 2 ^ 24 % 2 ^ 7 = 8 ∧ w / 2 ^ 18 % 2 = 0 ∧ (s.can 3).pend = [] ∧ (s.can 3).busy = [] ∧
    (canAt Can.fresh [buf 31 0 9]).winWord (0x06030000 + 0x1000 * 3 + 96 * 31) / 2 ^ 24 % 2 ^ 7 = 9 ∧
    (t.can 3).pend = [31] ∧ (t.can 3).active = some (31, 0) ∧ cycle t.now < cycle sample ∧
    (canAt { Can.fresh with pend := [31, 5] } []).can 3 = { Can.fresh with pend := [31, 5] } ∧
    ({ Can.fresh with busy := [(31, 7)] } : Can).busy = [(31, 7)] ∧
    cycle sample ≤ cycle { t with time := { t.time with dt := sample } }.now := by decide

/-- The hypotheses about errors, recovery, settings and integration. -/
theorem test_hyp_can_states :
    let s := canAt { Can.fresh with hold := some [], integrating := true } []
    s.canConf 3 Reg.CAN_CCFG_AUTOREC = 0 ∧ s.kwQueue 3 = [] ∧ (s.can 3).active = none ∧ (s.can 3).hold ≠ none ∧
    (s.can 3).integrating = true ∧ (s.setLive Reg.CAN_ESTAT_STATE 3 3).live Reg.CAN_ESTAT_STATE 3 = 3 ∧
    (s.setLive Reg.CAN_ESTAT_STATE 4 3).live Reg.CAN_ESTAT_STATE 3 = 4 ∧ busPresent s.variant 0x06003014 = true ∧
    busPresent s.variant 0x06003020 = true ∧ s.canConf 3 Reg.CAN_EWARN_TEC_W = 96 ∧ s.live Reg.CAN_ESTAT_TEC 3 ≤ 255 ∧
    s.live Reg.CAN_ESTAT_REC 3 ≤ 255 ∧ (conf [(Reg.CAN_CCFG_MODE, 3, 0, 2)]).canConf 3 Reg.CAN_CCFG_MODE = 2 := by decide

/-- A sent FD frame of a passive controller: its record has TX, ESI, the buffer, the status 3 and the data, and TEC
falls by 1. -/
theorem test_can_sent :
    let s := (canAt { Can.fresh with pend := [31], active := some (31, 640), passive := true }
      [buf 31 4 1, (0x06033000 + 96 * 31 + 32, [0xAB])]).setLive Reg.CAN_ESTAT_TEC 7 3
    (match exec (.canTxEnd 3 .sent) s with
      | .next t => [t.winWord 0x06028000, t.winWord 0x06028004, t.winWord 0x06028008, t.winWord 0x06028010,
          t.winWord 0x06028020, t.live Reg.CAN_TXST_ST 3 31, t.inp.pend.length, (t.can 3).pend.length,
          t.live Reg.CAN_ESTAT_TEC 3]
      | _ => []) = [0x01950000, 0x123, 640, 31 + 3 * 256, 0xAB, 3, 1, 0, 6] := by decide +kernel

/-- A dominant bit after the receiver's error flag takes REC from 120 to 128: PASSIVE, with its STATUS record; the
next error changes the state no more. -/
theorem test_can_passive :
    let s := ((canAt Can.fresh []).setLive Reg.CAN_ESTAT_REC 120 3).setLive Reg.CAN_ESTAT_TEC 5 3
    (match exec (.canError 3 .receiver true) s with
      | .next t => (match exec (.canError 3 .receiver false) t with
        | .next u => [t.live Reg.CAN_ESTAT_STATE 3, t.winWord 0x06028000, t.winWord 0x06028010, u.live Reg.CAN_RXWR_WR 3,
            u.live Reg.CAN_ESTAT_REC 3]
        | _ => [])
      | _ => []) = [2, 0x80010000, 2 + 5 * 256 + 128 * 2 ^ 24, 1, 129] := by decide +kernel

/-! ### Ethernet and Kwaros -/

/-- MAC 1 enabled with its grandmaster and Pdelay, its own address 02-00-00-00-00-07, SYNC every 10 ms on every port,
in a given state. -/
def ethAt (q : Eth) : State :=
  let s := conf ([(Reg.ETH_MACCFG_EN, 1, 0, 1), (Reg.ETH_MACCFG_MAXAGE, 1, 0, 10), (Reg.ETH_MACADDR_LO_ADDR, 1, 0, 2),
    (Reg.ETH_MACADDR_HI_ADDR, 1, 0, 0x700), (Reg.ETH_PTPCFG_GM_EN, 1, 0, 1), (Reg.ETH_PTPCFG_PDELAY_EN, 1, 0, 1)] ++
    (List.range 6).map (fun i => (Reg.KW_SYNC_PERIOD, i, 0, 10)))
  { s with eths := [(1, q)] }

/-- A frame to that address with the given bytes from the EtherType on. -/
def frame (l : List Byte) : EthFrame := ⟨true, [2, 0, 0, 0, 0, 7, 2, 0, 0, 0, 0, 1] ++ l⟩

/-- The hypotheses about frames: plain, tagged, twice tagged, of PTP, of IPv4 with a bad checksum; not for this MAC;
slots free, busy, of valid and invalid length. -/
theorem test_hyp_eth_frames :
    let s := ethAt Eth.fresh
    let own := bytesLE 4 (s.conf Reg.ETH_MACADDR_LO_ADDR 1) ++ bytesLE 2 (s.conf Reg.ETH_MACADDR_HI_ADDR 1)
    let pd := ethInfo (frame [0x88, 0xF7, 0x12]).bytes
    s.conf Reg.ETH_MACCFG_EN 1 = 1 ∧ (frame []).bytes.take 6 = own ∧ (frame [0x86, 0xDD]).bytes.length ≤ 1518 ∧
    (ethInfo (frame [0x86, 0xDD]).bytes).etype = 0x86DD ∧
    (ethInfo (frame [0x81, 0, 0x60, 5, 8, 6]).bytes) = ⟨true, false, 5, 3, 0x806, (frame [8, 6]).bytes⟩ ∧
    beAt (frame [0x81, 0, 0, 0, 0x81, 0]).bytes 12 2 = 0x8100 ∧ beAt (frame [0x81, 0, 0, 0, 0x81, 0]).bytes 16 2 = 0x8100 ∧
    pd.etype = 0x88F7 ∧ beAt pd.body 14 1 % 16 = 2 ∧ s.conf Reg.ETH_PTPCFG_PDELAY_EN 1 = 1 ∧
    ipBad (frame [8, 0, 0x45]).bytes = true ∧ (frame []).bytes.take 6 ≠ List.replicate 6 0xFF ∧
    s.conf Reg.ETH_MACCFG_MCAST 1 = 0 ∧ busPresent s.variant 0x06101028 = true ∧
    busPresent s.variant 0x06101024 = true ∧ busPresent s.variant 0x06101040 = true ∧ (s.eth 1).pend = [] ∧
    (s.setWin (0x06140000 + 0x8000 + 2048 * 15) [0xEE, 5]).winWord (0x06140000 + 0x8000 * 1 + 2048 * 15) % 2 ^ 11 = 1518 ∧
    s.winWord (0x06140000 + 0x8000 * 1 + 2048 * 15) % 2 ^ 11 < 14 ∧ ((ethAt { Eth.fresh with pend := [15] }).eth 1).pend = [15] ∧
    s.kwQueue 5 = [] ∧ (s.eth 1).active = none ∧ s.conf Reg.ETH_MACCFG_SPEED 1 < 4 ∧
    ((ethAt { Eth.fresh with active := some 15 }).eth 1).active = some 15 := by decide

/-- A frame of 20 bytes in slot 15: sent, it is padded to 60 bytes, its request ends in a TX record, and the slot that
waits goes next. -/
theorem test_eth_sent :
    let s := (ethAt { Eth.fresh with pend := [15, 2], active := some 15 }).setWin (0x06148000 + 2048 * 15)
      [20, 0, 0, 0, 0, 0, 0, 0, 0, 0, 0, 0, 0, 0, 0, 0, 0xAB]
    (match exec (.ethTxEnd 1 640) s with
      | .next t => [t.live Reg.ETH_TXST_ST 1 15, t.live Reg.ETH_TXST_ST 1 2, (t.eth 1).wire.length,
          beAt (t.eth 1).wire 0 1, t.live Reg.ETH_RXWR_WR 1, (t.eth 1).active.getD 99]
      | _ => []) = [3, 2, 60, 0xAB, 1, 2] := by decide +kernel

/-- A Kwaros frame of 40 bytes from a MAC goes as IPv4 UDP to the neighbour with its address. -/
theorem test_eth_kwaros :
    let f : KwFrame := ⟨0, 2, 2, 7, some 0x0500000A, 0x3039, List.replicate 40 0xEE⟩
    let s := (ethAt Eth.fresh).setKwQueue 5 [f]
    let s := { s with skn := { s.skn with act := { s.skn.act with words := [(0x06108010 / 4, 0x0A000005),
      (0x06108014 / 4, 0x44332211), (0x06108018 / 4, 0x80006655)] } } }
    (match exec (.ethTxEnd 1 640) s with
      | .next t => let z := (t.eth 1).wire
          [beAt z 0 6, beAt z 12 2, beAt z 16 2, beAt z 20 4, beAt z 30 4, beAt z 36 2, beAt z 42 1, z.length]
      | _ => []) =
      [0x112233445566, 0x800, 68, 0x40004011, 0x0A000005, 0x3039, 0xEE, 82] := by decide +kernel

/-- The datagram of an enabled source reaches fusion: IPv4 with a good checksum, UDP without one. -/
theorem test_hyp_eth_fusion :
    let s := fuse 1 8 Source.fresh []
    let b := (frame [8, 0, 0x45, 0, 0, 30, 0, 0, 0x40, 0, 64, 17, 0x3A, 0xCF, 0, 0, 0, 1, 255, 255, 255, 255, 0, 1, 0x13, 0x88,
      0, 10, 0, 0, 7, 9]).bytes
    ipBad b = false ∧ s.ethFusion 1 b = some (5000, [7, 9]) := by decide

/-- The hypotheses about PTP, management and Kwaros. -/
theorem test_hyp_eth_ptp :
    let s := ethAt { Eth.fresh with reqs := [(64, [])], mdio := some 3 }
    let k : State := { s with kw := { s.kw with syncWait := [(5, some (7, 640))] } }
    s.conf Reg.ETH_PTPCFG_GM_EN 1 = 1 ∧ { s.row with started := true }.started = true ∧
    s.live Reg.SYS_DISC_STAT_STATE = 0 ∧ (s.setLive Reg.SYS_DISC_STAT_STATE 2).live Reg.SYS_DISC_STAT_STATE = 2 ∧
    (s.eth 1).reqs = (64, []) :: [] ∧ (s.eth 1).mdio = some 3 ∧ s.live Reg.ETH_MDIO_DATA_BUSY 1 = 0 ∧
    (s.setLive Reg.ETH_MDIO_DATA_BUSY 1 1).live Reg.ETH_MDIO_DATA_BUSY 1 ≠ 0 ∧ s.conf Reg.KW_SYNC_PERIOD 5 ≠ 0 ∧
    Tab.get none k.kw.syncWait 5 = some (7, 640) ∧ (s.kwQueue 5).length < 64 ∧
    64 ≤ ((s.setKwQueue 5 (List.replicate 64 ⟨0, 3, 2, 0, none, 0, []⟩)).kwQueue 5).length := by decide

/-- The hypotheses about the grandmaster: a Sync is due on its grid, none is before the next multiple, and a frame in
progress makes it wait. -/
theorem test_hyp_eth_sync :
    let s := ethAt { Eth.fresh with reqs := [(64, [])], pend := [3] }
    let g : State := { s with row := { s.row with started := true } }.setLive Reg.SYS_DISC_STAT_STATE 2
    let due := fun (f u : Stamp) => g.row.started && decide (g.conf Reg.ETH_PTPCFG_GM_EN 1 = 1) &&
      decide (g.live Reg.SYS_DISC_STAT_STATE = 1 ∨ g.live Reg.SYS_DISC_STAT_STATE = 2) && sAtOrBefore f (floorTo (25600000000 / 2 ^ (16 - 13)) u)
    g.conf Reg.ETH_PTPCFG_LOGSYNC 1 = 13 ∧ due (g.eth 1).syncFrom (sMax g.now 1) = true ∧
    due 1 3199999999 = false ∧ due 1 3200000000 = true ∧ (g.eth 1).active = none ∧ (g.eth 1).reqs = (64, []) :: [] ∧
    ((ethAt { Eth.fresh with active := some 3 }).eth 1).active ≠ none := by decide

/-- A Sync at its grid point: the next one has its own, the identity goes with it, and the Kwaros frame that waited
starts after it. -/
theorem test_eth_sync :
    let s := (ethAt Eth.fresh).setKwQueue 5 [⟨0, 2, 2, 7, some 0x0500000A, 0x3039, []⟩]
    let g : State := { s with row := { s.row with started := true } }.setLive Reg.SYS_DISC_STAT_STATE 2
    (match exec (.ptpSync 1 640) g with
      | .next t => [(t.eth 1).syncFrom.toNat, (t.eth 1).sent.length, ((t.eth 1).sent.map (fun m => m.port)).sum,
          (t.eth 1).active.getD 99]
      | _ => []) = [1, 2, 4, 16] := by decide +kernel

/-- A frame for another station, and a frame with a bad FCS, are dropped with their own counts. -/
theorem test_eth_drops :
    [(⟨true, List.replicate 60 2⟩ : EthFrame), ⟨false, (frame []).bytes⟩].map (fun f =>
      match exec (.ethFrameReceive 1 640 704 f) (ethAt Eth.fresh) with
      | .next t => (t.live Reg.ETH_CNT_DROP_FILTER 1, t.live Reg.ETH_CNT_DROP_ERR 1, t.inp.pend.length)
      | _ => (9, 9, 9)) = [(1, 0, 0), (0, 1, 0)] := by decide +kernel

/-- The first multiple of 10 ms from 1 ns on: a SYNC frame with its header of R164. -/
theorem test_kwaros_sync :
    (match exec (.kwarosSync 2) { ethAt Eth.fresh with time := { running.time with valid := true, dt := 26 } } with
      | .next t => (t.now.toNat, (t.kwQueue 2).map (fun f => (f.bytes.take 8, f.prio)), t.live Reg.CAN_KWST_QUEUED 2)
      | _ => (0, [], 9)) = (256000000, [([1, 3, 0, 0, 0xFF, 0x80, 1, 0], 2)], 1) := by decide +kernel

/-! ### Placement and the edge queue -/

/-- A root, and leaf 1 under it, bound to an endpoint, with leads of 100 and 50 TCLK counts, LEAD_MAX 2 ms and a fail
value; in force at rest, with a queue and a pass. -/
def planted (ep fail : Nat) (queue : Tab QEntry) (pass : Option Pass) : State :=
  let s := conf [(Reg.PLE_CFG_EN, 0, 0, 1), (Reg.PLE_TAIL_ON_TAIL, 4, 0, 3)]
  { s with
    time := { s.time with valid := true }
    row := ⟨6, 6400000, 0, 12800000, 1, true⟩
    skn := { s.skn with act := { s.skn.act with nodes := [(0, 0x0101FFFF), (6, 0x100), (16, 0x03000000),
      (21, BitVec.ofNat 32 ep), (22, 100), (23, 50), (24, 0x20000), (26, BitVec.ofNat 32 (fail * 2 ^ 16))] } }
    ple := { s.ple with queue := queue, pass := pass } }

/-- An edge of leaf 1 in a given state: on at rate 7, issued at 6,464,000 for 6,528,000. -/
def edge (st : QState) (ep : W32) : QEntry :=
  { QEntry.free with st := st, endpoint := ep, node := 1, value := 0x800007, issue := 6464000, target := 6528000 }

/-- The hypotheses about issue, landing and resolution: every endpoint type, a unit write pending and none. -/
theorem test_hyp_ple_edges :
    ([(QState.spec, (7 : W32)), (.held, 0x10000007), (.committed, 0x20000003), (.landed, 0x30000001), (.spec, 0x30000001),
        (.spec, 0x40000002)].all (fun x =>
      let s := planted x.2.toNat 0 [(5, edge x.1 x.2)] (some ⟨6400000, [(0, 0, false)], [], 0, 0, 0, 0⟩)
      let q := s.entry 5
      Tab.wf QEntry.free s.ple.queue && decide (q.st = x.1) && !q.resolved && !q.nofb && !q.out &&
        decide (q.issue.toNat % 64 = 0) && decide ((s.node 1).kind = 3) && !s.unitPending 1 q.issue)) = true := by decide +kernel

/-- An edge that is withheld, an open channel, a bank that is not ready, a queue with room, no old actuators. -/
theorem test_hyp_ple_withheld :
    let s := planted 0x40000002 0 [(5, edge .spec 0x40000002)] (some ⟨6400000, [(1, 0, false)], [], 0, 0, 0, 0⟩)
    let x : Nat × Nat × Bool := (1, 0, false)
    x.1 = (s.entry 5).node ∧ x.2.2 = (s.node 1).composing ∧
    0 < sdiff ((6400000 : Stamp) + BitVec.ofNat 64 (64 * (400 + ((0 + 1) * 512 + 2) / 3))) (floorTo 64 (s.entry 5).issue) ∧
    (s.chCfg 7).free = false ∧ (s.chCfg 7).gmode ≠ 2 ∧ (s.live Reg.SYS_PWRSTAT_BANK_READY).testBit 1 = false ∧
    (s.kwQueue 0).length < 16 ∧ s.ple.nodes = [] := by decide +kernel

/-- An edge of the cycle of its node's N_w is committed and waits for the unit write; what else is settled before the
deadline and before F: entries that are out, or due later; none for a direct edge. -/
theorem test_hyp_ple_cycle :
    let q : QEntry := { edge .spec 0x40000002 with issue := 6436544 }
    let s := planted 0x40000002 0 [(5, q)] (some ⟨6400000, [(1, 0, false)], [], 0, 0, 0, 0⟩)
    let nw : Stamp := 6400000 + BitVec.ofNat 64 (64 * (400 + ((0 + 1) * 512 + 2) / 3))
    nw.toNat / 64 = q.issue.toNat / 64 ∧ ¬ 0 < sdiff nw (floorTo 64 q.issue) ∧ s.ple.direct = [] ∧
    0 < sdiff (s.row.cur + 25600) (floorTo 64 (s.entry 5).issue) ∧
    ({ q with st := .committed, out := true } : QEntry).out = true ∧
    0 < sdiff (s.row.next - 25600) (floorTo 64 ({ q with st := .committed, issue := 12800000 } : QEntry).issue) ∧
    (match exec (.edgeIssue 5) s with
      | .next t => ((t.entry 5).st, (t.entry 5).out, (t.core 2).callbacks.length) | _ => (.free, true, 9)) =
      (.committed, false, 0) := by decide +kernel

/-- The hypotheses about the pose, the pass and the dwell. -/
theorem test_hyp_ple_pass :
    let p := fun (l : List (Nat × Nat × Bool)) => planted 0x40000002 2 [(5, edge .held 0x40000002)] (some ⟨6400000, l, [1], 4, 2, 0, 0⟩)
    let s := p [(0, 0, false), (1, 1, false)]
    let d := ((s.setLive Reg.PLE_MOTION_STATE 1).setLive Reg.PLE_POSE_T_LO_T 0xFFFFFFFF).setLive Reg.PLE_POSE_T_HI_T 9
    let f := s.setNodeRt 1 { NodeRt.fresh with status := 4 }
    let n : State := { d with ple := { d.ple with nodes := [(1, { NodeRt.fresh with cmd := true })], queue := [] } }
    busPresent s.variant 0x02000120 = true ∧ busPresent s.variant 0x02000384 = true ∧ s.conf Reg.DXC_RING_CFG_EN 0 = 0 ∧
    (0 : Nat) < 2 ^ 32 ∧ (∀ x ∈ [((1 : Nat), (1 : Nat), false)], 0 ≤ x.2.1) ∧
    0 < sdiff ((6400000 : Stamp) + BitVec.ofNat 64 (64 * (400 + ((0 + 1) * 512 + 2) / 3))) (s.row.next - 25600) ∧
    (s.node 0).kind = 1 ∧ (s.node 0).tsrc ≠ 4 ∧ (f.node 1).kind = 3 ∧ (f.nodeRt 1).status.getLsbD 2 = true ∧
    (f.node 1).composing = false ∧ s.defined = [0, 1] ∧ s.defined.Pairwise (· < ·) ∧ (s.entry 5).st = .held ∧ s.ple.queue = [(5, s.entry 5)] ∧
    d.live Reg.PLE_MOTION_STATE = 1 ∧ d.live Reg.PLE_POSE_CTL_STALE = 0 ∧
    ((d.conf Reg.PLE_STOP_DWELL * 256000000 : Nat) : Int) ≤ sdiff d.ple.dwell d.pose.t ∧
    (d.node 1).actuated = true ∧ (d.committedLine 1).on (d.row.cur + 25600) = false ∧ (d.nodeRt 1).status.getLsbD 2 = false ∧
    (n.committedLine 1).on (n.row.cur + 25600) = true ∧ n.ple.queue.length < 32768 ∧ (n.node 1).endpoint / 2 ^ 28 ≠ 3 ∧
    n.lastTarget 1 = none := by decide +kernel

/-- The verdicts of R199, on lists of two and three edges. -/
theorem test_verdicts :
    let a : Stamp × BitVec 24 := (1, 0); let b : Stamp × BitVec 24 := (2, 5); let c : Stamp × BitVec 24 := (3, 0)
    [verdict [a, b] [a, b], verdict [a, b] [a, b, c], verdict [a, b] [a, c], verdict [a, b] [a], verdict [a, b] [c],
      verdict [] [a], verdict [a] []] =
      [(.confirm, 2), (.extend, 2), (.tink, 1), (.tink, 1), (.frog, 0), (.extend, 0), (.tink, 0)] := by decide

/-- An edge to a callback: it is committed, its record waits for the core, and it is resolved 100 counts after ISSUE. -/
theorem test_edge_issue :
    (match exec (.edgeIssue 5) (planted 0x40000002 0 [(5, edge .spec 0x40000002)] none) with
      | .next t => [(t.entry 5).actual, t.now, BitVec.ofNat 64 (t.entry 5).cfgLead] ++ (t.nodeRt 1).ground.map Prod.fst ++
          (t.core 2).callbacks.map Prod.fst
      | _ => []) = [6470400, 6464000, 100, 6470400 + 7680000, 6464000] := by decide +kernel

/-- An edge of channel 7 opens its gate; one of slice 7 waits for its bank. -/
theorem test_edge_endpoints :
    ([(7 : W32), 0x10000007].map (fun ep => match exec (.edgeIssue 5) (planted ep.toNat 0 [(5, edge .spec ep)] none) with
      | .next t => (t.live Reg.ETU_CHSTAT_GATE 7, t.live Reg.ETU_CHSTAT_RATE 7, t.dsl.waiting.map (fun w => (w.slice, w.on, w.entry)))
      | _ => (9, 9, []))) = [(1, 7, []), (0, 0, [(7, true, 5)])] := by decide +kernel

/-- A deadline with node 1 not evaluated: it is carried, 1 us before the boundary. -/
theorem test_pass_deadline :
    (match exec .passDeadline (planted 7 0 [] (some ⟨6400000, [(1, 0, false)], [], 1, 1, 0, 0⟩)) with
      | .next t => (t.ple.carry, t.now) | _ => ([], 0)) = ([1], 12774400) := by decide +kernel

/-- Leaf 1 ends in wave 1, 47,488 sub-ticks after the boundary: CARRIED, and the row number's low byte. -/
theorem test_evaluation_ends :
    (match exec (.nodeEvaluationEnd 1 0) (planted 7 0 [] (some ⟨6400000, [(1, 1, false)], [1], 1, 1, 0, 0⟩)) with
      | .next t => [t.now.toNat, (t.nodeRt 1).lastRow.toNat, (t.nodeRt 1).status.toNat] | _ => []) = [6447488, 6, 32] := by
  decide +kernel

/-- The dwell is over: the node that is on gets its OFF edge, due 50 counts after F, in entry 0. -/
theorem test_dwell :
    (match exec .dwellExpiry (((((planted 7 0 [] none).setLive Reg.PLE_MOTION_STATE 1).setLive Reg.PLE_POSE_T_LO_T
        0xFFFFFFFF).setLive Reg.PLE_POSE_T_HI_T 9).setNodeRt 1 { NodeRt.fresh with cmd := true }) with
      | .next t => [t.now.toNat, t.live Reg.PLE_MOTION_STATE, (t.entry 0).target.toNat, (t.entry 0).issue.toNat, (t.entry 0).node]
      | _ => []) = [6425600, 2, 6428800, 6425600, 1] := by decide +kernel

/-! ### Tiles, trailing writes, transfers and replay -/

/-- Coverage layer 0 enabled with one tile, its directory at 4 KiB, in force. -/
def tiled : State := conf [(Reg.FAB_LCFG_EN, 0, 0, 1), (Reg.FAB_LDIR_LDIR, 0, 0, 1)]

/-- The hypotheses about swaps, copies, the trailing write and transfers. -/
theorem test_hyp_tiles :
    let s := tiled
    let m : Move := ⟨3, true, 64, 0x10000, 64, [1, 2], 2⟩
    let x : Trail := ⟨0, 0, 640, false⟩
    let y : Swap := ⟨256, 0, 0, 0, 0, 0x80000005⟩
    let c : State := { s with
      fab := { s.fab with copy := some (0, 0, 0, 4096), copyRes := some (1, false), trail := some x }
      power := { s.power with bind := .edges }
      row := { s.row with cur := 640 }
      cores := [(2, { Core.fresh with moves := [m] })] }
    busPresent s.variant 0x02000508 = true ∧ busPresent s.variant 0x02000518 = true ∧ busPresent s.variant 0x00180060 = true ∧
    s.fab.hostSwaps.length < 4 ∧ ¬ [y, y, y, y].length < 4 ∧ s.power.bind ≠ .linger ∧ s.power.bind ≠ .parkNext ∧ c.fab.trailOld = none ∧
    (y.layer < 12 ∧ (s.layer y.layer).en = true ∧ y.col < (s.layer y.layer).cols ∧ y.row < (s.layer y.layer).rows ∧ y.mode < 3 ∧ y.mode ≠ 1) ∧
    ¬ (y.col + 1 < (s.layer y.layer).cols) ∧ s.fab.copy = none ∧ c.fab.copy = some (0, 0, 0, 4096) ∧
    c.fab.copyRes = some (1, false) ∧ c.fab.trail = some x ∧ c.power.bind = .edges ∧
    0 < sdiff c.power.lastTarget c.row.cur ∧ (c.core 2).moves = [m] ∧ m.index = 3 ∧ m.stat = 2 ∧ (∃ a ∈ (c.core 2).moves, a.index < 4 ∧ a.stat = 2) ∧
    ({ c with fab := { c.fab with trailOld := some x } } : State).fab.trailOld = some x ∧ s.conf Reg.FAB_CFG_AUTO = 0 ∧ s.conf Reg.PLE_TRAIL_EN = 1 ∧
    c.fab.spoiled = [] ∧ c.inSlots 65 = false ∧ c.installed 65 = false ∧ c.shielded 65 = false ∧
    s.inLayer 0 4096 = true := by decide +kernel

/-- A copy stands with its result taken; the write-back ends; a transfer comes after the earlier one. -/
theorem test_copy_and_transfer :
    let a : Move := ⟨0, true, 64, 0x10000, 64, [7, 8], 2⟩
    let b : Move := ⟨1, false, 64, 0x10000, 64, [], 2⟩
    let s : State := { running with cores := [(2, { Core.fresh with moves := [a, b] })] }
    (match exec (.xferComplete 2 1) s with | .next t => (t.core 2).moves.map (fun m => m.stat) | _ => []) = [2, 2] ∧
    (match exec (.xferComplete 2 0) s with
      | .next t => ((t.core 2).moves.map (fun m => m.stat), t.dramBytes 64 3) | _ => ([], [])) = ([1, 2], [7, 8, 0]) := by decide +kernel

/-- A REPLACE at a boundary writes the directory entry, which the probes of that row do not see yet. -/
theorem test_swap_applies :
    (let t := tiled.applySwap ⟨256, 0, 0, 0, 0, 0x80000005⟩
     (leNat (t.dramBytes 4096 4), t.probeNat 4096 4, t.live Reg.FAB_SWAP_STAT_APPLIED)) = (0x80000005, 0, 1) := by decide +kernel

/-- The write-back leaves every line clean; a swap in the row of the parking is discarded. -/
theorem test_write_back :
    let s : State := { tiled with power := { tiled.power with bind := .writeBack }
                                  fab := { tiled.fab with cache := [⟨1, [(4097, some 3)]⟩] } }
    (match exec .tileWritebackDone s with
      | .next t => (t.power.bind, t.fab.cache, (t.applySwap ⟨256, 0, 0, 0, 0, 0⟩).live Reg.FAB_SWAP_STAT_APPLIED)
      | _ => (.none, [], 9)) = (.parkNext, [⟨1, []⟩], 0) := by decide +kernel

/-- A trailing write with no writer takes node 1 of the tree to its end and ends; one that is late raises event 19. -/
theorem test_trailing_write :
    let s := planted 0x40000002 0 [] none
    let s : State := { s with fab := { s.fab with trail := some ⟨6, 64, 6400000, false⟩ } }
    (match exec .trailingWriteEnd s with | .next t => ((t.nodeRt 1).coverTo, t.fab.trail.isSome) | _ => (none, true)) =
      (some 6400000, false) ∧
    (match exec .trailDeadline s with
      | .next t => [t.live Reg.FAB_STAT_TRAIL_LATE, t.live Reg.EVT_CNT_CNT 19, t.now.toNat] | _ => []) = [1, 1, 12774400] := by
  decide +kernel

/-- GO with ARM holds a stopped replay in STARTING; LOADED there casts on from step 6. -/
theorem test_replay_go :
    let s : State := { running with power := { running.power with phase := .replayEnded } }
    ({ running with power := { running.power with phase := .failed }, time := { running.time with valid := true } }.setLive
      Reg.SYS_BOOTSTAT_FAIL 5).live Reg.SYS_BOOTSTAT_FAIL = 5 ∧
    (match exec (.replayGo .hpa true true) s with
      | .next t => (t.power.phase, t.live Reg.DXC_RPL_STAT_STATE, t.live Reg.DXC_RPL_CTL_FINAL, t.rpl.on) | _ => (.held, 9, 9, false)) =
      (.replayHold, 1, 1, true) ∧
    (match exec (.replayLoaded .hpb false) { s with power := { s.power with phase := .replayHold } } with
      | .next t => (t.power.phase, t.live Reg.DXC_RPL_CTL_ARM) | _ => (.held, 9)) = (.castOn 6, 1) := by decide +kernel

/-! ### The row boundary -/

/-- The hypotheses about boundaries. -/
theorem test_hyp_rows :
    let s := planted 7 0 [] none
    let r : Request := ⟨false, 7, 2, false, some 0⟩
    let x : Sample := ⟨0x050003, 640, 640, 7, []⟩
    let t : State := { s with skn := { s.skn with req := some r }, inp := { s.inp with pend := [x] } }
    s.power.phase = .rows ∧ s.row.started = true ∧ s.rpl.on = false ∧ s.power.bind = .none ∧ s.power.lingerOver = false ∧
    s.skn.req = none ∧
    s.reaches s.row.next = true ∧ t.skn.req = some r ∧ r.named = s.row.num + 1 ∧ r.outcome = some 0 ∧ s.inp.done = [] ∧
    t.inp.pend.filter (fun y => decide (y.id = x.id) && sAtOrBefore y.adm s.row.next) ≠ [] ∧ x.id.toNat / 2 ^ 16 = 5 ∧
    (conf [(Reg.DXC_CFG_EN, 1, 0, 1)]).conf Reg.DXC_CFG_EN 1 = 1 ∧ (∀ k < 8, s.conf Reg.DXC_ETASK_EN 1 k ≠ 1) ∧
    (s.core 1).run = .idle ∧ (s.core 1).reload = false ∧ (s.core 1).heldSnap = none ∧ s.cores = [] ∧ (s.core 1).moves = [] ∧ State.reset.row.started = false ∧
    0 < (conf [(Reg.SYS_MODE_LINGER, 0, 0, 5)]).conf Reg.SYS_MODE_LINGER ∧
    (s.setLive Reg.SYS_PWRSTAT_CUR 5).live Reg.SYS_PWRSTAT_CUR = 5 := by decide +kernel

/-- On an empty queue DT counts one cycle where it is valid. -/
theorem test_idle :
    ([true, false].map (fun v => match step { running with time := { running.time with valid := v, dt := 640 } } with
      | .next t => t.now | _ => 0)) = [704, 640] := by decide +kernel

/-- A row of 250 µs after row 6: its number, its boundary and the next one. -/
theorem test_row_boundary :
    (match exec .rowBoundary (planted 7 0 [] none) with
      | .next t => [t.row.num.toNat, t.row.cur.toNat, t.row.next.toNat] | _ => []) = [7, 12800000, 19200000] := by
  decide +kernel

end Sys2Proof.Tests.Slice0
end

section
/-! PROOF. A host's REGISTER_WRITE of a live register, and the flags of PLE_QEVT as it leaves them (R11). -/

namespace Sys2Proof.Machine

/-! ### REGISTER_WRITE of a live register -/

/-- A served write to a word that holds live fields alone is logged and lands as the register's own write. -/
theorem exec_registerWrite_live {s : State} {a : W32} (p : Port) (v : W32) (hs : ServesHost s a.toNat)
    (ha : a.toNat % 4 = 0) (hst : stagingAt s.variant a.toNat = false)
    (hm : ¬ (0x01000000 ≤ a.toNat ∧ a.toNat < 0x01200000)) (hl : liveAt a.toNat = true)
    (hg : shadowGroup a.toNat = none) :
    exec (.registerWrite p a v) s = .next ((logged s p a.toNat v.toNat).regWrite (.host p) a.toNat v.toNat
      (floorTo 64 (logged s p a.toNat v.toNat).now)) := by
  have hup : s.busUp = true := by
    have h := (State.serves_iff s a.toNat).2 hs
    simp only [State.serves, Bool.and_eq_true] at h
    exact h.1.1
  have hexec : exec (.registerWrite p a v) s = .next (s.hostWord p a.toNat v.toNat) := by
    change execRegisterWrite p a v s = _
    simp [execRegisterWrite, State.servedAt, State.served, hup, addrAligned, ha, State.hostWords,
      Nat.mod_eq_of_lt a.isLt]
  rw [hexec]
  simp only [State.hostWord, hst, Bool.false_and, Bool.false_eq_true, if_false, hm, hl, if_true, hg,
    State.hostLive_served hs]

/-! ### PLE_QEVT -/

set_option maxRecDepth 20000 in
/-- The five flags of PLE_QEVT, each one bit. -/
theorem liveFields_qevt : liveFields 0x02000388 =
    [(4, Reg.PLE_QEVT_PREF, 0, 0), (3, Reg.PLE_QEVT_SLIP, 0, 0), (2, Reg.PLE_QEVT_LATE, 0, 0),
      (1, Reg.PLE_QEVT_RESV, 0, 0), (0, Reg.PLE_QEVT_FULL, 0, 0)] := by rfl

set_option maxRecDepth 20000 in
/-- PLE_QEVT holds nothing of a skein. -/
theorem stagedFields_qevt : stagedFields 0x02000388 = [] := by rfl

/-- PLE_QEVT has no action of its own: a write acts on its flags. -/
theorem State.regWrite_qevt (s : State) (w : Writer) (v : Nat) (land : Stamp) :
    s.regWrite w 0x02000388 v land = s.plainWrite w 0x02000388 v := rfl

/-- Each flag loses the bits written as 1, and what is left is kept to the flag's one bit, whether or not
the write clears it. -/
theorem State.live_regWrite_qevt (s : State) (w : Writer) (v : Nat) (land : Stamp) {x : Nat × Fld × Nat × Nat}
    (hx : x ∈ liveFields 0x02000388) :
    (s.regWrite w 0x02000388 v land).live x.2.1 =
      (s.live x.2.1 - Nat.land (s.live x.2.1) (bitsOf v x.1 1)) % 2 := by
  rw [State.regWrite_qevt, State.plainWrite]
  rw [liveFields_qevt] at hx ⊢
  simp only [List.mem_cons, List.not_mem_nil, or_false] at hx
  obtain rfl | rfl | rfl | rfl | rfl := hx <;>
    simp [State.putElem, State.live_setLive_same, State.live_setLive_ne, Fld.key, Reg.PLE_QEVT_PREF,
      Reg.PLE_QEVT_SLIP, Reg.PLE_QEVT_LATE, Reg.PLE_QEVT_RESV, Reg.PLE_QEVT_FULL]

/-- Rows run, and the table of registers holds 2 in the one-bit flag PLE_QEVT.PREF. -/
def widePref : State :=
  { State.reset with
    power := { State.reset.power with phase := .rows }
    regs := [(Reg.PLE_QEVT_PREF.key 0 0, 2)] }

/-- A write of 4 to PLE_QEVT, which names LATE alone, takes the 2 in PREF to 0. -/
theorem exec_registerWrite_qevt_widePref :
    ∃ t, exec (.registerWrite .hpa 0x02000388 4) widePref = .next t ∧ t.live Reg.PLE_QEVT_PREF = 0 := by
  have hs : ServesHost widePref (0x02000388 : W32).toNat := ⟨.inl rfl, by decide, fun h => by cases h⟩
  have hst : stagingAt widePref.variant 0x02000388 = false := by
    simp [stagingAt, nodeWindow, progWindow, tableMask, stagedFields_qevt]
  have hl : liveAt 0x02000388 = true := by simp [liveAt, liveFields_qevt]
  refine ⟨_, exec_registerWrite_live .hpa 4 hs rfl hst (by decide) hl rfl, ?_⟩
  rw [logged_unused (by decide)]
  exact State.live_regWrite_qevt widePref (.host .hpa) 4 _ (x := (4, Reg.PLE_QEVT_PREF, 0, 0))
    (by simp [liveFields_qevt])

/-- Refutes O28: the clause on PLE_QEVT asks of LATE alone that it holds at most 1, over every state. In a state whose
one-bit PREF holds 2 the write of 4 clears LATE and also keeps PREF to its width, so a field that the clause does not
list changes. `State.setLive` writes no such value, but the statement does not exclude it. -/
theorem not_registerWriteFollowsTheAccessCode : ¬ Obligations.RegisterWriteFollowsTheAccessCode := by
  unfold Obligations.RegisterWriteFollowsTheAccessCode
  intro h
  obtain ⟨-, hlate, -⟩ := h widePref .hpa 4 rfl rfl
  obtain ⟨t, ht, ⟨-, hframe⟩, -⟩ := hlate rfl (by decide)
  rw [logged_unused (by decide)] at hframe
  obtain ⟨u, hu, hpref⟩ := exec_registerWrite_qevt_widePref
  obtain rfl : t = u := by injection ht.symm.trans hu
  have hkept : t.live Reg.PLE_QEVT_PREF = widePref.live Reg.PLE_QEVT_PREF :=
    congrArg BitVec.toNat (hframe (Reg.PLE_QEVT_PREF.key 0 0) (by decide) _)
  have hwide : widePref.live Reg.PLE_QEVT_PREF = 2 := by decide
  omega

end Sys2Proof.Machine
end

section
/-! SUPPORT. What a raised event writes and leaves in the live registers. -/

namespace Sys2Proof.Machine

/-! ### Live registers outside a list of keys -/

theorem LiveSameBut.refl (s : State) (ks : List Nat) : LiveSameBut s s ks := fun _ _ _ => rfl

/-- States with one register table agree in every live field. -/
theorem LiveSameBut.of_regs_eq {s t : State} (h : t.regs = s.regs) (ks : List Nat) : LiveSameBut s t ks :=
  fun _ _ _ => by rw [h]

theorem LiveSameBut.trans {s t u : State} {ks : List Nat} (h : LiveSameBut s t ks) (h' : LiveSameBut t u ks) :
    LiveSameBut s u ks :=
  fun k hk d => (h' k hk d).trans (h k hk d)

theorem LiveSameBut.mono {s t : State} {ks ls : List Nat} (h : LiveSameBut s t ks) (hsub : ks ⊆ ls) :
    LiveSameBut s t ls :=
  fun k hk d => h k (fun hmem => hk (hsub hmem)) d

/-- A listed field may be written. -/
theorem LiveSameBut.setLive {s t : State} {ks : List Nat} (h : LiveSameBut s t ks) {f : Fld} {i j : Nat}
    (hk : f.key i j ∈ ks) (v : Nat) : LiveSameBut s (t.setLive f v i j) ks :=
  fun k hne d => (Tab.get_put_ne' _ d t.regs (fun e => hne (by rw [e]; exact hk)) _).trans (h k hne d)

/-- A field that is not listed reads as before. -/
theorem LiveSameBut.live {s t : State} {ks : List Nat} (h : LiveSameBut s t ks) {f : Fld} {i j : Nat}
    (hk : f.key i j ∉ ks) : t.live f i j = s.live f i j :=
  congrArg BitVec.toNat (h _ hk _)

/-! ### A raised event -/

/-- `State.routeEvent` for one port: the pending bit of the source. -/
def State.pend (s : State) (e p : Nat) : State :=
  let w := s.live Reg.EVT_PEND_PEND p (e / 32)
  if bitOf w (e % 32) then s else s.setLive Reg.EVT_PEND_PEND (w + 2 ^ (e % 32)) p (e / 32)

theorem State.routeEvent_eq (s : State) (e : Nat) :
    s.routeEvent e =
      let u := if s.flag Reg.EVT_ROUTE_HPA e then s.pend e 0 else s
      if u.flag Reg.EVT_ROUTE_HPB e then u.pend e 1 else u := rfl

theorem bitOf_eq_testBit (n i : Nat) : bitOf n i = n.testBit i := by
  simp [bitOf, Nat.testBit_eq_decide_div_mod_eq, BEq.beq]

/-- The pending bit of the source is set. -/
theorem State.bitOf_pend (s : State) (e p : Nat) :
    bitOf ((s.pend e p).live Reg.EVT_PEND_PEND p (e / 32)) (e % 32) = true := by
  unfold State.pend
  by_cases h : bitOf (s.live Reg.EVT_PEND_PEND p (e / 32)) (e % 32) = true
  · simp [h]
  · have hlt : e % 32 < 32 := Nat.mod_lt _ (by decide)
    simp only [h, Bool.false_eq_true, if_false]
    rw [State.live_setLive_same _ _ _ _ _ (by decide)]
    simp only [bitOf_eq_testBit] at h ⊢
    rw [show Reg.EVT_PEND_PEND.width = 32 from rfl, Nat.testBit_mod_two_pow, Nat.add_comm,
      Nat.testBit_two_pow_add_eq]
    simp [h, hlt]

/-- A pending bit lies in its port's word. -/
theorem State.liveSameBut_pend (s : State) (e p : Nat) :
    LiveSameBut s (s.pend e p) [Reg.EVT_PEND_PEND.key p (e / 32)] := by
  unfold State.pend
  dsimp only
  split
  · exact LiveSameBut.refl s _
  · exact (LiveSameBut.refl s _).setLive (by simp) _

/-- The two pending words of a source. -/
def pendKeys (e : Nat) : List Nat := [Reg.EVT_PEND_PEND.key 0 (e / 32), Reg.EVT_PEND_PEND.key 1 (e / 32)]

/-- A port that is asked for, or none, adds its pending word at most. -/
theorem LiveSameBut.pendIf {s u : State} {e : Nat} (h : LiveSameBut s u (pendKeys e)) (b : Bool) {p : Nat}
    (hp : Reg.EVT_PEND_PEND.key p (e / 32) ∈ pendKeys e) :
    LiveSameBut s (if b then u.pend e p else u) (pendKeys e) := by
  split
  · exact h.trans ((u.liveSameBut_pend e p).mono (by simpa using hp))
  · exact h

/-- Routing an event writes the pending words of its source at most. -/
theorem State.liveSameBut_routeEvent (s : State) (e : Nat) : LiveSameBut s (s.routeEvent e) (pendKeys e) := by
  rw [State.routeEvent_eq]
  exact ((LiveSameBut.refl s _).pendIf _ (by simp [pendKeys])).pendIf _ (by simp [pendKeys])

/-- The sources that a variant can raise are below 128 (R424). -/
theorem lt_of_eventPresent {v : Variant} {e : Nat} (h : eventPresent v e = true) : e < 128 := by
  unfold eventPresent at h
  split at h
  · omega
  · split at h
    · omega
    · split at h
      · cases h
      · exact of_decide_eq_true h

/-- The route bit of a port is no pending bit. -/
theorem route_ne_pend {e : Nat} (he : e < 128) {f : Fld} (hf : f = Reg.EVT_ROUTE_HPA ∨ f = Reg.EVT_ROUTE_HPB)
    (p w : Nat) : f.key e 0 ≠ Reg.EVT_PEND_PEND.key p w := by
  rcases hf with rfl | rfl <;> simp only [Fld.key, Reg.EVT_ROUTE_HPA, Reg.EVT_ROUTE_HPB, Reg.EVT_PEND_PEND] <;> omega

/-- After routing, the pending bit of each port that EVT_ROUTE names is set. -/
theorem State.bitOf_routeEvent (s : State) {e : Nat} (he : e < 128) :
    (s.flag Reg.EVT_ROUTE_HPA e = true →
      bitOf ((s.routeEvent e).live Reg.EVT_PEND_PEND 0 (e / 32)) (e % 32) = true) ∧
    (s.flag Reg.EVT_ROUTE_HPB e = true →
      bitOf ((s.routeEvent e).live Reg.EVT_PEND_PEND 1 (e / 32)) (e % 32) = true) := by
  rw [State.routeEvent_eq]
  have hkeys : Reg.EVT_PEND_PEND.key 0 (e / 32) ≠ Reg.EVT_PEND_PEND.key 1 (e / 32) := by
    simp only [Fld.key, Reg.EVT_PEND_PEND]; omega
  constructor
  · intro hA
    simp only [hA, if_true]
    split
    · rw [(State.liveSameBut_pend _ e 1).live (by simpa using hkeys)]
      exact s.bitOf_pend e 0
    · exact s.bitOf_pend e 0
  · intro hB
    have hu : (if s.flag Reg.EVT_ROUTE_HPA e then s.pend e 0 else s).flag Reg.EVT_ROUTE_HPB e = true := by
      split
      · have := (s.liveSameBut_pend e 0).live (f := Reg.EVT_ROUTE_HPB) (i := e) (j := 0)
          (by simpa using route_ne_pend he (.inr rfl) 0 (e / 32))
        simpa [State.flag, this] using hB
      · exact hB
    simp only [hu, if_true]
    exact State.bitOf_pend _ e 1

/-! ### A raise as a whole -/

/-- The registers of a source as a raise leaves them, before it is routed. -/
def State.raiseMark (s : State) (e arg : Nat) (st : Stamp) : State :=
  ((((s.bump Reg.EVT_CNT_CNT e).setLive Reg.EVT_ARG_ARG arg e).setLive Reg.EVT_STAMP_LO_STAMP
    (st.toNat % 2 ^ 32) e).setLive Reg.EVT_STAMP_HI_STAMP (st.toNat / 2 ^ 32) e)

/-- The argument that stands after a raise: the highest of its cycle. -/
def State.raiseArg (s : State) (e arg : Nat) (st : Stamp) : Nat :=
  if s.boot.raised.contains (e, st) then max arg (s.live Reg.EVT_ARG_ARG e) else arg

theorem State.raise_open {s : State} {e : Nat} (h : (eventPresent s.variant e && s.eventOpen e) = true) (arg : Nat)
    (st : Stamp) :
    s.raise e arg st =
      State.routeEvent { s.raiseMark e (s.raiseArg e arg st) st with
        boot := { s.boot with raised := s.boot.raised ++ [(e, st)] } } e := by
  simp only [State.raise, h, if_true]; rfl

theorem State.raise_shut {s : State} {e : Nat} (h : (eventPresent s.variant e && s.eventOpen e) = false) (arg : Nat)
    (st : Stamp) : s.raise e arg st = s := by
  simp [State.raise, h]

/-- A raise writes the registers of its source at most (R424 to R426). -/
theorem State.liveSameBut_raise (s : State) (e arg : Nat) (st : Stamp) :
    LiveSameBut s (s.raise e arg st) (eventKeys e) := by
  cases h : eventPresent s.variant e && s.eventOpen e
  · rw [State.raise_shut h]; exact LiveSameBut.refl s _
  · rw [State.raise_open h]
    refine LiveSameBut.trans ?_ ((State.liveSameBut_routeEvent _ e).mono (by simp [pendKeys, eventKeys]))
    exact ((((LiveSameBut.refl s _).setLive (by simp [eventKeys]) _).setLive (by simp [eventKeys]) _).setLive
      (by simp [eventKeys]) _).setLive (by simp [eventKeys]) _

theorem State.liveSameBut_raiseNow (s : State) (e arg : Nat) : LiveSameBut s (s.raiseNow e arg) (eventKeys e) :=
  s.liveSameBut_raise e arg _

/-- What a raise writes before it routes: count, argument and stamp of the source. -/
theorem State.live_raiseMark (s : State) {e : Nat} (he : e < 128) (arg : Nat) (st : Stamp) :
    let t := s.raiseMark e arg st
    t.live Reg.EVT_CNT_CNT e = (s.live Reg.EVT_CNT_CNT e + 1) % 2 ^ 16 ∧ t.live Reg.EVT_ARG_ARG e = arg % 2 ^ 24 ∧
      t.live64 Reg.EVT_STAMP_LO_STAMP Reg.EVT_STAMP_HI_STAMP e = st.toNat := by
  have hhi : st.toNat / 2 ^ 32 < 2 ^ 32 := by have := st.isLt; omega
  refine ⟨?_, ?_, ?_⟩
  · unfold State.raiseMark State.bump
    rw [State.live_setLive_ne, State.live_setLive_ne, State.live_setLive_ne, State.live_setLive_same] <;>
      simp [Fld.key, Reg.EVT_CNT_CNT, Reg.EVT_ARG_ARG, Reg.EVT_STAMP_LO_STAMP, Reg.EVT_STAMP_HI_STAMP] <;> omega
  · unfold State.raiseMark
    rw [State.live_setLive_ne, State.live_setLive_ne, State.live_setLive_same] <;>
      simp [Fld.key, Reg.EVT_ARG_ARG, Reg.EVT_STAMP_LO_STAMP, Reg.EVT_STAMP_HI_STAMP] <;> omega
  · unfold State.raiseMark State.live64
    rw [State.live_setLive_ne, State.live_setLive_same, State.live_setLive_same] <;>
      simp [Fld.key, Reg.EVT_STAMP_LO_STAMP, Reg.EVT_STAMP_HI_STAMP]
    omega

/-- In DOZE and ASLEEP no source but clock-loss is open, and elsewhere each is (R428). -/
theorem State.eventOpen_iff (s : State) (e : Nat) :
    s.eventOpen e = true ↔ ¬ (e ≠ 0 ∧ (s.power.phase = .doze ∨ s.power.phase = .unpowered)) := by
  by_cases he : e = 0 <;> simp [State.eventOpen, he]

/-- A raise of a source that the variant has (R424 to R426, R428). -/
theorem State.raised_raise {s : State} {e : Nat} (hp : eventPresent s.variant e = true) (arg : Nat) (st : Stamp) :
    Raised s (s.raise e arg st) e arg st := by
  unfold Raised
  split
  case isTrue hshut =>
    have h : s.eventOpen e = false := by
      rw [← Bool.not_eq_true, State.eventOpen_iff]; exact fun hn => hn hshut
    rw [State.raise_shut (by simp [h])]
    exact fun _ _ _ => rfl
  case isFalse hopen =>
    have he : e < 128 := lt_of_eventPresent hp
    have ho : (eventPresent s.variant e && s.eventOpen e) = true := by simp [hp, (s.eventOpen_iff e).2 hopen]
    rw [State.raise_open ho]
    set m : State := { s.raiseMark e (s.raiseArg e arg st) st with
      boot := { s.boot with raised := s.boot.raised ++ [(e, st)] } } with hm
    obtain ⟨hcnt, harg, hst⟩ := s.live_raiseMark he (s.raiseArg e arg st) st
    have hroute : ∀ f : Fld, f.key e 0 ∉ pendKeys e → (m.routeEvent e).live f e = m.live f e :=
      fun f hf => (m.liveSameBut_routeEvent e).live hf
    have hflag : ∀ f : Fld, f = Reg.EVT_ROUTE_HPA ∨ f = Reg.EVT_ROUTE_HPB → m.flag f e = s.flag f e := by
      intro f hf
      have hsame : LiveSameBut s m (eventKeys e) :=
        ((((LiveSameBut.refl s _).setLive (by simp [eventKeys]) _).setLive (by simp [eventKeys]) _).setLive
          (by simp [eventKeys]) _).setLive (by simp [eventKeys]) _
      have hk : f.key e 0 ∉ eventKeys e := by
        rcases hf with rfl | rfl <;>
          simp [eventKeys, Fld.key, Reg.EVT_ROUTE_HPA, Reg.EVT_ROUTE_HPB, Reg.EVT_CNT_CNT, Reg.EVT_ARG_ARG,
            Reg.EVT_STAMP_LO_STAMP, Reg.EVT_STAMP_HI_STAMP, Reg.EVT_PEND_PEND] <;> omega
      simp only [State.flag, hsame.live hk]
    obtain ⟨hA, hB⟩ := m.bitOf_routeEvent he
    refine ⟨?_, ?_, ?_, ?_, ?_⟩
    · rw [hroute]
      · exact hcnt
      · simp [pendKeys, Fld.key, Reg.EVT_CNT_CNT, Reg.EVT_PEND_PEND]; omega
    · unfold State.live64 at hst ⊢
      rw [hroute, hroute]
      · exact hst
      · simp [pendKeys, Fld.key, Reg.EVT_STAMP_HI_STAMP, Reg.EVT_PEND_PEND]; omega
      · simp [pendKeys, Fld.key, Reg.EVT_STAMP_LO_STAMP, Reg.EVT_PEND_PEND]; omega
    · intro hnew
      rw [hroute]
      · exact harg.trans (by simp only [State.raiseArg, hnew, Bool.false_eq_true, if_false])
      · simp [pendKeys, Fld.key, Reg.EVT_ARG_ARG, Reg.EVT_PEND_PEND]; omega
    · intro h; exact hA ((hflag _ (.inl rfl)).trans h)
    · intro h; exact hB ((hflag _ (.inr rfl)).trans h)

/-- The registers that say how a source is raised: its routes and what a raise writes. -/
def eventReads (e : Nat) : List Nat := Reg.EVT_ROUTE_HPA.key e 0 :: Reg.EVT_ROUTE_HPB.key e 0 :: eventKeys e

/-- Writes of other registers before and after a raise leave it what it is. -/
theorem Raised.frame {s u t v : State} {e arg : Nat} {st : Stamp} {ks : List Nat} (h : Raised u t e arg st)
    (hu : LiveSameBut s u ks) (hv : LiveSameBut t v ks) (hdis : ∀ k ∈ eventReads e, k ∉ ks)
    (hpow : u.power = s.power) (hboot : u.boot = s.boot) : Raised s v e arg st := by
  have hs : ∀ (f : Fld) (i j : Nat), f.key i j ∈ eventReads e → u.live f i j = s.live f i j :=
    fun f i j hk => hu.live (hdis _ hk)
  have ht : ∀ (f : Fld) (i j : Nat), f.key i j ∈ eventReads e → v.live f i j = t.live f i j :=
    fun f i j hk => hv.live (hdis _ hk)
  unfold Raised at h ⊢
  rw [← hpow, ← hboot]
  split
  case isTrue hshut =>
    rw [if_pos hshut] at h
    intro k hk d
    have hmem : k ∈ eventReads e := List.mem_cons_of_mem _ (List.mem_cons_of_mem _ hk)
    rw [hv k (hdis k hmem) d, h k hk d, hu k (hdis k hmem) d]
  case isFalse hopen =>
    rw [if_neg hopen] at h
    simp only [State.flag, State.live64] at h ⊢
    have hkeys : eventKeys e ⊆ eventReads e := fun k hk => List.mem_cons_of_mem _ (List.mem_cons_of_mem _ hk)
    rw [ht Reg.EVT_CNT_CNT e 0 (hkeys (by simp [eventKeys])), ht Reg.EVT_ARG_ARG e 0 (hkeys (by simp [eventKeys])),
      ht Reg.EVT_STAMP_LO_STAMP e 0 (hkeys (by simp [eventKeys])),
      ht Reg.EVT_STAMP_HI_STAMP e 0 (hkeys (by simp [eventKeys])),
      ht Reg.EVT_PEND_PEND 0 (e / 32) (hkeys (by simp [eventKeys])),
      ht Reg.EVT_PEND_PEND 1 (e / 32) (hkeys (by simp [eventKeys])),
      ← hs Reg.EVT_CNT_CNT e 0 (hkeys (by simp [eventKeys])), ← hs Reg.EVT_ROUTE_HPA e 0 (by simp [eventReads]),
      ← hs Reg.EVT_ROUTE_HPB e 0 (by simp [eventReads])]
    exact h

end Sys2Proof.Machine
end

section
/-! SUPPORT. What the recording rings write: the blocks of a record, their registers and their bytes of DRAM. -/

namespace Sys2Proof.Machine

/-! ### Little-endian bytes -/

@[simp] theorem length_bytesLE (k n : Nat) : (bytesLE k n).length = k := by
  induction k generalizing n with
  | zero => rfl
  | succ k ih => simp [bytesLE, ih]

/-- Bytes read back as the number they were made of, kept to their width. -/
@[simp] theorem leNat_bytesLE (k n : Nat) : leNat (bytesLE k n) = n % 256 ^ k := by
  induction k generalizing n with
  | zero => simp [bytesLE, leNat, Nat.mod_one]
  | succ k ih =>
    rw [bytesLE, leNat, ih, BitVec.toNat_ofNat, show (2 : Nat) ^ 8 = 256 from rfl, pow_succ, Nat.mul_comm (256 ^ k) 256,
      Nat.mod_mul]

/-- The first part of a record. -/
theorem leAt_append_left {l : List Byte} {n : Nat} (h : l.length = n) (m : List Byte) : leAt (l ++ m) 0 n = leNat l := by
  simp [leAt, ← h]

/-- What follows the first part of a record. -/
theorem leAt_append_right {l : List Byte} {i : Nat} (h : l.length ≤ i) (m : List Byte) (n : Nat) :
    leAt (l ++ m) i n = leAt m (i - l.length) n := by
  simp [leAt, List.drop_append, List.drop_eq_nil_of_le h]

/-- A whole list of bytes. -/
theorem leAt_self (l : List Byte) {n : Nat} (h : l.length = n) : leAt l 0 n = leNat l := by
  simp [leAt, ← h]

/-! ### Runs of bytes in DRAM -/

theorem State.dramBytes_succ (s : State) (a k : Nat) : s.dramBytes a (k + 1) = s.dramByte a :: s.dramBytes (a + 1) k := by
  simp [State.dramBytes, List.range_succ_eq_map, Function.comp_def, Nat.add_assoc, Nat.add_comm 1]

/-- A run of bytes in the installed DRAM reads back. -/
theorem State.dramBytes_setDramBytes (l : List Byte) : ∀ (s : State) (a : Nat), a + l.length ≤ s.variant.dramBytes →
    (s.setDramBytes a l).dramBytes a l.length = l := by
  induction l with
  | nil => intro s a _; rfl
  | cons b t ih =>
    intro s a h
    simp only [List.length_cons] at h ⊢
    rw [State.setDramBytes, State.dramBytes_succ, State.dramByte_setDramBytes_ne _ _ _ _ (by omega),
      State.dramByte_setDramByte_same _ _ _ (by omega), ih _ _ (by rw [State.setDramByte_variant]; omega)]

/-- A part of a run of bytes. -/
theorem State.leNat_dramBytes_part (s : State) (a : Nat) {i n m : Nat} (h : i + n ≤ m) :
    leNat (s.dramBytes (a + i) n) = leAt (s.dramBytes a m) i n := by
  unfold leAt
  congr 1
  apply List.ext_getElem
  · simp [State.dramBytes]; omega
  · intro k h1 h2; simp [State.dramBytes, Nat.add_assoc]

/-- The first part of a run of bytes. -/
theorem State.leNat_dramBytes_head (s : State) (a : Nat) {n m : Nat} (h : n ≤ m) :
    leNat (s.dramBytes a n) = leAt (s.dramBytes a m) 0 n :=
  s.leNat_dramBytes_part a (i := 0) (by rwa [Nat.zero_add])

/-- Runs of bytes that no write has reached read as before. -/
theorem State.dramBytes_of_sameBut {s t : State} {off n : Nat} (h : DramSameBut s t off n) {a k : Nat}
    (hd : a + k ≤ off ∨ off + n ≤ a) : t.dramBytes a k = s.dramBytes a k := by
  unfold State.dramBytes
  exact List.map_congr_left (fun i hi => h _ (by rw [List.mem_range] at hi; omega))

/-- DRAM bytes depend on the variant and the contents of DRAM alone. -/
theorem State.dramByte_congr {s t : State} (hv : t.variant = s.variant) (hd : t.fab.dram = s.fab.dram) (k : Nat) :
    t.dramByte k = s.dramByte k := by
  simp [State.dramByte, hv, hd]

/-! ### What the recording rings write -/

/-- `t` differs from `s` in registers, raises and the fabric's data at most. -/
def RingFrame (s t : State) : Prop := t = { s with regs := t.regs, boot := t.boot, fab := t.fab }

theorem RingFrame.refl (s : State) : RingFrame s s := rfl

theorem RingFrame.trans {s t u : State} (h : RingFrame s t) (h' : RingFrame t u) : RingFrame s u :=
  Eq.trans h' (congrArg (fun x : State => { x with regs := u.regs, boot := u.boot, fab := u.fab }) h)

theorem ringFrame_setLive (s : State) (f : Fld) (v i j : Nat) : RingFrame s (s.setLive f v i j) := rfl

theorem ringFrame_ringFull (s : State) (r : Nat) (b : Bool) : RingFrame s (s.ringFull r b) := rfl

theorem ringFrame_raise (s : State) (e arg : Nat) (st : Stamp) : RingFrame s (s.raise e arg st) := by
  rw [s.raise_frame e arg st]; exact rfl

theorem ringFrame_raiseNow (s : State) (e arg : Nat) : RingFrame s (s.raiseNow e arg) := ringFrame_raise s e arg _

theorem ringFrame_setDramBytes (l : List Byte) : ∀ (s : State) (off : Nat), RingFrame s (s.setDramBytes off l) := by
  induction l with
  | nil => intro s _; exact RingFrame.refl s
  | cons b t ih =>
    intro s off
    refine RingFrame.trans ?_ (ih (s.setDramByte off b) (off + 1))
    obtain ⟨d, h⟩ := s.setDramByte_frame off b
    rw [h]; exact rfl

theorem ringFrame_ringRoom (s : State) (r need : Nat) : RingFrame s (s.ringRoom r need) := by
  unfold State.ringRoom
  dsimp only
  split
  · exact RingFrame.refl s
  · exact (((ringFrame_setLive s _ _ _ _).trans (ringFrame_ringFull _ _ _)).trans (ringFrame_setLive _ _ _ _ _)).trans
      (ringFrame_raiseNow _ _ _)

theorem ringFrame_ringBlock (s : State) (r : Nat) (b : List Byte) : RingFrame s (s.ringBlock r b) := by
  have h := ringFrame_setDramBytes (padTo 16 (b.take 16)) s
    (s.conf Reg.DXC_RING_BASE_BASE r * 4096 + 16 * (s.live Reg.DXC_RING_WR_WR r % s.ringSize r))
  unfold State.ringBlock
  dsimp only
  split
  · exact h.trans rfl
  · exact h.trans rfl

theorem ringFrame_ringWrite (s : State) (r : Nat) (l : List Byte) : RingFrame s (s.ringWrite r l) := by
  unfold State.ringWrite
  split
  · exact List.foldlRecOn (motive := RingFrame s) _ _ (ringFrame_ringRoom s r _)
      (fun t h b _ => h.trans (ringFrame_ringBlock t r b))
  · exact RingFrame.refl s

theorem ringFrame_logEntry (s : State) (kind arg : Nat) (stamp : Stamp) (row : W32) :
    RingFrame s (s.logEntry kind arg stamp row) := by
  unfold State.logEntry
  split
  · exact RingFrame.refl s
  · exact ringFrame_ringWrite s 0 _

/-- The live registers that a write to ring `r` touches. -/
def ringKeys (r : Nat) : List Nat :=
  Reg.DXC_RING_WR_WR.key r 0 :: Reg.DXC_RING_RD_RD.key r 0 :: Reg.DXC_RING_STAT_OVF.key r 0 :: eventKeys 22

/-- Making room in ring `r` moves RD, sets OVF and raises the ring-overflow event at most (R97). -/
theorem liveSameBut_ringRoom (s : State) (r need : Nat) :
    LiveSameBut s (s.ringRoom r need) (Reg.DXC_RING_RD_RD.key r 0 :: Reg.DXC_RING_STAT_OVF.key r 0 :: eventKeys 22) := by
  unfold State.ringRoom
  dsimp only
  split
  · exact LiveSameBut.refl s _
  · refine LiveSameBut.trans ?_ ((State.liveSameBut_raiseNow _ 22 r).mono (by simp))
    exact LiveSameBut.setLive (t := State.ringFull _ _ _) ((LiveSameBut.refl s _).setLive (by simp) _) (by simp) _

/-- Writing a block of ring `r` moves WR, and RD with it in a full ring. -/
theorem liveSameBut_ringBlock (s : State) (r : Nat) (b : List Byte) : LiveSameBut s (s.ringBlock r b) (ringKeys r) := by
  unfold State.ringBlock
  dsimp only
  have h : LiveSameBut s (s.setDramBytes (s.conf Reg.DXC_RING_BASE_BASE r * 4096 +
      16 * (s.live Reg.DXC_RING_WR_WR r % s.ringSize r)) (padTo 16 (b.take 16))) (ringKeys r) :=
    LiveSameBut.of_regs_eq (by simp) _
  split
  · exact (h.setLive (by simp [ringKeys]) _).setLive (by simp [ringKeys]) _
  · exact h.setLive (by simp [ringKeys]) _

theorem liveSameBut_ringWrite (s : State) (r : Nat) (l : List Byte) : LiveSameBut s (s.ringWrite r l) (ringKeys r) := by
  unfold State.ringWrite
  split
  · have hroom : ∀ need, LiveSameBut s (s.ringRoom r need) (ringKeys r) := fun need =>
      (liveSameBut_ringRoom s r need).mono (List.subset_cons_self _ _)
    exact List.foldlRecOn (motive := fun t => LiveSameBut s t (ringKeys r)) _ _ (hroom _)
      (fun t h b _ => h.trans (liveSameBut_ringBlock t r b))
  · exact LiveSameBut.refl s _

/-- A log entry touches the registers of ring 0 and the ring-overflow event at most. -/
theorem liveSameBut_logEntry (s : State) (kind arg : Nat) (stamp : Stamp) (row : W32) :
    LiveSameBut s (s.logEntry kind arg stamp row) (ringKeys 0) := by
  unfold State.logEntry
  split
  · exact LiveSameBut.refl s _
  · exact liveSameBut_ringWrite s 0 _

/-! ### One admission-record entry -/

/-- The 16 bytes of an admission-record entry (R40). -/
def entryBytes (kind arg : Nat) (stamp : Stamp) (row : W32) : List Byte :=
  bytesLE 8 stamp.toNat ++ bytesLE 4 row.toNat ++ bytesLE 3 arg ++ bytesLE 1 kind

@[simp] theorem length_entryBytes (kind arg : Nat) (stamp : Stamp) (row : W32) :
    (entryBytes kind arg stamp row).length = 16 := by
  simp [entryBytes]

/-- The fields of an entry, and of the stamp field its two words. -/
theorem leAt_entryBytes (kind arg : Nat) (stamp : Stamp) (row : W32) :
    leAt (entryBytes kind arg stamp row) 0 8 = stamp.toNat ∧ leAt (entryBytes kind arg stamp row) 8 4 = row.toNat ∧
    leAt (entryBytes kind arg stamp row) 12 3 = arg % 2 ^ 24 ∧ leAt (entryBytes kind arg stamp row) 15 1 = kind % 2 ^ 8 := by
  have hs : stamp.toNat % 256 ^ 8 = stamp.toNat := Nat.mod_eq_of_lt stamp.isLt
  have hr : row.toNat % 256 ^ 4 = row.toNat := Nat.mod_eq_of_lt row.isLt
  refine ⟨?_, ?_, ?_, ?_⟩
  · rw [entryBytes, List.append_assoc, List.append_assoc, leAt_append_left (by simp), leNat_bytesLE, hs]
  · rw [entryBytes, List.append_assoc, List.append_assoc, leAt_append_right (by simp), length_bytesLE,
      leAt_append_left (by simp), leNat_bytesLE, hr]
  · rw [entryBytes, List.append_assoc, leAt_append_right (by simp), List.length_append, length_bytesLE, length_bytesLE,
      leAt_append_left (by simp), leNat_bytesLE, show 256 ^ 3 = 2 ^ 24 from rfl]
  · rw [entryBytes, leAt_append_right (by simp), List.length_append, List.length_append, length_bytesLE, length_bytesLE,
      length_bytesLE, leAt_self _ (by simp), leNat_bytesLE, show 256 ^ 1 = 2 ^ 8 from rfl]

theorem blocks16_one {l : List Byte} (h : l.length = 16) : blocks16 (l.length + 1) l = [l] := by
  have hne : l.isEmpty = false := by cases l <;> simp at h ⊢
  have hd : l.drop 16 = [] := List.drop_eq_nil_of_le (by omega)
  simp [blocks16, hne, hd, List.take_of_length_le (Nat.le_of_eq h), h]

/-- Outside a replay, with the ring in use, an entry is one block behind the room made for it. -/
theorem State.logEntry_used {s : State} (hr : s.rpl.on = false) (he : s.conf Reg.DXC_RING_CFG_EN 0 = 1) (kind arg : Nat)
    (stamp : Stamp) (row : W32) :
    s.logEntry kind arg stamp row = (s.ringRoom 0 1).ringBlock 0 (entryBytes kind arg stamp row) := by
  have hb : blocks16 ((entryBytes kind arg stamp row).length + 1) (entryBytes kind arg stamp row) =
      [entryBytes kind arg stamp row] := blocks16_one (length_entryBytes ..)
  change (if s.rpl.on then s else s.ringWrite 0 (entryBytes kind arg stamp row)) = _
  rw [hr, if_neg (by decide), State.ringWrite, if_pos he]
  simp only [hb, List.foldl_cons, List.foldl_nil, List.length_singleton]

/-- The block that WR names. -/
def State.ringAt (s : State) (r i : Nat) : Nat := s.conf Reg.DXC_RING_BASE_BASE r * 4096 + 16 * (i % s.ringSize r)

/-- The contents of DRAM and WR after a block is written. -/
theorem State.ringBlock_writes (s : State) (r : Nat) {b : List Byte} (hb : b.length = 16) :
    let a := s.ringAt r (s.live Reg.DXC_RING_WR_WR r)
    let t := s.ringBlock r b
    (a + 16 ≤ s.variant.dramBytes → t.dramBytes a 16 = b) ∧ DramSameBut s t a 16 ∧
      t.live Reg.DXC_RING_WR_WR r = (s.live Reg.DXC_RING_WR_WR r + 1) % s.ringSize r % 2 ^ 32 := by
  intro a t
  have hpad : padTo 16 (b.take 16) = b := by simp [padTo, hb, List.take_of_length_le (Nat.le_of_eq hb)]
  have hbyte : ∀ k, t.dramByte k = (s.setDramBytes a b).dramByte k := by
    intro k
    apply State.dramByte_congr
    · rw [State.ringBlock_variant, State.setDramBytes_variant]
    · simp only [t, State.ringBlock, hpad]
      split <;> rfl
  refine ⟨fun h => ?_, fun k hk => ?_, ?_⟩
  · have : t.dramBytes a 16 = (s.setDramBytes a b).dramBytes a 16 := List.map_congr_left (fun i _ => hbyte _)
    rw [this, ← hb]
    exact State.dramBytes_setDramBytes b s a (by rw [hb]; exact h)
  · rw [hbyte, State.dramByte_setDramBytes_ne _ _ _ _ (by rw [hb]; exact hk)]
  · simp only [t, State.ringBlock, Nat.mod_add_mod]
    exact State.live_setLive_same _ Reg.DXC_RING_WR_WR _ _ _ (by decide)

/-- A ring that lies in the installed DRAM holds each of its blocks. -/
theorem State.ringAt_fits {s : State} {r : Nat} (hpos : 0 < s.ringSize r)
    (hfit : s.conf Reg.DXC_RING_BASE_BASE r * 4096 + 16 * s.ringSize r ≤ s.variant.dramBytes) (i : Nat) :
    s.ringAt r i + 16 ≤ s.variant.dramBytes := by
  have hlt : i % s.ringSize r + 1 ≤ s.ringSize r := Nat.mod_lt i hpos
  calc s.ringAt r i + 16 = s.conf Reg.DXC_RING_BASE_BASE r * 4096 + 16 * (i % s.ringSize r + 1) := by
        rw [State.ringAt, Nat.mul_add, Nat.add_assoc]
    _ ≤ s.conf Reg.DXC_RING_BASE_BASE r * 4096 + 16 * s.ringSize r := by gcongr
    _ ≤ s.variant.dramBytes := hfit

/-- Different blocks of a ring lie apart. -/
theorem State.ringAt_apart {s : State} {r i j : Nat} (h : i % s.ringSize r ≠ j % s.ringSize r) :
    s.ringAt r i + 16 ≤ s.ringAt r j ∨ s.ringAt r j + 16 ≤ s.ringAt r i := by
  unfold State.ringAt
  generalize i % s.ringSize r = x at h ⊢
  generalize j % s.ringSize r = y at h ⊢
  omega

/-- The rings lie where the skein puts them. -/
theorem State.ringAt_congr {s t : State} (h : t.skn = s.skn) (r i : Nat) : t.ringAt r i = s.ringAt r i := by
  simp [State.ringAt, State.ringSize, State.conf, h]

theorem State.ringSize_congr {s t : State} (h : t.skn = s.skn) (r : Nat) : t.ringSize r = s.ringSize r := by
  simp [State.ringSize, State.conf, h]

/-- Making room overwrites nothing yet. -/
theorem State.dramByte_ringRoom (s : State) (r need k : Nat) : (s.ringRoom r need).dramByte k = s.dramByte k := by
  apply State.dramByte_congr (by simp)
  unfold State.ringRoom
  dsimp only
  split
  · rfl
  · rw [State.raiseNow_fab]; rfl

/-- Outside a replay, with the ring in use, an entry takes the block that WR names, changes no other byte of DRAM and
moves WR on by one (R40, R96). -/
theorem State.logEntry_writes {s : State} (hr : s.rpl.on = false) (he : s.conf Reg.DXC_RING_CFG_EN 0 = 1) (kind arg : Nat)
    (stamp : Stamp) (row : W32) :
    let a := s.ringAt 0 (s.live Reg.DXC_RING_WR_WR 0)
    let t := s.logEntry kind arg stamp row
    (a + 16 ≤ s.variant.dramBytes → t.dramBytes a 16 = entryBytes kind arg stamp row) ∧ DramSameBut s t a 16 ∧
      t.live Reg.DXC_RING_WR_WR 0 = (s.live Reg.DXC_RING_WR_WR 0 + 1) % s.ringSize 0 % 2 ^ 32 := by
  intro a t
  have hwr : (s.ringRoom 0 1).live Reg.DXC_RING_WR_WR 0 = s.live Reg.DXC_RING_WR_WR 0 :=
    (liveSameBut_ringRoom s 0 1).live (by decide)
  have hskn : (s.ringRoom 0 1).skn = s.skn := by simp
  obtain ⟨hin, hout, hnext⟩ := (s.ringRoom 0 1).ringBlock_writes 0 (length_entryBytes kind arg stamp row)
  rw [hwr, State.ringAt_congr hskn, State.ringRoom_variant] at hin
  rw [hwr, State.ringAt_congr hskn] at hout
  rw [hwr, State.ringSize_congr hskn] at hnext
  have ht : t = (s.ringRoom 0 1).ringBlock 0 (entryBytes kind arg stamp row) := State.logEntry_used hr he kind arg stamp row
  rw [ht]
  exact ⟨hin, fun k hk => (hout k hk).trans (s.dramByte_ringRoom 0 1 k), hnext⟩

end Sys2Proof.Machine
end

section
/-! PROOF. A host write to a live register in the admission record (R40, R96). -/

namespace Sys2Proof.Machine

/-! ### A logged live write -/

/-- In a replay, or with the ring not in use, nothing is logged. -/
theorem State.logEntry_off {s : State} (h : s.rpl.on = true ∨ s.conf Reg.DXC_RING_CFG_EN 0 ≠ 1) (kind arg : Nat)
    (stamp : Stamp) (row : W32) : s.logEntry kind arg stamp row = s := by
  rcases h with h | h
  · exact State.logEntry_replay h kind arg stamp row
  · simp [State.logEntry, State.ringWrite, h]

/-- In a replay, or with the ring not in use, a host write leaves no trace in it. -/
theorem logged_off {s : State} (h : s.rpl.on = true ∨ s.conf Reg.DXC_RING_CFG_EN 0 ≠ 1) (p : Port) (a v : Nat) :
    logged s p a v = s := by
  simp [logged, State.logLive, State.logEntry_off h]

/-- The two entries of a live write, LIVE_WRITE and LIVE_DATA (R40). -/
def liveWriteBytes (s : State) (p : Port) : List Byte := entryBytes 8 p.idx (floorTo 64 s.now) s.row.num

def liveDataBytes (s : State) (a v : Nat) : List Byte :=
  entryBytes 9 0 (BitVec.ofNat 64 (a % 2 ^ 32 + 2 ^ 32 * (v % 2 ^ 32))) s.row.num

/-- A block and the next one of a ring of two or more are apart. -/
theorem mod_ne_succ_mod {n : Nat} (hn : 2 ≤ n) (i : Nat) : i % n ≠ (i + 1) % n := by
  intro h
  have h01 : 0 ≡ 1 [MOD n] := Nat.ModEq.add_left_cancel' i (show i + 0 ≡ i + 1 [MOD n] from h)
  rw [Nat.ModEq, Nat.zero_mod, Nat.mod_eq_of_lt (show 1 < n by omega)] at h01
  exact absurd h01 (by decide)

/-- A live write fills the two blocks from WR on, changes no other byte of DRAM, and moves WR on by two (R40, R96). -/
theorem logged_writes {s : State} (hr : s.rpl.on = false) (he : s.conf Reg.DXC_RING_CFG_EN 0 = 1)
    (h2 : 2 ≤ s.ringSize 0) (h32 : s.ringSize 0 ≤ 2 ^ 32)
    (hfit : s.conf Reg.DXC_RING_BASE_BASE 0 * 4096 + 16 * s.ringSize 0 ≤ s.variant.dramBytes) (p : Port) (a v : Nat) :
    let wr := s.live Reg.DXC_RING_WR_WR 0
    let a0 := s.ringAt 0 wr
    let a1 := s.ringAt 0 (wr + 1)
    let l := logged s p a v
    l.live Reg.DXC_RING_WR_WR 0 = (wr + 2) % s.ringSize 0 ∧
    l.dramBytes a0 16 = liveWriteBytes s p ∧ l.dramBytes a1 16 = liveDataBytes s a v ∧
    ∀ k, (k < a0 ∨ a0 + 16 ≤ k) → (k < a1 ∨ a1 + 16 ≤ k) → l.dramByte k = s.dramByte k := by
  intro wr a0 a1 l
  set u := s.logEntry 0x08 p.idx (floorTo 64 s.now) s.row.num with hu
  have hl : l = u.logEntry 0x09 0 (BitVec.ofNat 64 (a % 2 ^ 32 + 2 ^ 32 * (v % 2 ^ 32))) s.row.num := by
    simp only [l, logged, State.logLive, hu, State.logEntry_row]
  have hskn : u.skn = s.skn := State.logEntry_skn ..
  have hpos : ∀ i, i % s.ringSize 0 < s.ringSize 0 := fun i => Nat.mod_lt _ (by omega)
  have hwrap : ∀ i, i % s.ringSize 0 % 2 ^ 32 = i % s.ringSize 0 := fun i =>
    Nat.mod_eq_of_lt (Nat.lt_of_lt_of_le (hpos i) h32)
  obtain ⟨hin, hout, hnext⟩ := State.logEntry_writes hr he 0x08 p.idx (floorTo 64 s.now) s.row.num
  rw [← hu] at hin hout hnext
  obtain ⟨hin', hout', hnext'⟩ := State.logEntry_writes (s := u) (by rw [hu, State.logEntry_rpl]; exact hr)
    (by rw [State.conf_congr hskn]; exact he) 0x09 0 (BitVec.ofNat 64 (a % 2 ^ 32 + 2 ^ 32 * (v % 2 ^ 32))) s.row.num
  have ha1 : u.ringAt 0 (u.live Reg.DXC_RING_WR_WR 0) = a1 := by
    rw [State.ringAt_congr hskn, hnext, hwrap]
    simp only [a1, State.ringAt, Nat.mod_mod, wr]
  have hvar : u.variant = s.variant := State.logEntry_variant ..
  rw [ha1, ← hl] at hin' hout'
  rw [← hl, State.ringSize_congr hskn, hnext, hwrap, hwrap, Nat.mod_add_mod] at hnext'
  rw [hvar] at hin'
  have hroom := State.ringAt_fits (show 0 < s.ringSize 0 by omega) hfit
  refine ⟨hnext', ?_, hin' (hroom _), fun k h0 h1 => (hout' k h1).trans (hout k h0)⟩
  rw [State.dramBytes_of_sameBut hout' (State.ringAt_apart (mod_ne_succ_mod h2 wr))]
  exact hin (hroom _)

/-- The two words of a LIVE_DATA entry. -/
theorem leAt_liveDataBytes (s : State) (a v : Nat) :
    leAt (liveDataBytes s a v) 0 4 = a % 2 ^ 32 ∧ leAt (liveDataBytes s a v) 4 4 = v % 2 ^ 32 := by
  have hx : (BitVec.ofNat 64 (a % 2 ^ 32 + 2 ^ 32 * (v % 2 ^ 32))).toNat = a % 2 ^ 32 + 2 ^ 32 * (v % 2 ^ 32) := by
    rw [BitVec.toNat_ofNat]; omega
  have hsplit : ∀ n, bytesLE 8 n = bytesLE 4 n ++ bytesLE 4 (n / 2 ^ 32) := by
    intro n
    simp only [bytesLE, List.cons_append, List.nil_append, Nat.div_div_eq_div_mul, Nat.reduceMul, Nat.reducePow]
  unfold liveDataBytes entryBytes
  rw [hx, hsplit]
  constructor
  · rw [List.append_assoc, List.append_assoc, List.append_assoc, leAt_append_left (by simp), leNat_bytesLE]
    omega
  · rw [List.append_assoc, List.append_assoc, List.append_assoc, leAt_append_right (by simp), length_bytesLE,
      leAt_append_left (by simp), leNat_bytesLE]
    omega

/-- Settles O29: outside a replay, with the ring in use, a live write fills the two blocks from WR on. -/
theorem liveWritesAreLogged : Obligations.LiveWritesAreLogged := by
  unfold Obligations.LiveWritesAreLogged
  intro s p a v l
  refine ⟨fun h => logged_off h p a v, ?_⟩
  intro hr he hlo n wr at_ hfit hhi
  have h2 : 2 ≤ s.ringSize 0 :=
    le_trans (by decide : 2 ≤ 2 ^ 12) (Nat.pow_le_pow_right (by decide) hlo)
  have h32 : s.ringSize 0 ≤ 2 ^ 32 := Nat.pow_le_pow_right (by decide) (by omega)
  obtain ⟨hwr, hfirst, hsecond, hrest⟩ := logged_writes hr he h2 h32 hfit p a v
  obtain ⟨hstamp, hrow, harg, hkind⟩ := leAt_entryBytes 8 p.idx (floorTo 64 s.now) s.row.num
  obtain ⟨haddr, hval⟩ := leAt_liveDataBytes s a v
  obtain ⟨-, -, harg', hkind'⟩ := leAt_entryBytes 9 0 (BitVec.ofNat 64 (a % 2 ^ 32 + 2 ^ 32 * (v % 2 ^ 32))) s.row.num
  have head0 : leNat (l.dramBytes (at_ 0) 8) = leAt (liveWriteBytes s p) 0 8 := by
    rw [State.leNat_dramBytes_head _ _ (show 8 ≤ 16 by decide), ← hfirst]; rfl
  have head1 : leNat (l.dramBytes (at_ 1) 4) = leAt (liveDataBytes s a v) 0 4 := by
    rw [State.leNat_dramBytes_head _ _ (show 4 ≤ 16 by decide), ← hsecond]; rfl
  have part0 : ∀ i m, i + m ≤ 16 → leNat (l.dramBytes (at_ 0 + i) m) = leAt (liveWriteBytes s p) i m := fun i m h => by
    rw [State.leNat_dramBytes_part _ _ h, ← hfirst]; rfl
  have part1 : ∀ i m, i + m ≤ 16 → leNat (l.dramBytes (at_ 1 + i) m) = leAt (liveDataBytes s a v) i m := fun i m h => by
    rw [State.leNat_dramBytes_part _ _ h, ← hsecond]; rfl
  have hidx : p.idx % 2 ^ 24 = p.idx := by cases p <;> rfl
  exact ⟨hwr, head0.trans hstamp, (part0 8 4 (by decide)).trans hrow,
    (part0 12 3 (by decide)).trans (harg.trans hidx), (part0 15 1 (by decide)).trans hkind,
    head1.trans haddr, (part1 4 4 (by decide)).trans hval, (part1 12 3 (by decide)).trans harg',
    (part1 15 1 (by decide)).trans hkind', hrest⟩

end Sys2Proof.Machine
end

section
/-! PROOF. A spent budget and a full output buffer (R82, R86, R105). -/

namespace Sys2Proof.Machine

/-! ### Cores that stop, and full output buffers -/

/-- No variant has more than eight cores (R3). -/
theorem Variant.cores_le (v : Variant) : v.cores ≤ 8 := by
  unfold Variant.cores
  split <;> decide

/-- A core that is ready for an instruction fetches. -/
theorem State.fetches_of_ready {s : State} {c cyc : Nat} (h : DexReady s c cyc) : s.fetches c = true := by
  obtain ⟨hc, hrows, hrun, -, hhalt, -, -⟩ := h
  simp only [State.fetches, State.rowsRun, State.halted, Bool.and_eq_true, decide_eq_true_eq, Bool.or_eq_true,
    Bool.not_eq_true']
  refine ⟨⟨⟨hc, hrows⟩, hrun⟩, ?_⟩
  cases hflag : s.flag Reg.DXC_STAT_HALTED c
  · exact .inl rfl
  · exact .inr (hhalt hflag)

/-- The cores depend on the table of cores alone. -/
theorem State.core_congr {s t : State} (h : t.cores = s.cores) (n : Nat) : t.core n = s.core n := by
  simp [State.core, h]

/-- The present instant depends on device time, and in a replay on T0. -/
theorem State.now_congr {s t : State} {ks : List Nat} (h : LiveSameBut s t ks) (hlo : Reg.DXC_RPL_T0_LO_T0.key 0 0 ∉ ks)
    (hhi : Reg.DXC_RPL_T0_HI_T0.key 0 0 ∉ ks) (hrpl : t.rpl = s.rpl) (htime : t.time = s.time) : t.now = s.now := by
  simp only [State.now, State.live64, hrpl, htime, h.live hlo, h.live hhi]

/-! #### The overrun stop -/

/-- The registers of core `c` that an overrun writes before its event. -/
def overrunKeys (c : Nat) : List Nat := [Reg.DXC_STAT_LATE_SEEN.key c 0, Reg.DXC_LATECNT_CNT.key c 0]

/-- An overrun up to its event: the outputs go, and the core's late marks are set (R82). -/
def State.overrunMark (s : State) (c : Nat) : State :=
  ((s.setCore c ((s.core c).discard.stick stLate)).setLive Reg.DXC_STAT_LATE_SEEN 1 c).bumpSat Reg.DXC_LATECNT_CNT 1 c

/-- An overrun up to the end of the row: the event and the entry in the admission record. -/
def State.overrunNote (s : State) (c : Nat) : State :=
  ((s.overrunMark c).raiseNow 32 c).logEntry 0x05 c s.row.cur s.row.num

theorem State.overrun_eq (s : State) (c : Nat) : s.overrun c = (s.overrunNote c).endRow c false := by
  simp only [State.overrun, State.overrunNote, State.overrunMark, State.raiseNow_row, State.bumpSat_row, State.setLive_row,
    State.setCore_row]

theorem State.liveSameBut_overrunMark (s : State) (c : Nat) : LiveSameBut s (s.overrunMark c) (overrunKeys c) :=
  ((LiveSameBut.of_regs_eq (State.setCore_regs s c _) _).setLive (by simp [overrunKeys]) _).setLive
    (by simp [overrunKeys]) _

theorem State.core_overrunNote (s : State) (c d : Nat) :
    (s.overrunNote c).core d = (s.setCore c ((s.core c).discard.stick stLate)).core d :=
  State.core_congr (by simp [State.overrunNote, State.overrunMark]) d

/-- The registers that none but an overrun of core `c` writes lie apart from those of events and rings. -/
theorem coreKey_apart {c : Nat} (hc : c < 8) {f : Fld}
    (hf : f ∈ [Reg.DXC_STAT_LATE_SEEN, Reg.DXC_LATECNT_CNT, Reg.DXC_USED_USED, Reg.DXC_STAT_OUTOVF]) {e : Nat} (he : e < 128) :
    f.key c 0 ∉ eventReads e ∧ f.key c 0 ∉ ringKeys 0 ∧ f.key c 0 ≠ Reg.DXC_RPL_T0_LO_T0.key 0 0 ∧
      f.key c 0 ≠ Reg.DXC_RPL_T0_HI_T0.key 0 0 := by
  have hrange : 8388608 ≤ f.key c 0 ∧ f.key c 0 < 12582912 := by
    simp only [List.mem_cons, List.not_mem_nil, or_false] at hf
    rcases hf with rfl | rfl | rfl | rfl <;>
      simp only [Fld.key, Reg.DXC_STAT_LATE_SEEN, Reg.DXC_LATECNT_CNT, Reg.DXC_USED_USED, Reg.DXC_STAT_OUTOVF] <;> omega
  generalize f.key c 0 = k at hrange
  simp only [eventReads, ringKeys, eventKeys, Fld.key, Reg.EVT_ROUTE_HPA, Reg.EVT_ROUTE_HPB, Reg.EVT_CNT_CNT, Reg.EVT_ARG_ARG,
    Reg.EVT_STAMP_LO_STAMP, Reg.EVT_STAMP_HI_STAMP, Reg.EVT_PEND_PEND, Reg.DXC_RING_WR_WR, Reg.DXC_RING_RD_RD,
    Reg.DXC_RING_STAT_OVF, Reg.DXC_RPL_T0_LO_T0, Reg.DXC_RPL_T0_HI_T0, List.mem_cons, List.not_mem_nil, or_false, not_or]
  omega

/-- An overrun leaves its core idle, without outputs and with STICKY.LATE, and every other core as it is. -/
theorem State.core_overrun (s : State) (c : Nat) :
    (s.overrun c).core c = { s.core c with
      sticky := (s.core c).sticky ||| 8, run := .idle, todo := [], done := false, outs := [], sentTo := []
      entries := 0, payload := 0, xfers := 0, xferIn := 0, xferOut := 0 } ∧
    ∀ d, d ≠ c → (s.overrun c).core d = s.core d := by
  rw [State.overrun_eq]
  constructor
  · rw [State.endRow, State.core_congr (State.setLive_cores ..), State.core_setCore_same, State.core_overrunNote,
      State.core_setCore_same]
    rfl
  · intro d hd
    rw [State.endRow, State.core_congr (State.setLive_cores ..), State.core_setCore_ne _ hd, State.core_overrunNote,
      State.core_setCore_ne _ hd]

/-- Beside its core, an overrun changes registers, raises and the admission record at most. -/
theorem State.overrun_frame (s : State) (c : Nat) :
    s.overrun c = { s with
      cores := (s.overrun c).cores, regs := (s.overrun c).regs, boot := (s.overrun c).boot, fab := (s.overrun c).fab } := by
  have h : RingFrame (s.overrunMark c) (s.overrunNote c) := (ringFrame_raiseNow _ _ _).trans (ringFrame_logEntry _ _ _ _ _)
  have ht : s.overrun c = State.endRow { s.overrunMark c with
      regs := (s.overrunNote c).regs, boot := (s.overrunNote c).boot, fab := (s.overrunNote c).fab } c false := by
    rw [State.overrun_eq]
    exact congrArg (fun x : State => x.endRow c false) h
  rw [ht]
  rfl

/-- DXC_USED takes the cycles of the row. -/
theorem State.live_used_endRow (s : State) (c : Nat) (b : Bool) :
    (s.endRow c b).live Reg.DXC_USED_USED c = (s.core c).used % 2 ^ 32 :=
  State.live_setLive_same _ Reg.DXC_USED_USED _ _ _ (by decide)

/-- The end of a row writes DXC_USED of its core alone. -/
theorem State.liveSameBut_endRow (s : State) (c : Nat) (b : Bool) : LiveSameBut s (s.endRow c b) [Reg.DXC_USED_USED.key c 0] :=
  LiveSameBut.setLive (t := s.setCore c _) (LiveSameBut.of_regs_eq (State.setCore_regs ..) _) (by simp) _

/-- What an overrun leaves in DXC_STAT.LATE_SEEN, DXC_LATECNT and DXC_USED of its core (R82, R105). -/
theorem State.live_overrun (s : State) {c : Nat} (hc : c < 8) :
    let t := s.overrun c
    t.live Reg.DXC_STAT_LATE_SEEN c = 1 ∧
    t.live Reg.DXC_LATECNT_CNT c = min 65535 (s.live Reg.DXC_LATECNT_CNT c + 1) ∧
    t.live Reg.DXC_USED_USED c = (s.core c).used % 2 ^ 32 := by
  intro t
  have hrest : LiveSameBut (s.overrunMark c) t (Reg.DXC_USED_USED.key c 0 :: (eventReads 32 ++ ringKeys 0)) := by
    have hraise := ((s.overrunMark c).liveSameBut_raiseNow 32 c).mono
      (ls := Reg.DXC_USED_USED.key c 0 :: (eventReads 32 ++ ringKeys 0)) (fun k hk => by simp [eventReads, hk])
    have hlog := (liveSameBut_logEntry ((s.overrunMark c).raiseNow 32 c) 0x05 c s.row.cur s.row.num).mono
      (ls := Reg.DXC_USED_USED.key c 0 :: (eventReads 32 ++ ringKeys 0)) (fun k hk => by simp [hk])
    have hend := ((s.overrunNote c).liveSameBut_endRow c false).mono
      (ls := Reg.DXC_USED_USED.key c 0 :: (eventReads 32 ++ ringKeys 0)) (by simp)
    simp only [t, State.overrun_eq]
    exact (hraise.trans hlog).trans hend
  have hkeep : ∀ f ∈ [Reg.DXC_STAT_LATE_SEEN, Reg.DXC_LATECNT_CNT], f.key c 0 ≠ Reg.DXC_USED_USED.key c 0 →
      t.live f c = (s.overrunMark c).live f c := by
    intro f hf hne
    obtain ⟨he, hr, -, -⟩ := coreKey_apart hc (f := f) (e := 32) (by
      simp only [List.mem_cons, List.not_mem_nil, or_false] at hf ⊢; tauto) (by decide)
    exact hrest.live (by simp only [List.mem_cons, List.mem_append, not_or]; exact ⟨hne, he, hr⟩)
  refine ⟨?_, ?_, ?_⟩
  · rw [hkeep _ (by simp) (by simp only [Fld.key, Reg.DXC_STAT_LATE_SEEN, Reg.DXC_USED_USED]; omega),
      State.overrunMark, State.bumpSat, State.live_setLive_ne _ _ _ _ _ _ _ _
        (by simp only [Fld.key, Reg.DXC_STAT_LATE_SEEN, Reg.DXC_LATECNT_CNT]; omega),
      State.live_setLive_same _ _ _ _ _ (by decide)]
    rfl
  · rw [hkeep _ (by simp) (by simp only [Fld.key, Reg.DXC_LATECNT_CNT, Reg.DXC_USED_USED]; omega),
      State.overrunMark, State.bumpSat, State.live_setLive_same _ _ _ _ _ (by decide), State.live_setLive_ne _ _ _ _ _ _ _ _
        (by simp only [Fld.key, Reg.DXC_STAT_LATE_SEEN, Reg.DXC_LATECNT_CNT]; omega), State.live_congr (State.setCore_regs ..)]
    exact Nat.mod_eq_of_lt (Nat.lt_of_le_of_lt (Nat.min_le_left _ _) (by decide))
  · simp only [t, State.overrun_eq]
    rw [State.live_used_endRow, State.core_overrunNote, State.core_setCore_same]
    rfl

/-- Outside a replay, with the ring in use, an overrun writes a LATE_CORE entry with the stamp and number of its row
into the block that WR names (R40, R82). -/
theorem State.dramBytes_overrun {s : State} {c : Nat} (hr : s.rpl.on = false)
    (he : s.conf Reg.DXC_RING_CFG_EN 0 = 1) (hfit : s.ringAt 0 (s.live Reg.DXC_RING_WR_WR 0) + 16 ≤ s.variant.dramBytes) :
    (s.overrun c).dramBytes (s.ringAt 0 (s.live Reg.DXC_RING_WR_WR 0)) 16 = entryBytes 5 c s.row.cur s.row.num := by
  set u := (s.overrunMark c).raiseNow 32 c with hu
  have hskn : u.skn = s.skn := by simp [hu, State.overrunMark]
  have hwr : u.live Reg.DXC_RING_WR_WR 0 = s.live Reg.DXC_RING_WR_WR 0 := by
    rw [hu, ((s.overrunMark c).liveSameBut_raiseNow 32 c).live (by decide)]
    refine (s.liveSameBut_overrunMark c).live ?_
    simp only [overrunKeys, Fld.key, Reg.DXC_RING_WR_WR, Reg.DXC_STAT_LATE_SEEN, Reg.DXC_LATECNT_CNT, List.mem_cons,
      List.not_mem_nil, or_false, not_or]
    omega
  obtain ⟨hin, -, -⟩ := State.logEntry_writes (s := u) (by simpa [hu, State.overrunMark] using hr)
    (by rw [State.conf_congr hskn]; exact he) 0x05 c s.row.cur s.row.num
  rw [hwr, State.ringAt_congr hskn] at hin
  have hin := hin (by simpa [hu, State.overrunMark] using hfit)
  rw [State.overrun_eq]
  exact hin

/-- Without the ring an overrun raises its event, and writes no further register and nothing of the fabric (R82, R86). -/
theorem State.overrun_unlogged {s : State} {c : Nat} (hc : c < 8) (he : s.conf Reg.DXC_RING_CFG_EN 0 = 0) :
    (s.overrun c).fab = s.fab ∧ Raised s (s.overrun c) 32 c (floorTo 64 s.now) ∧
      LiveSameBut s (s.overrun c) (Reg.DXC_STAT_LATE_SEEN.key c 0 :: Reg.DXC_LATECNT_CNT.key c 0 ::
        Reg.DXC_USED_USED.key c 0 :: eventKeys 32) := by
  have hmark := s.liveSameBut_overrunMark c
  set m := s.overrunMark c with hm
  have hlog : s.overrun c = (m.raiseNow 32 c).endRow c false := by
    rw [State.overrun_eq, State.overrunNote, State.logEntry_unused]
    rw [State.conf_congr (s := s) (by simp [State.overrunMark]), he]
  obtain ⟨hl, -, hllo, hlhi⟩ := coreKey_apart hc (f := Reg.DXC_STAT_LATE_SEEN) (e := 32) (by simp) (by decide)
  obtain ⟨hn, -, hnlo, hnhi⟩ := coreKey_apart hc (f := Reg.DXC_LATECNT_CNT) (e := 32) (by simp) (by decide)
  obtain ⟨hw, -, -, -⟩ := coreKey_apart hc (f := Reg.DXC_USED_USED) (e := 32) (by simp) (by decide)
  have hnow : m.now = s.now := State.now_congr hmark (by simp [overrunKeys, hllo.symm, hnlo.symm])
    (by simp [overrunKeys, hlhi.symm, hnhi.symm]) rfl rfl
  refine ⟨?_, ?_, ?_⟩
  · rw [hlog]
    exact State.raiseNow_fab m 32 c
  · have hraised : Raised m (m.raiseNow 32 c) 32 c (floorTo 64 s.now) := by
      have h : Raised m (m.raiseNow 32 c) 32 c (floorTo 64 m.now) := State.raised_raise rfl c _
      rwa [hnow] at h
    rw [hlog]
    refine hraised.frame (ks := Reg.DXC_USED_USED.key c 0 :: overrunKeys c) (hmark.mono (by simp))
      ((State.liveSameBut_endRow _ c false).mono (by simp)) ?_ rfl rfl
    intro k hk hmem
    simp only [overrunKeys, List.mem_cons, List.not_mem_nil, or_false] at hmem
    rcases hmem with rfl | rfl | rfl
    · exact hw hk
    · exact hl hk
    · exact hn hk
  · rw [hlog]
    exact ((hmark.mono (by simp [overrunKeys])).trans ((m.liveSameBut_raiseNow 32 c).mono (fun k hk => by simp [hk]))).trans
      ((State.liveSameBut_endRow _ c false).mono (by simp))

/-! #### Full output buffers -/

/-- In a row that has overflowed an output is discarded (R86). -/
theorem State.pushOut_overflowed {s : State} {c : Nat} (h : 2048 < (s.core c).entries) (o : Out) (p : Nat) :
    s.pushOut c o p = s := by
  simp only [State.pushOut, h, if_true]

/-- The first output that finds the entries or the payload bytes used up closes the buffer, sets OUTOVF and raises the
event (R86). -/
theorem State.pushOut_full {s : State} {c : Nat} (h : (s.core c).entries ≤ 2048)
    (hfull : (s.core c).entries = 2048 ∨ 8192 ≤ (s.core c).payload) (o : Out) (p : Nat) :
    s.pushOut c o p =
      ((s.setCore c { s.core c with entries := 2049 }).setLive Reg.DXC_STAT_OUTOVF 1 c).raiseNow 23 c := by
  have hany : (s.core c).entries = 2048 ∨ 8192 ≤ (s.core c).payload ∨ 8192 < (s.core c).payload + p :=
    hfull.elim .inl (fun h => .inr (.inl h))
  simp only [State.pushOut, Nat.not_lt.mpr h, hany, if_true, if_false]

/-- A device instruction whose operands are accepted offers its output to the buffer of a core that has passed it. -/
theorem State.dexOut_offers {s : State} {c cyc : Nat} {legal : Bool} (h : DexReady s c cyc) (hl : legal = true)
    {build : State → Core → Option (Out × Nat)} {o : Out} {p : Nat}
    (hb : build (s.setCore c ((s.core c).charged cyc)) ((s.core c).charged cyc) = some (o, p)) :
    ∃ u, OnlyCore s u c ((s.core c).passed cyc) ∧ s.dexOut c legal cyc build = .next (u.pushOut c o p) := by
  refine ⟨_, onlyCore_setCore_setCore s c ((s.core c).charged cyc) ((s.core c).passed cyc), ?_⟩
  unfold State.dexOut
  rw [State.dex_ready h hl]
  simp only [State.core_setCore_same, hb]
  rfl

/-- BUDGET_OVERRUN stops a ready core whose next instruction its budget does not hold. -/
theorem exec_budgetOverrun {s : State} {c : Nat} (h : DexReady s c 0) (hb : s.flag Reg.DXC_CTL_BENCH c = false)
    (hlt : s.conf Reg.DXC_BUDGET_BUDGET c < (s.core c).used + wordCycles (s.core c).word) :
    exec (.budgetOverrun c) s = .next (s.overrun c) := by
  change execBudgetOverrun c s = _
  obtain ⟨-, -, -, hpc, -⟩ := id h
  simp only [execBudgetOverrun, State.fetches_of_ready h, State.bench, hb, hpc, hlt, decide_true, Bool.not_false,
    Bool.and_true, if_true]

/-- The operands of SEMR in range: the core passes it and its release goes to the buffer. -/
theorem exec_semr_offers {s : State} {c : Nat} {ra : BitVec 5} (h : DexReady s c 2) (hn : ((s.core c).s ra).toNat < 32) :
    ∃ u, OnlyCore s u c ((s.core c).passed 2) ∧
      exec (.semr c ⟨0, ra, 0, 0⟩) s = .next (u.pushOut c (.semr ((s.core c).s ra).toNat) 0) := by
  change ∃ u, OnlyCore s u c ((s.core c).passed 2) ∧ execSemr c ⟨0, ra, 0, 0⟩ s = _
  unfold execSemr
  exact State.dexOut_offers h (by simp [devLegal]) (by simp [hn])

/-- An output that finds the buffer of core `c` used up closes it: DXC_STAT.OUTOVF and its event, and nothing else (R86). -/
theorem State.pushOut_closes {s u : State} {c : Nat} {k : Core} (hc : c < 8) (hu : OnlyCore s u c k)
    (h : k.entries ≤ 2048) (hfull : k.entries = 2048 ∨ 8192 ≤ k.payload) (o : Out) (p : Nat) :
    let t := u.pushOut c o p
    t.core c = { k with entries := 2049 } ∧ (∀ d, d ≠ c → t.core d = s.core d) ∧
      t = { s with cores := t.cores, regs := t.regs, boot := t.boot } ∧ t.live Reg.DXC_STAT_OUTOVF c = 1 ∧
      Raised s t 23 c (floorTo 64 s.now) ∧ LiveSameBut s t (Reg.DXC_STAT_OUTOVF.key c 0 :: eventKeys 23) := by
  obtain ⟨hcore, hothers, hframe⟩ := hu
  subst hcore
  intro t
  set m := (u.setCore c { u.core c with entries := 2049 }).setLive Reg.DXC_STAT_OUTOVF 1 c with hm
  have ht : t = m.raiseNow 23 c := State.pushOut_full h hfull o p
  obtain ⟨hkey, -, hlo, hhi⟩ := coreKey_apart hc (f := Reg.DXC_STAT_OUTOVF) (e := 23) (by simp) (by decide)
  have hregs : (u.setCore c { u.core c with entries := 2049 }).regs = s.regs := by rw [State.setCore_regs, hframe]
  have hmark : LiveSameBut s m [Reg.DXC_STAT_OUTOVF.key c 0] := (LiveSameBut.of_regs_eq hregs _).setLive (by simp) _
  have hmframe : m = { s with cores := m.cores, regs := m.regs } := by rw [hm, hframe]; rfl
  have hnow : m.now = s.now := State.now_congr hmark (by simp [hlo.symm]) (by simp [hhi.symm])
    (by rw [hmframe]) (by rw [hmframe])
  have hraise := m.raise_frame 23 c (floorTo 64 m.now)
  refine ⟨?_, ?_, ?_, ?_, ?_, ?_⟩
  · rw [ht, State.core_congr (State.raiseNow_cores ..), hm, State.core_congr (State.setLive_cores ..),
      State.core_setCore_same]
  · intro d hd
    rw [ht, State.core_congr (State.raiseNow_cores ..), hm, State.core_congr (State.setLive_cores ..),
      State.core_setCore_ne _ hd, hothers d hd]
  · have hcores : t.cores = m.cores := by rw [ht, State.raiseNow_cores]
    rw [hcores, ht]
    exact hraise.trans (congrArg (fun x : State => { x with
      regs := (m.raiseNow 23 c).regs, boot := (m.raiseNow 23 c).boot }) hmframe)
  · rw [ht, (m.liveSameBut_raiseNow 23 c).live (fun hk => hkey (by simp [eventReads, hk])), hm,
      State.live_setLive_same _ _ _ _ _ (by decide)]
    rfl
  · have hraised : Raised m (m.raiseNow 23 c) 23 c (floorTo 64 m.now) := State.raised_raise rfl c _
    rw [ht, ← hnow]
    refine hraised.frame hmark (LiveSameBut.refl _ _) ?_ (by rw [hmframe]) (by rw [hmframe])
    intro k hk hmem
    rw [List.mem_singleton] at hmem
    exact hkey (hmem ▸ hk)
  · rw [ht]
    exact (hmark.mono (by simp)).trans ((m.liveSameBut_raiseNow 23 c).mono (List.subset_cons_self _ _))

/-- Settles O21: an overrun by what it leaves in the core, the registers and the admission record; an output beyond a
full buffer by what SEMR offers to it. -/
theorem fullBuffersAndSpentBudgetsDiscard : Obligations.FullBuffersAndSpentBudgetsDiscard := by
  unfold Obligations.FullBuffersAndSpentBudgetsDiscard
  constructor
  · intro s c hready hbench k hlt
    have hc : c < 8 := lt_of_lt_of_le hready.1 s.variant.cores_le
    obtain ⟨hcore, hothers⟩ := s.core_overrun c
    obtain ⟨hlate, hcnt, hused⟩ := s.live_overrun hc
    refine ⟨s.overrun c, exec_budgetOverrun hready hbench hlt, hcore, hothers, hlate, hcnt, hused, s.overrun_frame c,
      ?_, fun he => s.overrun_unlogged hc he⟩
    intro hr he a e hfit
    obtain ⟨hstamp, hrow, harg, hkind⟩ := leAt_entryBytes 5 c s.row.cur s.row.num
    have hbytes : e = entryBytes 5 c s.row.cur s.row.num := State.dramBytes_overrun hr he hfit
    rw [hbytes]
    exact ⟨hstamp, hrow, harg.trans (Nat.mod_eq_of_lt (by omega)), hkind⟩
  · intro s c ra hready hn k
    have hc : c < 8 := lt_of_lt_of_le hready.1 s.variant.cores_le
    obtain ⟨u, hu, hexec⟩ := exec_semr_offers hready hn
    constructor
    · intro hle hfull
      exact ⟨_, hexec, State.pushOut_closes hc hu hle hfull _ 0⟩
    · intro hover
      rw [State.pushOut_overflowed (by rw [hu.1]; exact hover)] at hexec
      exact ⟨u, hexec, hu⟩

end Sys2Proof.Machine
end

section
/-! PROOF. The row number of a core after a boundary that applies a posted SEMR. -/

namespace Sys2Proof.Machine

/-! ### A posted SEMR that names no semaphore -/

/-- A running row 15 whose core 0 has posted the release of "semaphore" 253974. The field that would be its OWNER has
the bit address of DXC_ROWNUM of core 0: 262144 + 32 · 253974 = 8389312. -/
def strayRelease : State :=
  { State.reset with
    variant := ⟨.s1, false, false, 1, 1⟩
    power := { State.reset.power with phase := .rows }
    row := ⟨15, 6400000, 0, 12800000, 1, true⟩
    cores := [(0, { Core.fresh with done := true, outs := [.semr 253974] })] }

set_option maxRecDepth 10000 in
/-- At the boundary core 0's DXC_ROWNUM takes the number 16, which is how OWNER names core 0, and the release then
frees it. -/
theorem rowNumber_strayRelease :
    (match exec .rowBoundary strayRelease with
      | .next t => t.live Reg.DXC_ROWNUM_ROW 0
      | _ => 16) = 0 := by decide

/-- Refutes O60: the clause that gives each core the number of its row does not ask that no output is posted. A posted
SEMR is bound to a semaphore below 32 by the instruction that posts it, not by the state; one that names 253974 frees
the row number of core 0 in step 3 of the boundary of row 16. -/
theorem not_rowBoundaryAndIdleCycle : ¬ Obligations.RowBoundaryAndIdleCycle := by
  unfold Obligations.RowBoundaryAndIdleCycle
  intro h
  obtain ⟨-, -, -, hrows, -⟩ := h strayRelease 0 ⟨false, 0, 0, false, none⟩ rfl
  obtain ⟨t, ht, -, -, -, -, hcore, -⟩ := hrows rfl rfl (by decide) (by decide)
  obtain ⟨hnum, -⟩ := hcore (by decide)
  have hzero := rowNumber_strayRelease
  rw [ht] at hzero
  exact absurd (hzero.symm.trans hnum) (by decide)

end Sys2Proof.Machine
end

section
/-! PROOF. The timeout of a fusion frame in a replay. -/

namespace Sys2Proof.Machine

/-! ### A replay whose record holds a late frame's timeout back -/

/-- A frame of source 0 that has waited since device time 0. -/
def lateFrame : Frame := ⟨0, 7, 2, 0, 1, 1, 1, 4, [], [0], [], 0, 0⟩

/-- A replay in running rows whose input log (ring 1) holds one entry of two blocks, admitted at 0. -/
def heldTimeout : State :=
  { State.reset with
    power := { State.reset.power with phase := .rows }
    rpl := { State.reset.rpl with on := true }
    regs := [(Reg.DXC_RING_WR_WR.key 1 0, 2)]
    fge := { State.reset.fge with sources := [(0, { Source.fresh with partials := [lateFrame] })] } }

theorem recordFirst_heldTimeout :
    heldTimeout.recordFirst (lateFrame.first + subTicks (heldTimeout.conf Reg.FGE_STIME_FPER 0 * 256000)) = true := by
  decide

/-- While the record brings something first, FRAME_TIMEOUT waits (R42). -/
theorem exec_frameTimeout_recordFirst {s : State} {i : Nat} {f : Frame} (hf : (s.source i).partials = [f])
    (hrec : s.recordFirst (f.first + subTicks (s.conf Reg.FGE_STIME_FPER i * 256000)) = true) :
    exec (.frameTimeout i) s = .next s := by
  change execFrameTimeout i s = _
  have hsort : sortBy (fun (f g : Frame) => sAtOrBefore f.first g.first) [f] = [f] := rfl
  simp only [execFrameTimeout, hf, hsort, hrec, if_true]

/-- Any output of the fusion engine: the statement asks for one, the refuted clause does not look at it. -/
def someOutput : FOut := ⟨0, 0, 0, false, 0, 0, 0, 0, none, false, false, [], 0, false, false, false, [], []⟩

/-- Refutes O55: the clause on FRAME_TIMEOUT asks for the frame to be discarded in every state, a replay included. In a
replay whose input log holds an input admitted before the frame's end, FRAME_TIMEOUT waits for the record and the frame
stays. -/
theorem not_fusionFramesOutputsAndDisputes : ¬ Obligations.FusionFramesOutputsAndDisputes := by
  unfold Obligations.FusionFramesOutputsAndDisputes
  intro h
  obtain ⟨-, -, -, htimeout, -⟩ := h heldTimeout .hpa 0 ⟨0, 0, 0, []⟩ [] 0 0 lateFrame someOutput rfl (by decide)
    (by decide)
  obtain ⟨t, ht, -, -, hsource, -⟩ := htimeout rfl
  obtain rfl : heldTimeout = t := by
    injection (exec_frameTimeout_recordFirst (i := 0) rfl recordFirst_heldTimeout).symm.trans ht
  have hpartials : (heldTimeout.source 0).partials = [] := congrArg Source.partials hsource
  exact absurd hpartials (by decide)

end Sys2Proof.Machine
end

section
/-! PROOF. A sync period wider than its field. -/

namespace Sys2Proof.Machine

/-! ### A sync period wider than its field -/

/-- Running rows at a device time close to the end of its 64 bits, with IMU_SYNC enabled and 2^32 − 1 in SPER, a field
of 16 bits. -/
def wideSyncPeriod : State :=
  { State.reset with
    power := { State.reset.power with phase := .rows }
    time := { State.reset.time with dt := 18446743936270598144 }
    skn := { State.reset.skn with act := { State.reset.skn.act with
      flds := [(Reg.SIN_ISYNC_SPER.key 0 0, 0xFFFFFFFF), (Reg.SIN_ISYNC_EN.key 0 0, 1)] } } }

/-- The next grid instant lies past the end of device time, and its stamp has wrapped. -/
theorem syncLast_wideSyncPeriod :
    (match exec .imuSyncPulse wideSyncPeriod with
      | .next t => t.inp.syncLast
      | _ => none) = some 862012821008384 := by decide

/-- Refutes O44: the clause on IMU_SYNC bounds the present instant so that a period of 16 bits cannot pass the end of
device time, but it does not ask that SPER keeps to its 16 bits. With 2^32 − 1 in the ACTIVE slot the next grid instant
wraps, and its stamp lies before the present instant. A write of a staged field cuts its value to the width, but the
statement does not exclude the state. -/
theorem not_conversionsBurstsAndAdmission : ¬ Obligations.ConversionsBurstsAndAdmission := by
  unfold Obligations.ConversionsBurstsAndAdmission
  intro h
  obtain ⟨-, -, -, -, -, hsync, -⟩ := h wideSyncPeriod 0 0 0 false (List.replicate 16 0) ⟨0, 0, 0, 0, []⟩ rfl rfl
    (by decide) rfl (by decide) (by decide)
  obtain ⟨t, src, ht, hframe, hgrid⟩ := hsync (by decide) rfl
  obtain ⟨-, hbase, -⟩ := hgrid (by decide) (by decide)
  have hsrc : some src = some 862012821008384 := by
    have hlast := syncLast_wideSyncPeriod
    rw [ht] at hlast
    rwa [hframe] at hlast
  injection hsrc with hsrc
  subst hsrc
  exact absurd hbase (by decide)

end Sys2Proof.Machine
end

section
/-! PROOF. No command of a core takes a core out of order (R76, R77, R102, R133). -/

namespace Sys2Proof.Machine

/-! ### Cores in order -/

/-- A write lists no key but its own. -/
theorem Tab.forall_key_put {α : Type} [DecidableEq α] {P : Nat → Prop} {d : α} {t : Tab α} {x : Nat} (v : α)
    (ht : ∀ p ∈ t, P p.1) (hx : P x) : ∀ p ∈ Tab.put d t x v, P p.1 := by
  have hwithout : ∀ u : Tab α, (∀ p ∈ u, P p.1) → ∀ p ∈ Tab.without x u, P p.1 :=
    fun u hu p hp => hu p (List.mem_of_mem_filter hp)
  induction t with
  | nil =>
    rw [Tab.put]
    split <;> simp [hx]
  | cons q t ih =>
    obtain ⟨hq, htail⟩ := List.forall_mem_cons.1 ht
    have hnew : ∀ u : Tab α, (∀ p ∈ u, P p.1) →
        ∀ p ∈ (if v = d then Tab.without x u else (x, v) :: Tab.without x u), P p.1 := by
      intro u hu
      split
      · exact hwithout u hu
      · exact List.forall_mem_cons.2 ⟨hx, hwithout u hu⟩
    rw [Tab.put]
    split
    · exact hnew _ ht
    · split
      · exact hnew _ htail
      · exact List.forall_mem_cons.2 ⟨hq, ih htail⟩

/-- The order of a core depends on PC, the registers, the accumulators and data memory alone. -/
theorem CoreInOrder.congr {k j : Core} (h : CoreInOrder k) (hpc : j.pc = k.pc) (hgpr : j.gpr = k.gpr)
    (hacc : j.acc = k.acc) (hmem : j.dmem = k.dmem) : CoreInOrder j := by
  unfold CoreInOrder
  rw [hpc, hgpr, hacc, hmem]
  exact h

/-- A core in order stays so at any aligned PC up to the end of instruction memory. -/
theorem CoreInOrder.setPc {k : Core} (h : CoreInOrder k) {p : Nat} (halign : p % 4 = 0) (hle : p ≤ 0x10000) :
    CoreInOrder { k with pc := p } :=
  ⟨halign, hle, h.2.2⟩

/-- An instruction of a core inside instruction memory leaves PC on the next word. -/
theorem CoreInOrder.passPc {k : Core} (h : CoreInOrder k) (hpc : k.pc < 0x10000) : CoreInOrder { k with pc := k.pc + 4 } := by
  have halign := h.1
  exact h.setPc (by omega) (by omega)

/-- A good target is a PC in order (R133). -/
theorem CoreInOrder.jump {k : Core} (h : CoreInOrder k) {t : Int} (ht : goodTarget t = true) :
    CoreInOrder { k with pc := t.toNat } := by
  simp only [goodTarget, Bool.and_eq_true, decide_eq_true_eq] at ht
  exact h.setPc (by omega) (by omega)

theorem coreInOrder_fresh : CoreInOrder Core.fresh := by
  refine ⟨?_, ?_, ?_, ?_, ?_, ?_, ?_, ?_⟩ <;> simp [Core.fresh, Tab.wf_nil]

/-! ### Effects on one core -/

/-- `j` is in order if `k` is, and stands at the same PC: what the effect of an instruction that goes on at the next word
must be. -/
def Core.Keeps (k j : Core) : Prop := (CoreInOrder k → CoreInOrder j) ∧ j.pc = k.pc

theorem Core.Keeps.refl (k : Core) : k.Keeps k := ⟨id, rfl⟩

theorem Core.Keeps.trans {k j i : Core} (h : k.Keeps j) (h' : j.Keeps i) : k.Keeps i :=
  ⟨h'.1 ∘ h.1, h'.2.trans h.2⟩

theorem Core.Keeps.ite {k i j : Core} {p : Prop} [Decidable p] (hi : k.Keeps i) (hj : k.Keeps j) :
    k.Keeps (if p then i else j) := by
  split
  · exact hi
  · exact hj

/-- Then the core that goes on behind the instruction is in order. -/
theorem Core.Keeps.pass {k j : Core} (h : k.Keeps j) (hk : CoreInOrder k) (hpc : k.pc < 0x10000) :
    CoreInOrder { j with pc := k.pc + 4 } := by
  rw [← h.2] at hpc ⊢
  exact (h.1 hk).passPc hpc

theorem Core.keeps_put (k : Core) (r : BitVec 5) (v : W32) : k.Keeps (k.put r v) := by
  by_cases hr : r = 0
  · rw [Core.put, if_pos hr]
    exact Core.Keeps.refl k
  · rw [Core.put, if_neg hr]
    refine ⟨fun ⟨halign, hle, hgpr, hregs, hrest⟩ => ⟨halign, hle, Tab.wf_put 0 _ v hgpr, ?_, hrest⟩, rfl⟩
    refine Tab.forall_key_put (P := fun x => 1 ≤ x ∧ x < 32) v hregs ⟨?_, r.isLt⟩
    exact Nat.one_le_iff_ne_zero.2 fun h0 => hr (BitVec.eq_of_toNat_eq h0)

theorem Core.keeps_putA (k : Core) (r : BitVec 2) (v : BitVec 64) : k.Keeps (k.putA r v) :=
  ⟨fun ⟨halign, hle, hgpr, hregs, hacc, haccs, hrest⟩ => ⟨halign, hle, hgpr, hregs, Tab.wf_put 0 _ v hacc,
    Tab.forall_key_put (P := fun x => x < 4) v haccs r.isLt, hrest⟩, rfl⟩

theorem Core.putBytes_cons (k : Core) (a : Nat) (b : Byte) (t : List Byte) :
    k.putBytes a (b :: t) =
      (if 0x10000 ≤ a ∧ a < 0x40000 then { k with dmem := Tab.put 0 k.dmem a b } else k).putBytes (a + 1) t := rfl

theorem Core.keeps_putBytes (l : List Byte) : ∀ (k : Core) (a : Nat), k.Keeps (k.putBytes a l) := by
  induction l with
  | nil => intro k a; exact Core.Keeps.refl k
  | cons b t ih =>
    intro k a
    rw [Core.putBytes_cons]
    refine Core.Keeps.trans ?_ (ih _ (a + 1))
    split
    case isTrue ha =>
      exact ⟨fun ⟨halign, hle, hgpr, hregs, hacc, haccs, hmem, hbytes⟩ =>
        ⟨halign, hle, hgpr, hregs, hacc, haccs, Tab.wf_put 0 _ b hmem,
          Tab.forall_key_put (P := fun x => 0x10000 ≤ x ∧ x < 0x40000) b hbytes ha⟩, rfl⟩
    case isFalse => exact Core.Keeps.refl k

theorem Core.keeps_flags (k : Core) (fl : BitVec 4) : k.Keeps { k with flags := fl } := ⟨id, rfl⟩

theorem Core.keeps_sticky (k : Core) (st : BitVec 4) : k.Keeps { k with sticky := st } := ⟨id, rfl⟩

theorem Core.keeps_stickIf (k : Core) (q : Bool) (st : BitVec 4) : k.Keeps (k.stickIf q st) :=
  Core.Keeps.ite (k.keeps_sticky _) (Core.Keeps.refl k)

theorem keeps_znOut (k : Core) (rd : BitVec 5) (r : W32) : k.Keeps (znOut k rd r) :=
  (k.keeps_flags _).trans (Core.keeps_put _ rd r)

theorem keeps_satOut (k : Core) (rd : BitVec 5) (x : Int) : k.Keeps (satOut k rd x) :=
  (k.keeps_stickIf _ _).trans (keeps_znOut _ rd _)

theorem keeps_satAcc (k : Core) (r : BitVec 2) (x : Int) : k.Keeps (satAcc k r x) :=
  (k.keeps_stickIf _ _).trans (Core.keeps_putA _ r _)

/-- A division by zero sets DIVZ and still writes a result (R114). -/
theorem keeps_divz (k : Core) (rd : BitVec 5) (r : W32) : k.Keeps (znOut (k.stick stDivz) rd r) :=
  (k.keeps_sticky _).trans (keeps_znOut _ rd r)

/-- What a refused load leaves: 0 and STICKY.ADDR (R117). -/
theorem keeps_refusedLoad (k : Core) (rd : BitVec 5) : k.Keeps ((k.put rd 0).stick stAddr) :=
  (k.keeps_put rd 0).trans (Core.keeps_sticky _ _)

theorem keeps_store (k : Core) (f : IFmt) (n : Nat) : k.Keeps (k.store f n) :=
  Core.Keeps.ite (Core.keeps_putBytes _ k _) (k.keeps_sticky _)

/-! ### Effects on the device -/

/-- The order of the cores depends on the cores and the skein slots alone. -/
theorem CoresInOrder.congr {s t : State} (h : CoresInOrder s) (hc : t.cores = s.cores) (hk : t.skn = s.skn) :
    CoresInOrder t := by
  obtain ⟨hcores, hentries⟩ := h
  refine ⟨fun c => by rw [State.core_congr hc]; exact hcores c, fun c hlt => ?_⟩
  simp only [State.conf_congr hk]
  exact hentries c hlt

theorem CoresInOrder.setCore {s : State} (h : CoresInOrder s) (c : Nat) {k : Core} (hk : CoreInOrder k) :
    CoresInOrder (s.setCore c k) := by
  refine ⟨fun d => ?_, h.2⟩
  by_cases hd : d = c
  · subst hd
    rw [State.core_setCore_same]
    exact hk
  · rw [State.core_setCore_ne s hd]
    exact h.1 d

/-- A core that is replaced by one with the same PC, registers, accumulators and data memory. -/
theorem CoresInOrder.updCore {s t : State} (h : CoresInOrder s) {c : Nat} {k : Core} (hc : t.cores = (s.setCore c k).cores)
    (hskn : t.skn = s.skn) (hpc : k.pc = (s.core c).pc) (hgpr : k.gpr = (s.core c).gpr) (hacc : k.acc = (s.core c).acc)
    (hmem : k.dmem = (s.core c).dmem) : CoresInOrder t :=
  (h.setCore c ((h.1 c).congr hpc hgpr hacc hmem)).congr hc hskn

theorem CoresInOrder.haltCore {s : State} (h : CoresInOrder s) (c : Nat) : CoresInOrder (s.haltCore c) :=
  h.updCore (c := c) rfl rfl rfl rfl rfl rfl

theorem CoresInOrder.endRow {s : State} (h : CoresInOrder s) (c : Nat) (b : Bool) : CoresInOrder (s.endRow c b) :=
  h.updCore (c := c) rfl rfl rfl rfl rfl rfl

theorem CoresInOrder.coreFault {s : State} (h : CoresInOrder s) (c code : Nat) : CoresInOrder (s.coreFault c code) := by
  have hfault : CoresInOrder (s.setLive Reg.DXC_STAT_FAULT code c) := h.congr rfl rfl
  have hdiscard := hfault.setCore c ((hfault.1 c).congr (j := Core.discard _) rfl rfl rfl rfl)
  unfold State.coreFault
  dsimp only
  generalize hraise : State.raiseNow _ 33 _ = u
  have hu : CoresInOrder u := hraise ▸ hdiscard.congr (State.raiseNow_cores ..) (State.raiseNow_skn ..)
  split
  · exact hu.haltCore c
  · exact hu.endRow c false

theorem CoresInOrder.overrun {s : State} (h : CoresInOrder s) (c : Nat) : CoresInOrder (s.overrun c) := by
  have hmark : CoresInOrder (s.overrunMark c) := h.updCore (c := c) rfl rfl rfl rfl rfl rfl
  rw [State.overrun_eq]
  exact (hmark.congr (by simp [State.overrunNote]) (by simp [State.overrunNote])).endRow c false

/-- The start of a task sets PC to an entry of the skein in force, which is in order (R103). -/
theorem CoresInOrder.startTask {s : State} (h : CoresInOrder s) {c : Nat} (hc : c < 8) (t n : Nat) :
    CoresInOrder (s.startTask c t n) := by
  obtain ⟨hrow, hrowlt, htasks⟩ := h.2 c hc
  unfold State.startTask
  dsimp only
  split
  case isTrue ht =>
    obtain ⟨halign, hlt⟩ := htasks t ht
    exact h.setCore c (CoreInOrder.setPc ((Core.keeps_putBytes _ (s.core c) _).1 (h.1 c)) halign hlt.le)
  case isFalse => exact h.setCore c ((h.1 c).setPc hrow hrowlt.le)

theorem CoresInOrder.nextTask {s : State} (h : CoresInOrder s) {c : Nat} (hc : c < 8) : CoresInOrder (s.nextTask c) := by
  unfold State.nextTask
  dsimp only
  split
  case h_1 rest _ =>
    have hrest : CoresInOrder (s.setCore c { s.core c with todo := rest }) := h.updCore (c := c) rfl rfl rfl rfl rfl rfl
    exact hrest.startTask hc _ _
  · exact h.startTask hc _ _

theorem CoresInOrder.pushOut {s : State} (h : CoresInOrder s) (c : Nat) (o : Out) (p : Nat) :
    CoresInOrder (s.pushOut c o p) := by
  unfold State.pushOut
  dsimp only
  split
  · exact h
  · split
    · have hfull : CoresInOrder (s.setCore c { s.core c with entries := 2049 }) :=
        h.setCore c ((h.1 c).congr rfl rfl rfl rfl)
      exact hfull.congr (State.raiseNow_cores ..) (State.raiseNow_skn ..)
    · exact h.setCore c ((h.1 c).congr rfl rfl rfl rfl)

/-- A core that goes on at the next word after an effect that keeps it. -/
theorem CoresInOrder.goOn {s : State} (h : CoresInOrder s) {c : Nat} (hpc : (s.core c).pc < 0x10000) {j : Core}
    (hj : (s.core c).Keeps j) : CoresInOrder (s.setCore c { j with pc := j.pc + 4 }) :=
  h.setCore c ((hj.1 (h.1 c)).passPc (hj.2 ▸ hpc))

/-! ### The frames of instructions -/

/-- The meaning answers a next state with its cores in order. -/
def CoresAfter (r : Res) : Prop := ∃ t, r = .next t ∧ CoresInOrder t

/-- An instruction keeps the cores in order if its effect on a core inside instruction memory does: halts, faults and the
overrun do. -/
theorem CoresInOrder.dex {s : State} (h : CoresInOrder s) {c : Nat} (legal : Bool) (cyc : Nat)
    {eff : State → Option Nat × State}
    (heff : ∀ t, CoresInOrder t → c < 8 → (t.core c).pc < 0x10000 → CoresInOrder (eff t).2) :
    CoresAfter (.next (s.dex c legal cyc eff)) := by
  refine ⟨_, rfl, ?_⟩
  by_cases hf : s.fetches c = true
  · have hc : c < 8 := by
      simp only [State.fetches, Bool.and_eq_true, decide_eq_true_eq] at hf
      exact lt_of_lt_of_le hf.1.1.1 s.variant.cores_le
    simp only [State.dex, hf, if_true]
    split
    · exact h.haltCore c
    · split
      · exact h.coreFault c 3
      case isFalse hpc =>
        split
        · exact h.coreFault c 1
        · split
          · exact h.overrun c
          · have hcharged : CoresInOrder (s.setCore c ((s.core c).charged cyc)) :=
              h.setCore c ((h.1 c).congr rfl rfl rfl rfl)
            have hres := heff _ hcharged hc (by rw [State.core_setCore_same]; exact Nat.lt_of_not_le hpc)
            split
            · exact h.coreFault c _
            case h_2 t heq =>
              unfold Core.charged at hres
              rwa [heq] at hres
  · simp only [State.dex, hf]
    exact h

theorem CoresInOrder.dexPlain {s : State} (h : CoresInOrder s) {c : Nat} {legal : Bool} {cyc : Nat} {eff : Core → Core}
    (heff : ∀ k : Core, k.Keeps (eff k)) : CoresAfter (s.dexPlain c legal cyc eff) :=
  h.dex legal cyc fun _ ht _ hpc => ht.goOn hpc (heff _)

theorem CoresInOrder.dexR {s : State} (h : CoresInOrder s) {c : Nat} {f : RFmt} {rd ra rb sh : Bool} {cyc : Nat}
    {eff : W32 → W32 → Core → Core} (heff : ∀ a b k, Core.Keeps k (eff a b k)) :
    CoresAfter (s.dexR c f rd ra rb sh cyc eff) :=
  h.dexPlain fun k => heff _ _ k

theorem CoresInOrder.dexI {s : State} (h : CoresInOrder s) {c : Nat} {f : IFmt} {rd ra : Bool}
    {eff : W32 → Core → Core} (heff : ∀ a k, Core.Keeps k (eff a k)) : CoresAfter (s.dexI c f rd ra eff) :=
  h.dexPlain fun k => heff _ k

theorem CoresInOrder.dexA {s : State} (h : CoresInOrder s) {c : Nat} {f : AFmt} {rd ra rb sh : Bool} {cyc : Nat}
    {eff : W32 → W32 → Core → Core} (heff : ∀ a b k, Core.Keeps k (eff a b k)) :
    CoresAfter (s.dexA c f rd ra rb sh cyc eff) :=
  h.dexPlain fun k => heff _ _ k

theorem CoresInOrder.dexLoad {s : State} (h : CoresInOrder s) {c : Nat} {f : IFmt} {n : Nat} {ext : Nat → W32} :
    CoresAfter (s.dexLoad c f n ext) :=
  h.dexPlain fun k => Core.Keeps.ite (k.keeps_put _ _) (keeps_refusedLoad k _)

theorem CoresInOrder.dexJump {s : State} (h : CoresInOrder s) {c : Nat} {legal : Bool} {cyc : Nat}
    {eff : Core → Option Core} (heff : ∀ k j, CoreInOrder k → k.pc < 0x10000 → eff k = some j → CoreInOrder j) :
    CoresAfter (s.dexJump c legal cyc eff) :=
  h.dex legal cyc fun t ht _ hpc => by
    split
    case h_1 k hk => exact ht.setCore c (heff _ k (ht.1 c) hpc hk)
    case h_2 => exact ht

theorem CoresInOrder.dexOut {s : State} (h : CoresInOrder s) {c : Nat} {legal : Bool} {cyc : Nat}
    {build : State → Core → Option (Out × Nat)} {upd : Core → Core} (hupd : ∀ k : Core, k.Keeps (upd k)) :
    CoresAfter (s.dexOut c legal cyc build upd) :=
  h.dex legal cyc fun t ht _ hpc => by
    dsimp only
    split
    · exact ht.setCore c (((t.core c).keeps_sticky _).pass (ht.1 c) hpc)
    · exact (ht.setCore c ((hupd (t.core c)).pass (ht.1 c) hpc)).pushOut c _ _

theorem CoresInOrder.dexNcmd {s : State} (h : CoresInOrder s) {c : Nat} {f : DFmt} {code : BitVec 8} :
    CoresAfter (s.dexNcmd c f code) :=
  h.dexOut Core.Keeps.refl

/-- A transfer counts and posts, or is refused (R128). -/
theorem CoresInOrder.dexXfer {s : State} (h : CoresInOrder s) {c : Nat} {f : DFmt} {dir : Nat} :
    CoresAfter (s.dexXfer c f dir) :=
  h.dex _ _ fun t ht _ hpc => by
    dsimp only
    split
    · exact ht.setCore c (((t.core c).keeps_sticky _).pass (ht.1 c) hpc)
    · refine CoresInOrder.pushOut (ht.setCore c ?_) c _ _
      exact ((ht.1 c).passPc hpc).congr rfl rfl rfl rfl

/-! ### Instructions with a frame of their own -/

/-- A load from a CAN ring window marks and logs a missed entry at most (R369). -/
theorem State.loadCanRing_frame (s : State) (c x o : Nat) :
    (s.loadCanRing c x o).1.cores = s.cores ∧ (s.loadCanRing c x o).1.skn = s.skn := by
  unfold State.loadCanRing
  simp only
  split
  · exact ⟨rfl, rfl⟩
  · split
    · exact ⟨rfl, rfl⟩
    · split
      · exact ⟨rfl, rfl⟩
      · split
        · exact ⟨State.logEntry_cores .., State.logEntry_skn ..⟩
        · exact ⟨rfl, rfl⟩

/-- A load from an Ethernet ring window marks and logs a missed entry at most (R369). -/
theorem State.loadEthRing_frame (s : State) (c x o : Nat) :
    (s.loadEthRing c x o).1.cores = s.cores ∧ (s.loadEthRing c x o).1.skn = s.skn := by
  unfold State.loadEthRing
  simp only
  split
  · exact ⟨rfl, rfl⟩
  · split
    · exact ⟨rfl, rfl⟩
    · split
      · exact ⟨rfl, rfl⟩
      · split
        · exact ⟨State.logEntry_cores .., State.logEntry_skn ..⟩
        · exact ⟨rfl, rfl⟩

/-- A program's load of a register changes no core and no skein slot (R84, R369). -/
theorem State.loadReg_frame (s : State) (c a : Nat) :
    (s.loadReg c a).1.cores = s.cores ∧ (s.loadReg c a).1.skn = s.skn := by
  unfold State.loadReg
  split
  · exact ⟨rfl, rfl⟩
  · split
    · exact s.loadCanRing_frame c _ _
    · exact s.loadEthRing_frame c _ _
    · exact ⟨rfl, rfl⟩

/-- LW: from data memory, from a register, or refused (R117, R118). -/
theorem CoresInOrder.execLw {s : State} (h : CoresInOrder s) (c : Nat) (f : IFmt) : CoresAfter (execLw c f s) :=
  h.dex _ _ fun t ht _ hpc => by
    have hfin : ∀ u : State, CoresInOrder u → (u.core c).pc < 0x10000 → ∀ v : Option Nat,
        CoresInOrder (u.setCore c (
          let k := match v with
            | some v => (u.core c).put f.rd (BitVec.ofNat 32 v)
            | none => ((u.core c).put f.rd 0).stick stAddr
          { k with pc := k.pc + 4 })) := by
      intro u hu hlt v
      cases v with
      | some v => exact hu.goOn hlt (Core.keeps_put _ f.rd _)
      | none => exact hu.goOn hlt (keeps_refusedLoad _ f.rd)
    dsimp only
    split
    · exact hfin t ht hpc (some _)
    · split
      · split
        · obtain ⟨hcores, hskn⟩ := t.loadReg_frame c _
          exact hfin _ (ht.congr hcores hskn) (by rw [State.core_congr hcores]; exact hpc) _
        · exact hfin t ht hpc none
      · exact hfin t ht hpc none

/-- SW: into data memory, posted, or refused (R117). -/
theorem CoresInOrder.execSw {s : State} (h : CoresInOrder s) (c : Nat) (f : IFmt) : CoresAfter (execSw c f s) :=
  h.dex _ _ fun t ht _ hpc => by
    dsimp only
    split
    · exact ht.goOn hpc (keeps_store _ f 4)
    · split
      · exact ht.goOn hpc (Core.keeps_sticky _ _)
      · split
        · exact ht.goOn hpc (Core.keeps_sticky _ _)
        · exact (ht.goOn hpc (Core.Keeps.refl _)).pushOut c _ _

theorem CoresInOrder.execSmpn {s : State} (h : CoresInOrder s) (c : Nat) (f : DFmt) : CoresAfter (execSmpn c f s) :=
  h.dex _ _ fun _ ht _ hpc =>
    ht.setCore c ((Core.Keeps.ite (Core.keeps_put _ _ _) (keeps_refusedLoad _ _)).pass (ht.1 c) hpc)

/-- SMP: the record goes into data memory, or the operands are refused (R131). -/
theorem CoresInOrder.execSmp {s : State} (h : CoresInOrder s) (c : Nat) (f : DFmt) : CoresAfter (execSmp c f s) :=
  h.dex _ _ fun t ht _ hpc => by
    dsimp only
    split
    · split
      · exact ht.goOn hpc (Core.keeps_putBytes _ _ _)
      · exact ht.goOn hpc (Core.keeps_sticky _ _)
    · exact ht.goOn hpc (Core.keeps_sticky _ _)

/-- RWAIT: the next task starts at an entry, or the row ends (R79, R103). -/
theorem CoresInOrder.execRwait {s : State} (h : CoresInOrder s) (c : Nat) (f : DFmt) : CoresAfter (execRwait c f s) :=
  h.dex _ _ fun _ ht hc hpc => by
    have hpass := ht.goOn hpc (Core.Keeps.refl _)
    dsimp only
    split
    · split
      · exact hpass.nextTask hc
      · exact hpass.endRow c true
    · exact hpass

/-- A branch goes to a good target, with or without a link, or on to the next word (R119, R133). -/
theorem CoresInOrder.execBc {s : State} (h : CoresInOrder s) (c : Nat) (f : BFmt) : CoresAfter (execBc c f s) :=
  h.dexJump fun k j hk hpc he => by
    dsimp only at he
    split at he
    · split at he
      case isTrue hgood =>
        injection he with he
        subst he
        exact CoreInOrder.jump ((Core.Keeps.ite (Core.keeps_put k _ _) (Core.Keeps.refl k)).1 hk) hgood
      case isFalse => cases he
    · injection he with he
      subst he
      exact hk.passPc hpc

/-- A jump goes to a good target, whatever it writes before (R119, R133). -/
theorem CoresInOrder.dexTo {s : State} (h : CoresInOrder s) {c cyc : Nat} {target : Core → Int} {link : Core → Core}
    (hlink : ∀ k : Core, k.Keeps (link k)) :
    CoresAfter (s.dexJump c true cyc fun k =>
      if goodTarget (target k) then some { link k with pc := (target k).toNat } else none) :=
  h.dexJump fun k j hk _ he => by
    dsimp only at he
    split at he
    case isTrue hgood =>
      injection he with he
      subst he
      exact ((hlink k).1 hk).jump hgood
    case isFalse => cases he

theorem CoresInOrder.execBudgetOverrun {s : State} (h : CoresInOrder s) (c : Nat) : CoresAfter (execBudgetOverrun c s) := by
  unfold Machine.execBudgetOverrun
  dsimp only
  split
  · exact ⟨_, rfl, h.overrun c⟩
  · exact ⟨_, rfl, h⟩

/-! ### Every command of a core -/

/-- An instruction of a core, and its overrun stop, leave the cores in order. -/
theorem CoresInOrder.exec_dexizCommand {s : State} (h : CoresInOrder s) {i : Instr} (hi : dexizCommand i = true) :
    CoresAfter (exec i s) := by
  cases i with
  | nop =>
    dsimp only [exec, execNop]
    exact h.dexR fun _ _ k => Core.Keeps.refl k
  | add | sub =>
    dsimp only [exec, execAdd, execSub]
    exact h.dexR fun _ _ k => (k.keeps_flags _).trans (Core.keeps_put _ _ _)
  | adds | subs | mulq | abs | negs =>
    dsimp only [exec, execAdds, execSubs, execMulq, execAbs, execNegs]
    exact h.dexR fun _ _ k => keeps_satOut k _ _
  | and | or | xor | andn | sll | srl | sra | srar | slli | srli | srai | srari | mul | mulh | min | max | minu | maxu
    | clz | slt | sltu =>
    dsimp only [exec, execAnd, execOr, execXor, execAndn, execSll, execSrl, execSra, execSrar, execSlli, execSrli,
      execSrai, execSrari, execMul, execMulh, execMin, execMax, execMinu, execMaxu, execClz, execSlt, execSltu]
    exact h.dexR fun _ _ k => keeps_znOut k _ _
  | div | divq =>
    dsimp only [exec, execDiv, execDivq]
    exact h.dexR fun _ _ k => Core.Keeps.ite (keeps_divz k _ _) (keeps_satOut k _ _)
  | divu | rem =>
    dsimp only [exec, execDivu, execRem]
    exact h.dexR fun _ _ k => Core.Keeps.ite (keeps_divz k _ _) (keeps_znOut k _ _)
  | cmp | flgw =>
    dsimp only [exec, execCmp, execFlgw]
    exact h.dexR fun _ _ k => k.keeps_flags _
  | flgr | stkr =>
    dsimp only [exec, execFlgr, execStkr]
    exact h.dexR fun _ _ k => k.keeps_put _ _
  | stkc =>
    dsimp only [exec, execStkc]
    exact h.dexR fun _ _ k => k.keeps_sticky _
  | addi =>
    dsimp only [exec, execAddi]
    exact h.dexI fun _ k => (k.keeps_flags _).trans (Core.keeps_put _ _ _)
  | cmpi =>
    dsimp only [exec, execCmpi]
    exact h.dexI fun _ k => k.keeps_flags _
  | andi | ori | xori | lui =>
    dsimp only [exec, execAndi, execOri, execXori, execLui]
    exact h.dexI fun _ k => keeps_znOut k _ _
  | lh | lhu | lb | lbu =>
    dsimp only [exec, execLh, execLhu, execLb, execLbu]
    exact h.dexLoad
  | sh | sb =>
    dsimp only [exec, execSh, execSb]
    exact h.dexPlain fun k => keeps_store k _ _
  | aclr | amov | ald =>
    dsimp only [exec, execAclr, execAmov, execAld]
    exact h.dexA fun _ _ k => k.keeps_putA _ _
  | mac | msu =>
    dsimp only [exec, execMac, execMsu]
    exact h.dexA fun _ _ k => keeps_satAcc k _ _
  | aadd =>
    dsimp only [exec, execAadd]
    exact h.dexPlain fun k => keeps_satAcc k _ _
  | aext =>
    dsimp only [exec, execAext]
    exact h.dexA fun _ _ k => keeps_satOut k _ _
  | alo | ahi =>
    dsimp only [exec, execAlo, execAhi]
    exact h.dexA fun _ _ k => k.keeps_put _ _
  | j =>
    dsimp only [exec, execJ]
    exact h.dexTo Core.Keeps.refl
  | jal | jalr =>
    dsimp only [exec, execJal, execJalr]
    exact h.dexTo fun k => k.keeps_put _ _
  | evr | ereq | nqry | fprb | semt | semr =>
    dsimp only [exec, execEvr, execEreq, execNqry, execFprb, execSemt, execSemr]
    exact h.dexOut Core.Keeps.refl
  | msg =>
    dsimp only [exec, execMsg]
    exact h.dexOut fun _ => ⟨fun hk => hk.congr rfl rfl rfl rfl, rfl⟩
  | frog | tink | setAngle | setBaseline | setHitch | extset | learnReset | fail | recover | remoteAck =>
    dsimp only [exec, execFrog, execTink, execSetAngle, execSetBaseline, execSetHitch, execExtset, execLearnReset,
      execFail, execRecover, execRemoteAck]
    exact h.dexNcmd
  | xferOutbound | xferInbound =>
    dsimp only [exec, execXferOutbound, execXferInbound]
    exact h.dexXfer
  | lw c f => exact h.execLw c f
  | sw c f => exact h.execSw c f
  | bc c f => exact h.execBc c f
  | rwait c f => exact h.execRwait c f
  | smpn c f => exact h.execSmpn c f
  | smp c f => exact h.execSmp c f
  | budgetOverrun c => exact h.execBudgetOverrun c
  | _ => exact (Bool.false_ne_true hi).elim

/-- Settles O24, by one lemma for each frame in which instructions run. -/
theorem dexizCommandsKeepCoresInOrder : Obligations.DexizCommandsKeepCoresInOrder := by
  unfold Obligations.DexizCommandsKeepCoresInOrder
  intro s s' i q h hi hstep
  have hq : CoresInOrder { s with pending := q } := h.congr rfl rfl
  obtain ⟨t, ht, horder⟩ := hq.exec_dexizCommand hi
  have hnext : (Host.Outcome.next t : Res) = .next s' := ht.symm.trans hstep
  injection hnext with hnext
  exact hnext ▸ horder

end Sys2Proof.Machine
end

section
/-! PROOF. How a row of a core ends: RWAIT, and the faults ILLEGAL, TARGET and PC_END (R79 to R83, R103, R133, R134). -/

namespace Sys2Proof.Machine

/-! ### RWAIT -/

/-- Replacing the core in which a state differs: that core alone still differs. -/
theorem OnlyCore.setCore {s u : State} {c : Nat} {j : Core} (h : OnlyCore s u c j) (k : Core) :
    OnlyCore s (u.setCore c k) c k := by
  obtain ⟨-, hothers, hframe⟩ := h
  refine ⟨State.core_setCore_same u c k, fun d hd => (State.core_setCore_ne u hd k).trans (hothers d hd), ?_⟩
  rw [hframe]
  rfl

/-- The skein-held fields are those of the state whose core was replaced. -/
theorem OnlyCore.conf {s u : State} {c : Nat} {j : Core} (h : OnlyCore s u c j) (f : Fld) (i k : Nat) :
    u.conf f i k = s.conf f i k :=
  State.conf_congr (by rw [h.2.2]) f i k

/-- RWAIT of an event task goes on to the next task (R79, R103). -/
theorem exec_rwait_event {s : State} {c n : Nat} (h : DexReady s c 1) (hn : n < 8) (hrun : (s.core c).run = .task n) :
    ∃ u, OnlyCore s u c ((s.core c).passed 1) ∧ exec (.rwait c ⟨0, 0, 0, 0⟩) s = .next (u.nextTask c) := by
  change ∃ u, OnlyCore s u c ((s.core c).passed 1) ∧ execRwait c ⟨0, 0, 0, 0⟩ s = _
  refine ⟨_, onlyCore_setCore_setCore s c ((s.core c).charged 1) ((s.core c).passed 1), ?_⟩
  unfold execRwait
  rw [State.dex_ready h (legal := devLegal ⟨0, 0, 0, 0⟩ false false false) rfl]
  simp only [State.core_setCore_same, Core.charged, Core.passed, hrun, hn, if_true]

/-- RWAIT of the row task ends the core's row with its outputs complete (R79, R81, R103). -/
theorem exec_rwait_row {s : State} {c : Nat} (h : DexReady s c 1) (hrun : (s.core c).run = .task 8) :
    ∃ u, OnlyCore s u c ((s.core c).passed 1) ∧ exec (.rwait c ⟨0, 0, 0, 0⟩) s = .next (u.endRow c true) := by
  change ∃ u, OnlyCore s u c ((s.core c).passed 1) ∧ execRwait c ⟨0, 0, 0, 0⟩ s = _
  refine ⟨_, onlyCore_setCore_setCore s c ((s.core c).charged 1) ((s.core c).passed 1), ?_⟩
  unfold execRwait
  rw [State.dex_ready h (legal := devLegal ⟨0, 0, 0, 0⟩ false false false) rfl]
  simp only [State.core_setCore_same, Core.charged, Core.passed, hrun, lt_irrefl, if_false]

/-- The row task starts at its entry (R103). -/
theorem OnlyCore.startRowTask {s u : State} {c : Nat} {j : Core} (h : OnlyCore s u c j) (n : Nat) :
    OnlyCore s (u.startTask c 8 n) c { j with run := .task 8, pc := s.conf Reg.DXC_ENTRY_ENTRY c } := by
  rw [← h.conf, ← h.1]
  exact h.setCore _

/-- One byte written into data memory, or dropped (R77). -/
theorem Core.putBytes_one (k : Core) (a : Nat) (b : Byte) :
    k.putBytes a [b] =
      { k with dmem := if 0x10000 ≤ a ∧ a < 0x40000 then Tab.put 0 k.dmem a b else k.dmem } := by
  rw [Core.putBytes_cons]
  split <;> rfl

/-- An event task starts at its entry, with its raise count in the first byte of the mailbox area (R80, R89, R103). -/
theorem OnlyCore.startEventTask {s u : State} {c m : Nat} {j : Core} (h : OnlyCore s u c j) (hm : m < 8) (cnt : Nat) :
    OnlyCore s (u.startTask c m cnt) c { j with
      run := .task m, pc := s.conf Reg.DXC_ETASK_ENTRY c m
      dmem := if 0x10000 ≤ s.conf Reg.DXC_MBAREA_AREA c * 64 ∧ s.conf Reg.DXC_MBAREA_AREA c * 64 < 0x40000 then
        Tab.put 0 j.dmem (s.conf Reg.DXC_MBAREA_AREA c * 64) (BitVec.ofNat 8 (min 255 cnt)) else j.dmem } := by
  have hstart : u.startTask c m cnt = u.setCore c { j with
      run := .task m, pc := s.conf Reg.DXC_ETASK_ENTRY c m
      dmem := if 0x10000 ≤ s.conf Reg.DXC_MBAREA_AREA c * 64 ∧ s.conf Reg.DXC_MBAREA_AREA c * 64 < 0x40000 then
        Tab.put 0 j.dmem (s.conf Reg.DXC_MBAREA_AREA c * 64) (BitVec.ofNat 8 (min 255 cnt)) else j.dmem } := by
    simp only [State.startTask, hm, if_true, Core.putBytes_one, h.conf, h.1]
  rw [hstart]
  exact h.setCore _

/-- Settles O15, by what the start of a task and the end of a row leave in the core that executed RWAIT. -/
theorem rwaitEndsTheTask : Obligations.RwaitEndsTheTask := by
  unfold Obligations.RwaitEndsTheTask
  intro s c h k
  refine ⟨?_, ?_, ?_⟩
  · intro hrun
    obtain ⟨u, hu, hexec⟩ := exec_rwait_row h hrun
    have hend := hu.setCore { u.core c with run := .idle, todo := [], done := true }
    obtain ⟨hcore, hothers, hframe⟩ := hend
    refine ⟨u.endRow c true, _, hexec, hcore, by rw [hu.1], hothers, ?_, ?_, ?_⟩
    · exact congrArg (fun x : State => { x with regs := (u.endRow c true).regs }) hframe
    · rw [State.live_used_endRow, hu.1]
      rfl
    · have hregs : u.regs = s.regs := by rw [hu.2.2]
      exact (LiveSameBut.of_regs_eq hregs _).trans (u.liveSameBut_endRow c true)
  · intro n hn hrun htodo
    obtain ⟨u, hu, hexec⟩ := exec_rwait_event h hn hrun
    have hnext : u.nextTask c = u.startTask c 8 0 := by
      rw [State.nextTask, hu.1]
      simp only [Core.passed, show (s.core c).todo = [] from htodo]
    rw [hnext] at hexec
    exact ⟨_, hexec, hu.startRowTask 0⟩
  · intro n m cnt rest hn hm hrun htodo
    obtain ⟨u, hu, hexec⟩ := exec_rwait_event h hn hrun
    have hnext : u.nextTask c = (u.setCore c { k.passed 1 with todo := rest }).startTask c m cnt := by
      rw [State.nextTask, hu.1]
      simp only [Core.passed, show (s.core c).todo = (m, cnt) :: rest from htodo]
      rfl
    rw [hnext] at hexec
    refine ⟨_, _, hexec, (hu.setCore _).startEventTask hm cnt, rfl, ?_, ?_⟩
    · intro harea
      simp only [if_pos harea, Tab.get_put_same, BitVec.toNat_ofNat]
      omega
    · intro a ha
      dsimp only
      split
      · exact Tab.get_put_ne 0 _ ha _
      · rfl

/-! ### Faults -/

/-- The end of a row leaves its core idle. -/
theorem State.core_endRow_same (s : State) (c : Nat) (b : Bool) :
    (s.endRow c b).core c = { s.core c with run := .idle, todo := [], done := b } :=
  (State.core_congr (State.setLive_cores ..) c).trans (State.core_setCore_same s c _)

theorem State.core_endRow_ne (s : State) {c d : Nat} (hd : d ≠ c) (b : Bool) : (s.endRow c b).core d = s.core d :=
  (State.core_congr (State.setLive_cores ..) d).trans (State.core_setCore_ne s hd _)

/-- A register of the cores' range lies apart from those of events, of ring 0 and of replay time. -/
theorem coreRange_apart {k : Nat} (hk : 8388608 ≤ k ∧ k < 12582912) {e : Nat} (he : e < 128) :
    k ∉ eventReads e ∧ k ≠ Reg.DXC_RPL_T0_LO_T0.key 0 0 ∧ k ≠ Reg.DXC_RPL_T0_HI_T0.key 0 0 := by
  simp only [eventReads, eventKeys, Fld.key, Reg.EVT_ROUTE_HPA, Reg.EVT_ROUTE_HPB, Reg.EVT_CNT_CNT, Reg.EVT_ARG_ARG,
    Reg.EVT_STAMP_LO_STAMP, Reg.EVT_STAMP_HI_STAMP, Reg.EVT_PEND_PEND, Reg.DXC_RPL_T0_LO_T0, Reg.DXC_RPL_T0_HI_T0,
    List.mem_cons, List.not_mem_nil, or_false, not_or]
  omega

/-- The registers of core `c` that a fault reads and writes lie in the cores' range, apart from each other. -/
theorem faultKeys_range {c : Nat} (hc : c < 8) {f : Fld}
    (hf : f ∈ [Reg.DXC_STAT_FAULT, Reg.DXC_CTL_BENCH, Reg.DXC_USED_USED]) :
    8388608 ≤ f.key c 0 ∧ f.key c 0 < 12582912 := by
  simp only [List.mem_cons, List.not_mem_nil, or_false] at hf
  rcases hf with rfl | rfl | rfl <;>
    simp only [Fld.key, Reg.DXC_STAT_FAULT, Reg.DXC_CTL_BENCH, Reg.DXC_USED_USED] <;> omega

/-- What a fault of core `c` outside bench mode leaves of the device: the outputs of the row are discarded, the row ends,
and the code stands in DXC_STAT.FAULT and in the argument of event 33 (R83, R134). -/
def FaultEnds (s t : State) (c code : Nat) : Prop :=
  t.core c = { s.core c with
    run := .idle, todo := [], done := false, outs := [], sentTo := []
    entries := 0, payload := 0, xfers := 0, xferIn := 0, xferOut := 0 } ∧
  (∀ d, d ≠ c → t.core d = s.core d) ∧
  t = { s with cores := t.cores, regs := t.regs, boot := t.boot } ∧
  t.live Reg.DXC_STAT_FAULT c = code ∧ Raised s t 33 (code * 256 + c) (floorTo 64 s.now) ∧
  LiveSameBut s t (Reg.DXC_STAT_FAULT.key c 0 :: Reg.DXC_USED_USED.key c 0 :: eventKeys 33)

theorem eventKeys_subset_eventReads (e : Nat) : eventKeys e ⊆ eventReads e := fun _ hk =>
  List.mem_cons_of_mem _ (List.mem_cons_of_mem _ hk)

/-- A fault up to its event: its code is shown and the outputs go (R83). -/
def State.faultMark (s : State) (c code : Nat) : State :=
  (s.setLive Reg.DXC_STAT_FAULT code c).setCore c (s.core c).discard

/-- A fault up to the end of the row (R83, R134). -/
def State.faultNote (s : State) (c code : Nat) : State := (s.faultMark c code).raiseNow 33 (code * 256 + c)

theorem State.core_faultNote (s : State) (c code d : Nat) :
    (s.faultNote c code).core d = (s.setCore c (s.core c).discard).core d :=
  State.core_congr (State.raiseNow_cores (s.faultMark c code) 33 _) d

theorem State.faultNote_frame (s : State) (c code : Nat) :
    s.faultNote c code = { s with
      cores := (s.faultNote c code).cores, regs := (s.faultNote c code).regs, boot := (s.faultNote c code).boot } := by
  rw [State.faultNote, State.raiseNow, State.raise_frame]
  rfl

/-- Before its event a fault writes its code alone. -/
theorem State.liveSameBut_faultMark (s : State) (c code : Nat) :
    LiveSameBut s (s.faultMark c code) [Reg.DXC_STAT_FAULT.key c 0] :=
  ((LiveSameBut.refl s _).setLive (List.mem_singleton_self _) _).trans (LiveSameBut.of_regs_eq (State.setCore_regs ..) _)

theorem State.liveSameBut_faultNote (s : State) (c code : Nat) :
    LiveSameBut s (s.faultNote c code) (Reg.DXC_STAT_FAULT.key c 0 :: eventKeys 33) :=
  ((s.liveSameBut_faultMark c code).mono (List.cons_subset_cons _ (List.nil_subset _))).trans
    (((s.faultMark c code).liveSameBut_raiseNow 33 _).mono (List.subset_cons_self ..))

/-- The code of a fault stands in DXC_STAT.FAULT. -/
theorem State.live_faultNote (s : State) {c code : Nat} (hc : c < 8) (hcode : code < 2 ^ 8) :
    (s.faultNote c code).live Reg.DXC_STAT_FAULT c = code :=
  have hapart := (coreRange_apart (faultKeys_range hc (f := Reg.DXC_STAT_FAULT) (by simp)) (e := 33) (by decide)).1
  have hraise := (s.faultMark c code).liveSameBut_raiseNow 33 (code * 256 + c)
  calc (s.faultNote c code).live Reg.DXC_STAT_FAULT c
    _ = (s.faultMark c code).live Reg.DXC_STAT_FAULT c := hraise.live fun hk => hapart (eventKeys_subset_eventReads _ hk)
    _ = code % 2 ^ 8 := s.live_setLive_same Reg.DXC_STAT_FAULT code c 0 (by decide)
    _ = code := Nat.mod_eq_of_lt hcode

/-- Outside bench mode a fault ends the row (R134). -/
theorem State.coreFault_eq {s : State} {c : Nat} (hc : c < 8) (hb : s.flag Reg.DXC_CTL_BENCH c = false) (code : Nat) :
    s.coreFault c code = (s.faultNote c code).endRow c false :=
  have hapart := (coreRange_apart (faultKeys_range hc (f := Reg.DXC_CTL_BENCH) (by simp)) (e := 33) (by decide)).1
  have hkey : Reg.DXC_CTL_BENCH.key c 0 ∉ Reg.DXC_STAT_FAULT.key c 0 :: eventKeys 33 := fun hk =>
    (List.mem_cons.1 hk).elim (by simp only [Fld.key, Reg.DXC_CTL_BENCH, Reg.DXC_STAT_FAULT]; omega)
      fun hk => hapart (eventKeys_subset_eventReads _ hk)
  have hbench : (s.faultNote c code).bench c = false :=
    (congrArg (· != 0) ((s.liveSameBut_faultNote c code).live hkey)).trans hb
  if_neg (ne_true_of_eq_false hbench)

/-- The event of a fault, in the state in which the row has ended. -/
theorem State.raised_coreFault {s : State} {c : Nat} (hc : c < 8) (code : Nat) :
    Raised s ((s.faultNote c code).endRow c false) 33 (code * 256 + c) (floorTo 64 s.now) :=
  have hmark := s.liveSameBut_faultMark c code
  have ⟨hfault, hlo, hhi⟩ := coreRange_apart (faultKeys_range hc (f := Reg.DXC_STAT_FAULT) (by simp)) (e := 33) (by decide)
  have hused := (coreRange_apart (faultKeys_range hc (f := Reg.DXC_USED_USED) (by simp)) (e := 33) (by decide)).1
  have hnow : (s.faultMark c code).now = s.now := State.now_congr hmark
    (fun hk => hlo (List.mem_singleton.1 hk).symm) (fun hk => hhi (List.mem_singleton.1 hk).symm) rfl rfl
  have hraised : Raised (s.faultMark c code) (s.faultNote c code) 33 (code * 256 + c) (floorTo 64 s.now) :=
    hnow ▸ State.raised_raise rfl _ _
  hraised.frame (ks := [Reg.DXC_STAT_FAULT.key c 0, Reg.DXC_USED_USED.key c 0])
    (hmark.mono (List.cons_subset_cons _ (List.nil_subset _)))
    ((State.liveSameBut_endRow _ c false).mono (List.subset_cons_self ..))
    (fun k hk hmem => (List.mem_pair.1 hmem).elim (fun h => hfault (h ▸ hk)) fun h => hused (h ▸ hk)) rfl rfl

/-- A fault outside bench mode (R83, R134). -/
theorem State.faultEnds_coreFault {s : State} {c code : Nat} (hc : c < 8) (hb : s.flag Reg.DXC_CTL_BENCH c = false)
    (hcode : code < 2 ^ 8) : FaultEnds s (s.coreFault c code) c code := by
  have hkey : Reg.DXC_STAT_FAULT.key c 0 ≠ Reg.DXC_USED_USED.key c 0 := by
    simp only [Fld.key, Reg.DXC_STAT_FAULT, Reg.DXC_USED_USED]; omega
  have hend := (s.faultNote c code).liveSameBut_endRow c false
  rw [State.coreFault_eq hc hb]
  exact ⟨(State.core_endRow_same ..).trans (congrArg (fun k : Core => { k with run := .idle, todo := [], done := false })
      ((s.core_faultNote c code c).trans (State.core_setCore_same ..))),
    fun d hd => (State.core_endRow_ne _ hd _).trans ((s.core_faultNote c code d).trans (State.core_setCore_ne s hd _)),
    congrArg (fun x : State => { x with
      cores := ((s.faultNote c code).endRow c false).cores, regs := ((s.faultNote c code).endRow c false).regs })
      (s.faultNote_frame c code),
    (hend.live (fun hk => hkey (List.mem_singleton.1 hk))).trans (s.live_faultNote hc hcode),
    State.raised_coreFault hc code,
    ((s.liveSameBut_faultNote c code).mono (List.cons_subset_cons _ (List.subset_cons_self ..))).trans
      (hend.mono fun _ hk => List.mem_cons_of_mem _ (List.mem_cons.2 (.inl (List.mem_singleton.1 hk))))⟩

/-! ### Instructions that fault -/

/-- A fetch past the last word of instruction memory (R134). -/
theorem State.dex_pastEnd {s : State} {c : Nat} (hf : s.fetches c = true) (hb : s.flag Reg.DXC_CTL_BENCH c = false)
    (hpc : 0x10000 ≤ (s.core c).pc) (legal : Bool) (cyc : Nat) (eff : State → Option Nat × State) :
    s.dex c legal cyc eff = s.coreFault c 3 := by
  simp only [State.dex, hf, State.bench, hb, hpc, Bool.false_and, Bool.false_eq_true, if_true, if_false]

/-- A form that is not legal, outside bench mode (R112). -/
theorem State.dex_illegal {s : State} {c cyc : Nat} (h : DexReady s c cyc) (hb : s.flag Reg.DXC_CTL_BENCH c = false)
    {legal : Bool} (hl : legal = false) (n : Nat) (eff : State → Option Nat × State) :
    s.dex c legal n eff = s.coreFault c 1 := by
  obtain ⟨-, -, -, hpc, -⟩ := id h
  simp only [State.dex, State.fetches_of_ready h, State.bench, hb, hl, Nat.not_le.mpr hpc, Bool.false_and,
    Bool.false_eq_true, Bool.not_false, if_true, if_false]

/-- A transfer to a target that is no word of instruction memory (R133). -/
theorem State.dexJump_badTarget {s : State} {c cyc : Nat} {legal : Bool} (h : DexReady s c cyc) (hl : legal = true)
    {eff : Core → Option Core} (he : eff ((s.core c).charged cyc) = none) :
    s.dexJump c legal cyc eff = .next (s.coreFault c 2) := by
  unfold State.dexJump
  rw [State.dex_ready h hl]
  simp only [State.core_setCore_same, he]

/-- A good target, as the spec words it (R133). -/
theorem goodTarget_iff (x : Int) : goodTarget x = true ↔ 0 ≤ x ∧ x ≤ 0xFFFC ∧ x % 4 = 0 := by
  simp [goodTarget, and_assoc]

/-- Settles O20: each fault leaves the state of `State.coreFault`; the instruction's own effect is not applied. -/
theorem faultsEndTheRowWithoutEffect : Obligations.FaultsEndTheRowWithoutEffect := by
  unfold Obligations.FaultsEndTheRowWithoutEffect
  intro s c rd ra rb imm off l hb k good faults
  have hends : ∀ (i : Instr) (code : Nat), c < s.variant.cores → code < 2 ^ 8 → exec i s = .next (s.coreFault c code) →
      faults i code := fun i code hc hcode hexec =>
    ⟨_, hexec, State.faultEnds_coreFault (lt_of_lt_of_le hc s.variant.cores_le) hb hcode⟩
  refine ⟨?_, ?_, ?_⟩
  · intro h
    have hillegal : ∀ (i : Instr) (legal : Bool) (n : Nat) (eff : State → Option Nat × State), legal = false →
        exec i s = .next (s.dex c legal n eff) → faults i 1 := fun i legal n eff hl hexec =>
      hends i 1 h.1 (by decide) (hexec.trans (congrArg _ (State.dex_illegal h hb hl n eff)))
    refine ⟨fun hrd => ⟨?_, ?_, ?_, ?_⟩, fun hrb => ?_, ?_⟩
    · exact hillegal _ _ _ _ (by simpa using hrd) rfl
    · exact hillegal _ _ _ _ (by simpa using hrd) rfl
    · exact hillegal _ _ _ _ (by simpa [devLegal] using hrd) rfl
    · exact hillegal _ _ _ _ (by simpa using hrd) rfl
    · exact hillegal _ _ _ _ (by simpa using hrb) rfl
    · exact hillegal _ _ _ _ (by simp [condHolds]) rfl
  · intro h tgt
    have hbad : ∀ x : Int, ¬ good x → ¬ goodTarget x = true := fun x hx => by rwa [goodTarget_iff]
    refine ⟨fun ht => ⟨?_, ?_⟩, fun cc hcc ht => ?_, fun ht => ?_⟩
    · refine hends _ 2 h.1 (by decide) ?_
      change execJ c ⟨off⟩ s = _
      exact State.dexJump_badTarget h rfl (if_neg (hbad _ ht))
    · refine hends _ 2 h.1 (by decide) ?_
      change execJal c ⟨off⟩ s = _
      exact State.dexJump_badTarget h rfl (if_neg (hbad _ ht))
    · refine hends _ 2 h.1 (by decide) ?_
      change execBc c ⟨cc, l, 0, imm⟩ s = _
      have hcc : condHolds (s.core c) cc = some true := hcc
      exact State.dexJump_badTarget h (by simp [hcc]) ((if_pos hcc).trans (if_neg (hbad _ ht)))
    · refine hends _ 2 h.1 (by decide) ?_
      change execJalr c ⟨rd, ra, imm⟩ s = _
      exact State.dexJump_badTarget h rfl (if_neg (hbad _ ht))
  · intro h hpc
    obtain ⟨hc, hrows, hrun, -, hhalt, -⟩ := h
    simp only [State.core_setCore_same] at hrun hhalt
    have hf : s.fetches c = true := by
      simp only [State.fetches, State.rowsRun, State.halted, Bool.and_eq_true, decide_eq_true_eq, Bool.or_eq_true,
        Bool.not_eq_true']
      refine ⟨⟨⟨hc, hrows⟩, hrun⟩, ?_⟩
      cases hflag : s.flag Reg.DXC_STAT_HALTED c
      · exact .inl rfl
      · exact .inr (hhalt hflag)
    exact hends _ 3 hc (by decide) (congrArg _ (State.dex_pastEnd hf hb (by rw [show (s.core c).pc = _ from hpc]) _ _ _))

end Sys2Proof.Machine
end

section
/-! PROOF. Semaphores and mailboxes as the hosts use them (R89, R90, R396, R399). -/

namespace Sys2Proof.Machine

/-- A command that writes one live field. -/
theorem SetsLive.of_setLive {i : Instr} {s l : State} {f : Fld} {j k v : Nat} (h : exec i s = .next (l.setLive f v j k))
    (hwidth : f.width ≤ 32) (hv : v < 2 ^ f.width) : SetsLive i s l [(f, j, k, v)] :=
  ⟨_, h, ⟨rfl, (LiveSameBut.refl l _).setLive (List.mem_singleton_self _) v⟩,
    List.forall_mem_singleton.2 ((l.live_setLive_same f v j k hwidth).trans (Nat.mod_eq_of_lt hv))⟩

/-- A command that leaves a field at the value it has. -/
theorem SetsLive.of_same {i : Instr} {s l : State} {f : Fld} {j k v : Nat} (h : exec i s = .next l)
    (hv : l.live f j k = v) : SetsLive i s l [(f, j, k, v)] :=
  ⟨l, h, ⟨rfl, LiveSameBut.refl l _⟩, List.forall_mem_singleton.2 hv⟩

/-! ### Semaphores -/

/-- A logged host write touches the registers of ring 0 and the ring-overflow event at most. -/
theorem liveSameBut_logged (s : State) (p : Port) (a v : Nat) : LiveSameBut s (logged s p a v) (ringKeys 0) :=
  (liveSameBut_logEntry s _ _ _ _).trans (liveSameBut_logEntry _ _ _ _ _)

/-- The owner of a semaphore is no register of the rings or of events. -/
theorem live_owner_logged (s : State) (p : Port) (a v : Nat) {n : Nat} (hn : n < 32) :
    (logged s p a v).live Reg.SEM_CTL_OWNER n = s.live Reg.SEM_CTL_OWNER n := by
  refine (liveSameBut_logged s p a v).live ?_
  simp only [ringKeys, eventKeys, Fld.key, Reg.SEM_CTL_OWNER, Reg.DXC_RING_WR_WR, Reg.DXC_RING_RD_RD,
    Reg.DXC_RING_STAT_OVF, Reg.EVT_CNT_CNT, Reg.EVT_ARG_ARG, Reg.EVT_STAMP_LO_STAMP, Reg.EVT_STAMP_HI_STAMP,
    Reg.EVT_PEND_PEND, List.mem_cons, List.not_mem_nil, or_false, not_or]
  omega

/-- A served write of SEM_CTL acts on the state in which it is logged. -/
theorem State.hostSem_served {s : State} {n : Nat} (hn : n < 32) (h : ServesHost s (0x8000 + 4 * n)) (p : Port) (v : Nat) :
    s.hostSem p n v = (logged s p (0x8000 + 4 * n) v).semWrite (.host p) n v := by
  rw [State.hostSem, if_pos hn, State.hostLive_served h]

/-- TAKE, REL and FORCE are bits 29, 30 and 31 of SEM_CTL (R399). -/
theorem State.semWrite_take (s : State) (w : Writer) (n : Nat) : s.semWrite w n (2 ^ 29) = s.semTakeBy w n := rfl
theorem State.semWrite_rel (s : State) (w : Writer) (n : Nat) : s.semWrite w n (2 ^ 30) = s.semRelBy w n := rfl
theorem State.semWrite_force (s : State) (w : Writer) (n : Nat) : s.semWrite w n (2 ^ 31) = s.semForceFree n := rfl

theorem portIdx_lt (p : Port) : p.idx < 2 := by cases p <;> decide

/-- SEM_TAKE (R399). -/
theorem setsLive_semTake {s : State} {n : Nat} (hn : n < 32) (h : ServesHost s (0x8000 + 4 * n)) (p : Port) :
    SetsLive (.semTake p n) s (logged s p (0x8000 + 4 * n) (2 ^ 29)) [(Reg.SEM_CTL_OWNER, n, 0,
      if s.live Reg.SEM_CTL_OWNER n = 0 then p.idx + 1 else s.live Reg.SEM_CTL_OWNER n)] := by
  have hexec : exec (.semTake p n) s =
      .next ((logged s p (0x8000 + 4 * n) (2 ^ 29)).semTakeBy (.host p) n) := by
    change execSemTake p n s = _
    rw [execSemTake, State.hostSem_served hn h, State.semWrite_take]
  have hown := live_owner_logged s p (0x8000 + 4 * n) (2 ^ 29) hn
  rw [State.semTakeBy, hown] at hexec
  split
  case isTrue hfree =>
    rw [if_pos hfree] at hexec
    exact SetsLive.of_setLive hexec (by decide) (lt_of_le_of_lt (portIdx_lt p) (by decide))
  case isFalse htaken =>
    rw [if_neg htaken] at hexec
    exact SetsLive.of_same hexec hown

/-- SEM_REL (R399). -/
theorem setsLive_semRel {s : State} {n : Nat} (hn : n < 32) (h : ServesHost s (0x8000 + 4 * n)) (p : Port) :
    SetsLive (.semRel p n) s (logged s p (0x8000 + 4 * n) (2 ^ 30)) [(Reg.SEM_CTL_OWNER, n, 0,
      if s.live Reg.SEM_CTL_OWNER n = p.idx + 1 then 0 else s.live Reg.SEM_CTL_OWNER n)] := by
  have hexec : exec (.semRel p n) s =
      .next ((logged s p (0x8000 + 4 * n) (2 ^ 30)).semRelBy (.host p) n) := by
    change execSemRel p n s = _
    rw [execSemRel, State.hostSem_served hn h, State.semWrite_rel]
  have hown := live_owner_logged s p (0x8000 + 4 * n) (2 ^ 30) hn
  rw [State.semRelBy, hown, show ownerCode (.host p) = p.idx + 1 from rfl] at hexec
  split
  case isTrue hmine =>
    rw [if_pos hmine] at hexec
    exact SetsLive.of_setLive hexec (by decide) (by decide)
  case isFalse hother =>
    rw [if_neg hother] at hexec
    exact SetsLive.of_same hexec hown

/-- SEM_FORCE (R399). -/
theorem setsLive_semForce {s : State} {n : Nat} (hn : n < 32) (h : ServesHost s (0x8000 + 4 * n)) (p : Port) :
    SetsLive (.semForce p n) s (logged s p (0x8000 + 4 * n) (2 ^ 31)) [(Reg.SEM_CTL_OWNER, n, 0, 0)] := by
  have hexec : exec (.semForce p n) s =
      .next ((logged s p (0x8000 + 4 * n) (2 ^ 31)).semForceFree n) := by
    change execSemForce p n s = _
    rw [execSemForce, State.hostSem_served hn h, State.semWrite_force]
  exact SetsLive.of_setLive hexec (by decide) (by decide)

/-! ### Mailboxes -/

/-- Bytes inside the first part of a list. -/
theorem leAt_append_within {l : List Byte} {i n : Nat} (h : i + n ≤ l.length) (m : List Byte) :
    leAt (l ++ m) i n = leAt l i n := by
  rw [leAt, leAt, List.drop_append_of_le_length (by omega), List.take_append_of_le_length (by rw [List.length_drop]; omega)]

/-- Sixteen words, or any number of them, as little-endian bytes. -/
def wordBytes (f : Nat → Nat) (n : Nat) : List Byte := (List.range n).flatMap (fun i => bytesLE 4 (f i))

theorem wordBytes_succ (f : Nat → Nat) (n : Nat) : wordBytes f (n + 1) = wordBytes f n ++ bytesLE 4 (f n) := by
  simp [wordBytes, List.range_succ]

theorem length_wordBytes (f : Nat → Nat) (n : Nat) : (wordBytes f n).length = 4 * n := by
  simp [wordBytes, List.length_flatMap, Nat.mul_comm]

/-- Each word reads back. -/
theorem leAt_wordBytes (f : Nat → Nat) {i n : Nat} (hi : i < n) : leAt (wordBytes f n) (4 * i) 4 = f i % 2 ^ 32 := by
  induction n with
  | zero => exact absurd hi (Nat.not_lt_zero i)
  | succ n ih =>
    rw [wordBytes_succ]
    rcases Nat.lt_or_ge i n with h | h
    · rw [leAt_append_within (by rw [length_wordBytes]; omega), ih h]
    · obtain rfl : i = n := by omega
      rw [leAt_append_right (by rw [length_wordBytes]), length_wordBytes, Nat.sub_self, leAt_self _ (by simp),
        leNat_bytesLE, show 256 ^ 4 = 2 ^ 32 from rfl]

/-- With the rings not in use an admitted sample waits for its snapshot and leaves no other trace (R28). -/
theorem State.takeIn_unused {s : State} (h0 : s.conf Reg.DXC_RING_CFG_EN 0 = 0) (h1 : s.conf Reg.DXC_RING_CFG_EN 1 = 0)
    (id : InputId) (src adm : Stamp) (l : List Byte) :
    s.takeIn id src adm l =
      { s with inp := { s.inp with pend := s.inp.pend ++ [⟨id, src, adm, s.rowOf adm, l⟩] } } := by
  have hwrite : ∀ b, s.ringWrite 1 b = s := fun b => by simp [State.ringWrite, h1]
  simp only [State.takeIn, State.logEntry_unused h0, hwrite, ite_self]

/-- The body that a port posts: its copies of the 16 words (R89, R396). -/
def State.postBody (s : State) (p : Port) (c : Nat) : List Byte :=
  wordBytes (fun i => s.staged (.host p) Reg.DXC_MBI_WORD c i) 16

/-- A POST that finds room queues the port's message for the core (R89). -/
def State.posted (s : State) (p : Port) (c : Nat) : State :=
  (s.setCore c { s.core c with
      hostMsgs := (s.core c).hostMsgs ++ [(floorTo 64 s.now, p.idx, s.postBody p c)] }).setLive
    Reg.DXC_MBI_CTL_QUEUED (s.live Reg.DXC_MBI_CTL_QUEUED c + 1) c

/-- MBI_POST with the rings not in use: REJ where four messages wait, else the message is queued and admitted (R89). -/
theorem exec_mbiPost {s : State} {c : Nat} (hc : c < 8) (h : ServesHost s (0x001000C0 + 0x10000 * c))
    (h0 : s.conf Reg.DXC_RING_CFG_EN 0 = 0) (h1 : s.conf Reg.DXC_RING_CFG_EN 1 = 0) (p : Port) :
    (4 ≤ s.live Reg.DXC_MBI_CTL_QUEUED c → exec (.mbiPost p c) s = .next (s.setLive Reg.DXC_MBI_CTL_REJ 1 c)) ∧
    (s.live Reg.DXC_MBI_CTL_QUEUED c < 4 → ∃ x : Sample, exec (.mbiPost p c) s =
      .next { s.posted p c with inp := { s.inp with pend := s.inp.pend ++ [x] } }) := by
  have hexec : exec (.mbiPost p c) s = .next (s.mailPost p c (floorTo 64 s.now)) := by
    have haddr : coreBase c + 0xC0 = 0x001000C0 + 0x10000 * c := by simp only [coreBase]; omega
    change execMbiPost p c s = _
    rw [execMbiPost, if_pos hc, haddr, State.hostLive_served h, logged_unused h0]
  constructor
  · intro hfull
    rw [hexec, State.mailPost, if_pos hfull]
  · intro hroom
    refine ⟨⟨BitVec.ofNat 24 (0x090000 + p.idx), floorTo 64 s.now, floorTo 64 s.now,
      (s.posted p c).rowOf (floorTo 64 s.now), s.postBody p c⟩, ?_⟩
    rw [hexec, State.mailPost, if_neg (Nat.not_le.2 hroom)]
    exact congrArg _ (State.takeIn_unused (s := s.posted p c) h0 h1 _ _ _ _)

/-- MBO_RELEASE with the ring not in use (R90). -/
theorem exec_mboRelease {s : State} {c : Nat} (hc : c < 8) (h : ServesHost s (0x00100140 + 0x10000 * c))
    (h0 : s.conf Reg.DXC_RING_CFG_EN 0 = 0) (p : Port) :
    exec (.mboRelease p c) s = .next (s.setLive Reg.DXC_MBO_CTL_VALID 0 c) := by
  have haddr : coreBase c + 0x140 = 0x00100140 + 0x10000 * c := by simp only [coreBase]; omega
  change execMboRelease p c s = _
  rw [execMboRelease, if_pos hc, haddr, State.hostLive_served h, logged_unused h0]
  rfl

/-- Settles O34, command by command. -/
theorem semaphoresAndMailboxes : Obligations.SemaphoresAndMailboxes := by
  unfold Obligations.SemaphoresAndMailboxes
  refine ⟨fun s p n hn h => ⟨setsLive_semTake hn h p, setsLive_semRel hn h p, setsLive_semForce hn h p⟩, ?_⟩
  intro s p c hcores hin hout h0 h1 k
  have hc : c < 8 := lt_of_lt_of_le hcores s.variant.cores_le
  obtain ⟨hfull, hroom⟩ := exec_mbiPost hc hin h0 h1 p
  refine ⟨SetsLive.of_setLive (exec_mboRelease hc hout h0 p) (by decide) (by decide),
    fun hq => SetsLive.of_setLive (hfull hq) (by decide) (by decide), fun hq => ?_⟩
  obtain ⟨x, hexec⟩ := hroom hq
  have hcore : ∀ d, State.core { s.posted p c with inp := { s.inp with pend := s.inp.pend ++ [x] } } d =
      (s.setCore c { k with hostMsgs := k.hostMsgs ++ [(floorTo 64 s.now, p.idx, s.postBody p c)] }).core d :=
    fun d => State.core_congr rfl d
  refine ⟨_, s.postBody p c, hexec, rfl, length_wordBytes _ 16, fun i hi => ?_, ?_, fun d hd => ?_, ?_, ?_⟩
  · exact (leAt_wordBytes _ hi).trans (Nat.mod_eq_of_lt (BitVec.isLt _))
  · rw [hcore, State.core_setCore_same]
  · rw [hcore, State.core_setCore_ne s hd]
  · have hlive : State.live { s.posted p c with inp := { s.inp with pend := s.inp.pend ++ [x] } }
        Reg.DXC_MBI_CTL_QUEUED c = (s.live Reg.DXC_MBI_CTL_QUEUED c + 1) % 2 ^ 4 :=
      State.live_setLive_same _ Reg.DXC_MBI_CTL_QUEUED _ _ _ (by decide)
    rw [hlive]
    exact Nat.mod_eq_of_lt (by omega)
  · exact LiveSameBut.setLive (t := s.setCore c _) (LiveSameBut.of_regs_eq rfl _) (by simp) _

end Sys2Proof.Machine
end
